-- ==== Sys2Proof/Word.lean ====
section
/-! DEFINITION. The word and byte types of the adapter and their plainest conversions. -/

namespace Sys2Proof

/-- A register word, R9. -/
abbrev Word := BitVec 32
/-- One byte, R4. -/
abbrev Byte := BitVec 8
/-- One 16-byte slot, or pip, of a flit (R53, R60). -/
abbrev Pip := BitVec 128
/-- A global address, R66. -/
abbrev GA := BitVec 64

end Sys2Proof
end

