-- ==== Sys2Proof/Syntax.lean ====
section
/-! DEFINITION. The commands of the block: one constructor of Instr per row of spec/opcode_table.json, with the
operands that the spec gives the step (the table itself lists none). What another party supplies (a received flit, a
measured eye, the answer of a home) is an operand; what the instance holds is not. -/

namespace Sys2Proof

/-- The clocks that R255 watches. -/
inductive Clk where
  | linkCore | arith | core | mgmt
  deriving DecidableEq, Repr

/-- Who makes a register access (R338); the shadow of R10 is per requester. -/
inductive Requester where
  | bus | lme | coreSide
  deriving DecidableEq, Repr

/-- The paths of a Wilvel packet, R319. -/
inductive WvPath where
  | mailbox | core | mgt | sb
  deriving DecidableEq, Repr

/-- What a reply needs of its command: the path it came by, its `ORIGIN` and its `TAG` (R317, R320). -/
structure CmdHdr where
  path : WvPath
  origin : Byte
  tag : BitVec 16
  deriving DecidableEq, Repr

/-- The transmit codes of R43 as training messages and LANE-EQ carry them. -/
structure EqVals where
  swing : Byte
  pre2 : Byte
  pre1 : Byte
  post1 : Byte
  deriving DecidableEq, Repr

/-- The body of SHIFT-REQ and SHIFT-ACK, R124. -/
structure ShiftMsg where
  id : Byte
  reason : Byte
  width : Byte
  mode : Byte
  status : Byte
  effg : Word
  excl : BitVec 24
  map : List Byte
  deriving DecidableEq, Repr

/-- The body of CREDIT-INIT and TALLY, R100. -/
structure CreditMsg where
  got : Bool
  epoch : Byte
  aseq : BitVec 16
  rseq : BitVec 16
  room : List (BitVec 16)
  owed : List (BitVec 16)
  deriving DecidableEq, Repr

/-- The body of READY, R111. -/
structure ReadyMsg where
  mode : Byte
  width : Byte
  excl : BitVec 24
  map : List Byte
  deriving DecidableEq, Repr

/-- The body of DETECT, R111. -/
structure DetectMsg where
  seen : BitVec 24
  modes : Byte
  kind : Byte
  reversed : Bool
  deriving DecidableEq, Repr

/-- The body of EQ-SET and EQ-DONE, R111. -/
structure EqMsg where
  reqid : Byte
  lane : Byte
  mode : Byte
  vals : EqVals
  deriving DecidableEq, Repr

/-- The body of STRETCH, R161. -/
structure StretchMsg where
  got : Bool
  lower : Bool
  k : Byte
  seq : Byte
  origin : BitVec 9
  e : BitVec 64
  deriving DecidableEq, Repr

/-- The body of GEN-NOTICE, R233. -/
structure GenMsg where
  got : Bool
  origin : BitVec 9
  vi : Byte
  gen : BitVec 10
  nseq : Byte
  deriving DecidableEq, Repr

/-- A TIME-SYNC message with the tick at which its first symbol arrived; times in sixteenths of a tick (R141). -/
structure SyncMsg where
  id : Byte
  synced : Bool
  tsend : Nat
  trecv : Nat
  arrived : Nat
  deriving DecidableEq, Repr

/-- The result of an eye sweep: height in 0.5 mV, width in 1/64 UI, and which eye was smallest (R46). -/
structure Eye where
  height : BitVec 16
  width : BitVec 7
  which : BitVec 2
  deriving DecidableEq, Repr

/-- A pattern, and of each of the first bits that its checker receives whether it is in error (R341). -/
structure PatStart where
  pat : BitVec 2
  came : List Bool
  deriving DecidableEq, Repr

/-- Results of a context of another instance of the die, `src` coded as `INSEL` is (R198). -/
structure RelayData where
  src : BitVec 12
  bytes : List Byte
  deriving DecidableEq, Repr

/-- What a receive stream of another instance of the die released: the instance, its stream and the bytes (R181). -/
structure StreamData where
  inst : BitVec 7
  src : BitVec 10
  bytes : List Byte
  deriving DecidableEq, Repr

/-- The end of a PRBS31 test: errors of each lane, in the order of the lanes of the instance, and the lanes whose polarity is inverted (R34, R305). -/
structure PrbsEnd where
  counts : List Nat
  inverted : BitVec 24
  deriving DecidableEq, Repr

/-- The commands, one per row of the opcode table. -/
inductive Instr where
  -- resets, clocks, crossings, die status
  | packageReset
  | instanceReset
  | dieReset
  | dieResetRelease
  | dieClockLoss
  | dieClockReturn
  | powerLoss
  | clockStopDetect (c : Clk)
  | clockReturnDetect (c : Clk)
  | crossingHandshakeStep (x : Fin 6) (unread : Nat)
  | resetWarning (own clock : Bool)
  | peerDieRstChange (v : Bool)
  | peerClkokChange (v : Bool)
  | silenceTimeout
  | holdExpiry
  | lossOfSignal (lane : Fin 18) (lost : Bool)
  | supplyDroop
  | pathDownReport (tag : BitVec 16)
  | pairPartnerUpdate (pod : BitVec 9) (port : BitVec 6) (passed : Bool)
  -- register accesses
  | registerWrite (r : Requester) (off : BitVec 16) (v : Word)
  | unalignedAccess (r : Requester) (write : Bool) (off : BitVec 16)
  | lowWordRead (r : Requester) (off : BitVec 16)
  | coreSideAccess (write : Bool) (vi : Byte) (off : BitVec 16) (v : Word)
  | laneTxeqWrite (lane : Fin 18) (v : Word)
  | laneRxeqWrite (lane : Fin 18) (v : Word)
  | eqPendingApply (lane : Fin 18)
  | lanePatStart (lane : Fin 18) (pat : PatStart)
  | lanePatStop (lane : Fin 18) (errs : Word)
  | linkCtrlDown
  | linkCtrlRetrain
  | turnCtrlCheck
  | fitCheckEnd (deck : List (List Word))
  | turnCtrlArm
  | turnCtrlHalt
  | streamDescriptorWrite (id : BitVec 10) (word : Fin 4) (v : Word)
  | movRingHeadWrite (ring : Fin 64) (v : BitVec 16)
  | movRingEnable (ring : Fin 64) (en : Bool)
  | movSwinEnable (w : Fin 32) (v : Word)
  | movSwinProdWrite (w : Fin 32) (v : Word)
  | movSwinConsWrite (w : Fin 32) (v : Word)
  | foldCtxEnable (c : Fin 32) (en : Bool)
  | foldXjGo (j : Fin 8)
  | islCtrlArst
  | ageCtrlCkptnow
  | ageCtrlEpochnow
  | startCtrlService
  | startCtrlDetect
  | lmeCtrlLoad
  | lmeLoadWord (v : Word)
  | lmeCtrlStart
  | ucodeCheckEnd
  | mbxCtrlSend
  | mbxCtrlNext
  | fwWinSelCommit (index : BitVec 12)
  | fwWinSelRead (index : BitVec 12)
  | fwCtrlQclear
  | fwCtrlDbgUnlock
  -- flits, delivery, credits
  | flitReceive (dt : Nat) (wire : BitVec 2176)
  | transmitFlit (dt : Nat)
  | ackTimeout
  | coreMessageOffer (m : List Pip)
  | messageDelivery (c : Fin 6)
  | fenceDelivery
  | streamDueTick
  | creditInitReceive (m : CreditMsg)
  | creditInitRepeat
  | creditExchangeTimeout
  | tallySend
  | tallyReceive (m : CreditMsg)
  | stalemateCheck (c : Fin 6)
  | loopProbeSend
  | loopProbeReceive (id : Byte)
  | loopEchoReceive (id : Byte) (turn : BitVec 16)
  | loopExchangeTimeout
  | quiRunStart
  -- training
  | sbFrameReceive (codeError : Bool) (body : List Byte) (endsRight : Bool) (seen off : BitVec 24)
  | trainingBlockReceive (block : BitVec 512) (seen off : BitVec 24)
  | detectMessage (m : DetectMsg) (seen off : BitVec 24)
  | eqSetMessage (m : EqMsg)
  | eqDoneMessage (m : EqMsg)
  | eqResultMessage (mode : Byte) (pass : BitVec 24)
  | capMessage (rec : BitVec 192)
  | capGotMessage
  | readyMessage (m : ReadyMsg)
  | retrainMessage (cause : Byte)
  | abortMessage (reason : Byte)
  | trainingRepeat
  | detectTimeout (seen off : BitVec 24) (sb : Bool)
  | eqSearchPoint (lane : Fin 18) (snr : BitVec 16)
  | eqQualifyEnd (errs : List Nat) (inverted : BitVec 24)
  | equaliseTimeout
  | negotiateTimeout
  | miscableCapResend
  | miscableHoldExpiry
  | startMarkerSend
  | startMarkerReceive
  | retrainLaneCheckEnd (errs : List Nat)
  | retrainTimeout
  -- Shift, repair, Castling
  | shiftReqReceive (m : ShiftMsg)
  | shiftAckReceive (m : ShiftMsg)
  | shiftReqRepeat
  | shiftTxSwitch
  | shiftRxSwitch
  | rateLowerGapEnd
  | laneEqPrep (reqid : Byte) (lane : Fin 18)
  | laneEqSet (reqid : Byte) (lane : Fin 18) (v : EqVals)
  | laneEqSetDone (reqid : Byte) (lane : Fin 18) (v : EqVals)
  | laneEqQual (lane : Fin 18)
  | laneEqFail (lane : Fin 18)
  | laneEqMeasure (reqid : Byte) (lane : Fin 18)
  | laneEqRelease (reqid : Byte) (lane : Fin 18)
  | laneEqRepeat
  | spareQualifyEnd (lane : Fin 18) (errs : Nat)
  | holdNoticeReceive (cause : Byte)
  -- time and schedule
  | roundBoundary
  | timeSyncRequestSend
  | timeSyncRequestReceive (m : SyncMsg)
  | timeSyncReplyReceive (m : SyncMsg)
  | deckFetchIssue
  | deckFetchComplete (page : List Word) (ok : Bool)
  | deckFetchDeadline
  | stretchReceive (m : StretchMsg)
  | stretchRepeat
  | genNoticeReceive (m : GenMsg)
  | genNoticeRepeat
  -- movers
  | descriptorFetchIssue (ring : Fin 64)
  | descriptorFetchReturn (tag : BitVec 16) (status : Byte) (line : BitVec 1024)
  | copyDescriptor (m : Fin 4) (ring : Fin 64)
  | signalDescriptor (m : Fin 4) (ring : Fin 64)
  | waitDescriptor (m : Fin 4) (ring : Fin 64)
  | fenceDescriptor (m : Fin 4) (ring : Fin 64)
  | moverRequestIssue (m : Fin 4)
  | moverResponseReceive (msg : List Pip)
  | waitPoll (m : Fin 4)
  | waitTimeout (m : Fin 4)
  | responseTimeout (tag : BitVec 16)
  | acquireConfirm (m : Fin 4)
  | windowPublish (w : Fin 32)
  -- Fold
  | elementCombine (c : Fin 32)
  | foldOutput (c : Fin 32)
  | relayReceive (c : Fin 32) (toOpnd : Bool) (data : RelayData)
  | xjEnd (j : Fin 8)
  -- guest
  | quarantinePropagate (quar : Bool)
  | rateBucketRefill (c : Fin 6)
  -- ageing
  | epochDue
  | csrSample (lane : Fin 18) (carried : Nat)
  | snrRefresh (lane : Fin 18) (snr : BitVec 16)
  | temperatureReading (t : BitVec 16)
  | sweepPointStart (lane : Fin 18)
  | sweepPointEnd (e : Eye)
  | checkpointDue
  | ledgerPutSend
  | ledgerPutReply (tag : BitVec 16) (status : Byte)
  | ledgerPutResend
  -- start
  | stageAdvance (step : Option (BitVec 64))
  | stageTimeout
  | walkingOnesStep (bad : BitVec 24)
  | mfgPrbsEnd (errs : PrbsEnd)
  -- Wilvel
  | wilvelPacketReceive (path : WvPath) (packet : List Byte)
  | nop (h : CmdHdr)
  | readState (h : CmdHdr) (addr len : Word)
  | dump (h : CmdHdr) (mask : Word)
  | regRead (h : CmdHdr) (offs : List Word)
  | regWrite (h : CmdHdr) (writes : List (Word × Word))
  | retrain (h : CmdHdr)
  | linkDown (h : CmdHdr)
  | shift (h : CmdHdr) (width mode : Byte)
  | retireLane (h : CmdHdr) (lane : Byte)
  | castle (h : CmdHdr) (lane : Byte)
  | sweep (h : CmdHdr) (lane : Byte)
  | pattern (h : CmdHdr) (lane pat : Byte) (user ticks : Word)
  | patternTimeEnd (errs : Word)
  | detect (h : CmdHdr)
  | instReset (h : CmdHdr) (ovr : Bool) (mem : Word)
  | service (h : CmdHdr)
  | microcodeUpdate (h : CmdHdr)
  | arithReset (h : CmdHdr)
  | loadTurns (h : CmdHdr) (params : List Byte)
  | arm (h : CmdHdr) (round : BitVec 64)
  | halt (h : CmdHdr)
  | setStretchApply (h : CmdHdr) (k : Byte) (lower : Bool) (e : BitVec 64)
  | setStretchForward (h : CmdHdr) (k : Byte) (lower : Bool) (seq : Byte) (origin : BitVec 9) (e : BitVec 64)
  | whatif (h : CmdHdr) (k width mode : Byte)
  | viCreate (h : CmdHdr) (vi host : Byte) (guest : Bool) (share sbase4 scnt4 : Byte)
  | viBind (h : CmdHdr) (ring vi : Byte) (unbind : Bool)
  | viShare (h : CmdHdr) (vi share : Byte)
  | viReset (h : CmdHdr) (vi : Byte) (e : BitVec 64)
  | viDestroy (h : CmdHdr) (vi : Byte) (e : BitVec 64)
  | viRestore (h : CmdHdr) (vi : Byte) (last : Bool) (ent shr : Word)
  | viNotice (h : CmdHdr) (vi : Byte) (gen : BitVec 10) (nseq : Byte) (origin : BitVec 9)
  | fwWindow (h : CmdHdr) (index : BitVec 16) (w0 w1 w2 w3 : Word)
  | fwQclear (h : CmdHdr)
  | fwDbg (h : CmdHdr) (unlock : Bool)
  | ledgerTake (h : CmdHdr) (ackseq : BitVec 16) (ackvalid : Bool)
  | checkpoint (h : CmdHdr)
  | epoch (h : CmdHdr)
  -- queues toward the core side, relays
  | eventDelivery
  | traceDelivery
  | streamRelayArrival (stream : BitVec 10) (data : StreamData)
  deriving DecidableEq, Repr

end Sys2Proof
end

