-- ==== Sys2Proof/Config.lean ====
section
/-! DEFINITION. The free values of the model: what the spec leaves open after a command that goes on.
They have no body, so that nothing can be proved of a value of theirs. -/

namespace Sys2Proof.Config

/-- The n-th free word: a value that the spec leaves open (log entry 9). `State.free` counts the words taken. -/
opaque freeWord : Nat → BitVec 32

/-- What a word of a state space shows at a tick where nothing that the spec names stands, by the tick and the word (log entry 101). -/
opaque spaceRest : Nat → Nat → BitVec 32

end Sys2Proof.Config
end

