-- ==== Sys2Proof/Machine/Sparse.lean ====
section
/-! DEFINITION. The one form in which the model holds the register window and the block's RAMs:
a list of (address, word) pairs with strictly rising addresses and no zero word; an unlisted address
reads zero. The smallest unit is the naturally aligned 32-bit word, the only access R9 allows. -/

namespace Sys2Proof.Machine

/-- A sparse memory of 32-bit words. -/
abbrev Sparse := List (Nat × Word)

/-- The canonical form: addresses strictly rise and no listed word is zero. -/
def Sparse.wf : Sparse → Bool
  | [] => true
  | [(_, v)] => v != 0
  | (k, v) :: (k', v') :: r => v != 0 && decide (k < k') && Sparse.wf ((k', v') :: r)

/-- The word at an address; an unlisted address reads zero. -/
def Sparse.get : Sparse → Nat → Word
  | [], _ => 0
  | (k, v) :: r, a => if a = k then v else Sparse.get r a

/-- Enter one word in its place. -/
def Sparse.put : Sparse → Nat → Word → Sparse
  | [], a, v => [(a, v)]
  | (k, w) :: r, a, v => if a < k then (a, v) :: (k, w) :: r else if a = k then (a, v) :: r else (k, w) :: Sparse.put r a v

/-- Write one word, keeping the canonical form: writing zero removes the entry. -/
def Sparse.set (m : Sparse) (a : Nat) (v : Word) : Sparse := if v = 0 then m.filter (fun e => e.1 != a) else Sparse.put m a v

/-- Write a list of (address, word) pairs in order. -/
def Sparse.setAll (m : Sparse) (l : List (Nat × Word)) : Sparse :=
  l.foldl (fun m p => m.set p.1 p.2) m

/-- Remove every entry whose address satisfies `p`: those addresses read zero afterwards. -/
def Sparse.clear (m : Sparse) (p : Nat → Bool) : Sparse :=
  m.filter (fun e => !p e.1)

end Sys2Proof.Machine
end

