-- ==== Sys2Proof/Machine/Regs.lean ====
section
/-! DEFINITION. The register window of R336: the place of every register and field, under the manual's
own names (GROUP_REG_FIELD for `GROUP_REG.FIELD`), the access codes of R7 as bit masks, and the counters of R343. -/

namespace Sys2Proof.Machine

/-- A register field: the offset of its word in the window, its lowest bit and its width. -/
structure Fld where
  off : Nat
  lo : Nat
  w : Nat
  deriving DecidableEq, Repr

/-- A 64-bit register of R10: the offset of its low word. -/
structure Wide where
  off : Nat
  deriving DecidableEq, Repr

/-- A counter of R343: offset and width. -/
structure Cnt where
  off : Nat
  w : Nat
  deriving DecidableEq, Repr

/-- Offset of `LANE_STATUS`. -/
def LANE_STATUS (i : Nat) : Nat := 0x804 + 0x40 * i
def LANE_STATUS_MODE (i : Nat) : Fld := ⟨0x804 + 0x40 * i, 12, 2⟩
def LANE_STATUS_LOS (i : Nat) : Fld := ⟨0x804 + 0x40 * i, 11, 1⟩
def LANE_STATUS_TXEQ_PEND (i : Nat) : Fld := ⟨0x804 + 0x40 * i, 10, 1⟩
def LANE_STATUS_SWEEP (i : Nat) : Fld := ⟨0x804 + 0x40 * i, 9, 1⟩
def LANE_STATUS_POS (i : Nat) : Fld := ⟨0x804 + 0x40 * i, 4, 5⟩
def LANE_STATUS_POLINV (i : Nat) : Fld := ⟨0x804 + 0x40 * i, 3, 1⟩
def LANE_STATUS_STATE (i : Nat) : Fld := ⟨0x804 + 0x40 * i, 0, 3⟩
/-- Offset of `DLV_ARB`. -/
def DLV_ARB : Nat := 0x1040
def DLV_ARB_RSP_Q : Fld := ⟨0x1040, 24, 8⟩
def DLV_ARB_COH_Q : Fld := ⟨0x1040, 16, 8⟩
def DLV_ARB_REQ_Q : Fld := ⟨0x1040, 8, 8⟩
def DLV_ARB_DBG_Q : Fld := ⟨0x1040, 0, 8⟩
/-- Offset of `DLV_CTRL`. -/
def DLV_CTRL : Nat := 0x1000
def DLV_CTRL_WATCH_EN : Fld := ⟨0x1000, 2, 1⟩
def DLV_CTRL_TALLY_MODE : Fld := ⟨0x1000, 0, 2⟩
/-- Offset of `DLV_STATUS`. -/
def DLV_STATUS : Nat := 0x1004
def DLV_STATUS_TXEPOCH : Fld := ⟨0x1004, 24, 8⟩
def DLV_STATUS_RXEPOCH : Fld := ⟨0x1004, 16, 8⟩
def DLV_STATUS_INITDONE : Fld := ⟨0x1004, 4, 1⟩
def DLV_STATUS_CREDIT_OK : Fld := ⟨0x1004, 3, 1⟩
def DLV_STATUS_RWAIT : Fld := ⟨0x1004, 2, 1⟩
def DLV_STATUS_REPLAY : Fld := ⟨0x1004, 1, 1⟩
def DLV_STATUS_BANKBOUND : Fld := ⟨0x1004, 0, 1⟩
/-- Offset of `DLV_SEQ`. -/
def DLV_SEQ : Nat := 0x1008
def DLV_SEQ_TXSEQ : Fld := ⟨0x1008, 16, 16⟩
def DLV_SEQ_RXSEQ : Fld := ⟨0x1008, 0, 16⟩
/-- Offset of `DLV_BANK`. -/
def DLV_BANK : Nat := 0x100C
def DLV_BANK_ACKED : Fld := ⟨0x100C, 16, 16⟩
def DLV_BANK_BIGBANK : Fld := ⟨0x100C, 15, 1⟩
def DLV_BANK_OCC : Fld := ⟨0x100C, 0, 12⟩
/-- Offset of `DLV_LOOP`. -/
def DLV_LOOP : Nat := 0x1010
def DLV_LOOP_VALID : Fld := ⟨0x1010, 31, 1⟩
def DLV_LOOP_LOOP : Fld := ⟨0x1010, 0, 20⟩
/-- Offset of `DLV_ACKTO`. -/
def DLV_ACKTO : Nat := 0x1014
def DLV_ACKTO_REPLAY_LIMIT : Fld := ⟨0x1014, 24, 4⟩
def DLV_ACKTO_ACKTO : Fld := ⟨0x1014, 0, 20⟩
/-- Offset of `DLV_TALLY`. -/
def DLV_TALLY : Nat := 0x1018
def DLV_TALLY_LASTFIX : Fld := ⟨0x1018, 16, 16⟩
def DLV_TALLY_LASTCH : Fld := ⟨0x1018, 0, 3⟩
/-- Offset of `DLV_WATCH`. -/
def DLV_WATCH : Nat := 0x101C
def DLV_WATCH_SETTLE : Fld := ⟨0x101C, 16, 8⟩
def DLV_WATCH_ARMED : Fld := ⟨0x101C, 0, 6⟩
/-- Offset of `DLV_WIN`. -/
def DLV_WIN (c : Nat) : Nat := 0x1080 + 0x4 * c
def DLV_WIN_WINDOW (c : Nat) : Fld := ⟨0x1080 + 0x4 * c, 16, 16⟩
def DLV_WIN_ROOM0 (c : Nat) : Fld := ⟨0x1080 + 0x4 * c, 0, 16⟩
/-- Offset of `DLV_FLOOR`. -/
def DLV_FLOOR (c : Nat) : Nat := 0x10A0 + 0x4 * c
def DLV_FLOOR_FLOOR (c : Nat) : Fld := ⟨0x10A0 + 0x4 * c, 0, 16⟩
/-- Offset of `DLV_RXBUF`. -/
def DLV_RXBUF (c : Nat) : Nat := 0x10C0 + 0x4 * c
def DLV_RXBUF_HELD (c : Nat) : Fld := ⟨0x10C0 + 0x4 * c, 16, 16⟩
def DLV_RXBUF_OWED (c : Nat) : Fld := ⟨0x10C0 + 0x4 * c, 0, 16⟩
/-- Offset of `DLV_PCAP`. -/
def DLV_PCAP (c : Nat) : Nat := 0x10E0 + 0x4 * c
def DLV_PCAP_PCAP (c : Nat) : Fld := ⟨0x10E0 + 0x4 * c, 0, 16⟩
/-- Offset of `LINK_CTRL`. -/
def LINK_CTRL : Nat := 0x400
def LINK_CTRL_BASECAP_REQ : Fld := ⟨0x400, 6, 1⟩
def LINK_CTRL_NO_NATIVE : Fld := ⟨0x400, 5, 1⟩
def LINK_CTRL_EQ_FULL : Fld := ⟨0x400, 4, 1⟩
def LINK_CTRL_CASTLE_EN : Fld := ⟨0x400, 3, 1⟩
def LINK_CTRL_REMAP_EN : Fld := ⟨0x400, 2, 1⟩
def LINK_CTRL_DOWN : Fld := ⟨0x400, 1, 1⟩
def LINK_CTRL_RETRAIN : Fld := ⟨0x400, 0, 1⟩
/-- Offset of `LINK_STATUS`. -/
def LINK_STATUS : Nat := 0x404
def LINK_STATUS_STATE : Fld := ⟨0x404, 28, 4⟩
def LINK_STATUS_WIDTH : Fld := ⟨0x404, 23, 5⟩
def LINK_STATUS_MODE : Fld := ⟨0x404, 21, 2⟩
def LINK_STATUS_FREE : Fld := ⟨0x404, 16, 5⟩
def LINK_STATUS_EMPTY : Fld := ⟨0x404, 15, 1⟩
def LINK_STATUS_REVERSED : Fld := ⟨0x404, 14, 1⟩
def LINK_STATUS_BASECAP : Fld := ⟨0x404, 13, 1⟩
def LINK_STATUS_CASTLING : Fld := ⟨0x404, 12, 1⟩
def LINK_STATUS_INITIATOR : Fld := ⟨0x404, 11, 1⟩
def LINK_STATUS_PEERCASTLE : Fld := ⟨0x404, 10, 1⟩
/-- Offset of `LINK_FAIL`. -/
def LINK_FAIL : Nat := 0x408
def LINK_FAIL_FSTATE : Fld := ⟨0x408, 28, 4⟩
def LINK_FAIL_REASON : Fld := ⟨0x408, 16, 8⟩
def LINK_FAIL_RUN : Fld := ⟨0x408, 0, 8⟩
/-- Offset of `LINK_EXCL`. -/
def LINK_EXCL : Nat := 0x40C
def LINK_EXCL_EXCL : Fld := ⟨0x40C, 0, 18⟩
/-- Offset of `LINK_SHIFT`. -/
def LINK_SHIFT : Nat := 0x41C
def LINK_SHIFT_SHIFTID : Fld := ⟨0x41C, 24, 8⟩
def LINK_SHIFT_REASON : Fld := ⟨0x41C, 16, 8⟩
def LINK_SHIFT_WIDTH : Fld := ⟨0x41C, 11, 5⟩
def LINK_SHIFT_MODE : Fld := ⟨0x41C, 9, 2⟩
def LINK_SHIFT_MERGED : Fld := ⟨0x41C, 8, 1⟩
def LINK_SHIFT_PHASE : Fld := ⟨0x41C, 0, 2⟩
/-- Offset of `LINK_EFFG`. -/
def LINK_EFFG : Nat := 0x420
def LINK_EFFG_EFFG : Fld := ⟨0x420, 0, 32⟩
/-- Offset of `TIME_CTRL`. -/
def TIME_CTRL : Nat := 0x1800
def TIME_CTRL_MASTER : Fld := ⟨0x1800, 4, 1⟩
def TIME_CTRL_ROLE : Fld := ⟨0x1800, 2, 2⟩
def TIME_CTRL_ADJ_EN : Fld := ⟨0x1800, 0, 1⟩
/-- Offset of `TIME_STATUS`. -/
def TIME_STATUS : Nat := 0x1804
def TIME_STATUS_SYNCED : Fld := ⟨0x1804, 31, 1⟩
def TIME_STATUS_PARENT_LOST : Fld := ⟨0x1804, 30, 1⟩
def TIME_STATUS_BEATRUN : Fld := ⟨0x1804, 16, 8⟩
/-- Offset of `TIME_OWD`. -/
def TIME_OWD : Nat := 0x1818
def TIME_OWD_OWD : Fld := ⟨0x1818, 0, 24⟩
/-- Offset of `TIME_ASYM`. -/
def TIME_ASYM : Nat := 0x181C
def TIME_ASYM_ASYM : Fld := ⟨0x181C, 0, 16⟩
/-- Offset of `TIME_DECL`. -/
def TIME_DECL : Nat := 0x1820
def TIME_DECL_VALID : Fld := ⟨0x1820, 31, 1⟩
def TIME_DECL_DECL : Fld := ⟨0x1820, 0, 20⟩
/-- Offset of `TIME_ERR`. -/
def TIME_ERR : Nat := 0x1824
def TIME_ERR_LASTERR : Fld := ⟨0x1824, 16, 16⟩
/-- Offset of `TURN_CTRL`. -/
def TURN_CTRL : Nat := 0x1840
def TURN_CTRL_DECK_ON : Fld := ⟨0x1840, 4, 1⟩
def TURN_CTRL_ARM : Fld := ⟨0x1840, 3, 1⟩
def TURN_CTRL_HALT : Fld := ⟨0x1840, 2, 1⟩
def TURN_CTRL_CHECK : Fld := ⟨0x1840, 1, 1⟩
def TURN_CTRL_RUN : Fld := ⟨0x1840, 0, 1⟩
/-- Offset of `TURN_LEN`. -/
def TURN_LEN : Nat := 0x1844
def TURN_LEN_CYCLE : Fld := ⟨0x1844, 27, 5⟩
def TURN_LEN_LEN : Fld := ⟨0x1844, 0, 25⟩
/-- Offset of `TURN_STRETCH`. -/
def TURN_STRETCH : Nat := 0x1848
def TURN_STRETCH_K : Fld := ⟨0x1848, 27, 5⟩
def TURN_STRETCH_PENDING : Fld := ⟨0x1848, 24, 3⟩
def TURN_STRETCH_FULL : Fld := ⟨0x1848, 23, 1⟩
/-- Offset of `TURN_LAG`. -/
def TURN_LAG : Nat := 0x184C
def TURN_LAG_MAXLAG : Fld := ⟨0x184C, 16, 16⟩
def TURN_LAG_BUDGET : Fld := ⟨0x184C, 0, 16⟩
/-- Offset of `TURN_ASSUME`. -/
def TURN_ASSUME : Nat := 0x1850
def TURN_ASSUME_DECL : Fld := ⟨0x1850, 0, 20⟩
/-- Offset of `TURN_FLOOD`. -/
def TURN_FLOOD : Nat := 0x1854
def TURN_FLOOD_LEAD : Fld := ⟨0x1854, 28, 4⟩
def TURN_FLOOD_FLOOD : Fld := ⟨0x1854, 0, 24⟩
/-- Offset of `TURN_DECK`. -/
def TURN_DECK : Nat := 0x1860
def TURN_DECK_LIMIT : Fld := ⟨0x1860, 24, 8⟩
def TURN_DECK_LASTFETCH : Fld := ⟨0x1860, 8, 16⟩
def TURN_DECK_NDECK : Fld := ⟨0x1860, 0, 5⟩
/-- Offset of `TURN_CHECK`. -/
def TURN_CHECK : Nat := 0x1864
def TURN_CHECK_DONE : Fld := ⟨0x1864, 31, 1⟩
def TURN_CHECK_PASS : Fld := ⟨0x1864, 30, 1⟩
def TURN_CHECK_RESULT : Fld := ⟨0x1864, 16, 8⟩
def TURN_CHECK_DETAIL : Fld := ⟨0x1864, 0, 16⟩
/-- Offset of `TURN_WHATIF`. -/
def TURN_WHATIF : Nat := 0x1868
def TURN_WHATIF_EN : Fld := ⟨0x1868, 31, 1⟩
def TURN_WHATIF_K : Fld := ⟨0x1868, 26, 5⟩
def TURN_WHATIF_WIDTH : Fld := ⟨0x1868, 21, 5⟩
def TURN_WHATIF_MODE : Fld := ⟨0x1868, 19, 2⟩
/-- Offset of `TURN_WINPAGE`. -/
def TURN_WINPAGE : Nat := 0x186C
def TURN_WINPAGE_PAGE : Fld := ⟨0x186C, 0, 5⟩
/-- Offset of `TURN_DIR_TX`. -/
def TURN_DIR_TX (c : Nat) : Nat := 0x1900 + 0x8 * c
def TURN_DIR_TX_VALID (c : Nat) : Fld := ⟨0x1900 + 0x8 * c, 31, 1⟩
def TURN_DIR_TX_DECK (c : Nat) : Fld := ⟨0x1900 + 0x8 * c, 30, 1⟩
def TURN_DIR_TX_START (c : Nat) : Fld := ⟨0x1900 + 0x8 * c, 0, 18⟩
/-- Offset of `MOV_CTRL`. -/
def MOV_CTRL : Nat := 0x2000
def MOV_CTRL_RSPTO : Fld := ⟨0x2000, 16, 16⟩
def MOV_CTRL_POLL : Fld := ⟨0x2000, 8, 8⟩
def MOV_CTRL_TRACE : Fld := ⟨0x2000, 2, 1⟩
def MOV_CTRL_PAUSE : Fld := ⟨0x2000, 1, 1⟩
def MOV_CTRL_EN : Fld := ⟨0x2000, 0, 1⟩
/-- Offset of `MOV_TAGS`. -/
def MOV_TAGS : Nat := 0x2004
def MOV_TAGS_BASE : Fld := ⟨0x2004, 16, 15⟩
def MOV_TAGS_LOG2 : Fld := ⟨0x2004, 0, 4⟩
/-- Offset of `MOV_SYS`. -/
def MOV_SYS : Nat := 0x2008
def MOV_SYS_VI : Fld := ⟨0x2008, 24, 8⟩
/-- Offset of `MOV_STATUS`. -/
def MOV_STATUS : Nat := 0x200C
def MOV_STATUS_DFETCH : Fld := ⟨0x200C, 8, 5⟩
def MOV_STATUS_TAGBAD : Fld := ⟨0x200C, 7, 1⟩
def MOV_STATUS_BUSY : Fld := ⟨0x200C, 0, 4⟩
/-- Offset of `MOV_ENG`. -/
def MOV_ENG (m : Nat) : Nat := 0x2010 + 0x4 * m
def MOV_ENG_ACTIVE (m : Nat) : Fld := ⟨0x2010 + 0x4 * m, 31, 1⟩
def MOV_ENG_RING (m : Nat) : Fld := ⟨0x2010 + 0x4 * m, 24, 6⟩
def MOV_ENG_OUTST (m : Nat) : Fld := ⟨0x2010 + 0x4 * m, 0, 11⟩
/-- Offset of `MOV_RING_CFG`. -/
def MOV_RING_CFG (n : Nat) : Nat := 0x2408 + 0x20 * n
def MOV_RING_CFG_EN (n : Nat) : Fld := ⟨0x2408 + 0x20 * n, 31, 1⟩
def MOV_RING_CFG_BOUND (n : Nat) : Fld := ⟨0x2408 + 0x20 * n, 30, 1⟩
def MOV_RING_CFG_STOPERR (n : Nat) : Fld := ⟨0x2408 + 0x20 * n, 29, 1⟩
def MOV_RING_CFG_STOPPED (n : Nat) : Fld := ⟨0x2408 + 0x20 * n, 28, 1⟩
def MOV_RING_CFG_VI (n : Nat) : Fld := ⟨0x2408 + 0x20 * n, 16, 8⟩
def MOV_RING_CFG_LOG2SIZE (n : Nat) : Fld := ⟨0x2408 + 0x20 * n, 12, 4⟩
/-- Offset of `MOV_RING_IRQ`. -/
def MOV_RING_IRQ (n : Nat) : Nat := 0x2418 + 0x20 * n
def MOV_RING_IRQ_VECTOR (n : Nat) : Fld := ⟨0x2418 + 0x20 * n, 16, 16⟩
def MOV_RING_IRQ_HOST (n : Nat) : Fld := ⟨0x2418 + 0x20 * n, 0, 3⟩
/-- Offset of `MOV_RING_ERR`. -/
def MOV_RING_ERR (n : Nat) : Nat := 0x241C + 0x20 * n
def MOV_RING_ERR_CODE (n : Nat) : Fld := ⟨0x241C + 0x20 * n, 24, 8⟩
def MOV_RING_ERR_INDEX (n : Nat) : Fld := ⟨0x241C + 0x20 * n, 0, 16⟩
/-- Offset of `MOV_SWIN_CFG`. -/
def MOV_SWIN_CFG (w : Nat) : Nat := 0x2C08 + 0x20 * w
def MOV_SWIN_CFG_EN (w : Nat) : Fld := ⟨0x2C08 + 0x20 * w, 31, 1⟩
def MOV_SWIN_CFG_DIR (w : Nat) : Fld := ⟨0x2C08 + 0x20 * w, 30, 1⟩
def MOV_SWIN_CFG_SCOPE (w : Nat) : Fld := ⟨0x2C08 + 0x20 * w, 28, 2⟩
def MOV_SWIN_CFG_LOG2SIZE (w : Nat) : Fld := ⟨0x2C08 + 0x20 * w, 0, 5⟩
/-- Offset of `FOLD_CTRL`. -/
def FOLD_CTRL : Nat := 0x3000
def FOLD_CTRL_JOBPAUSE : Fld := ⟨0x3000, 0, 1⟩
/-- Offset of `FOLD_STATUS`. -/
def FOLD_STATUS : Nat := 0x3004
def FOLD_STATUS_SEGFREE : Fld := ⟨0x3004, 8, 6⟩
def FOLD_STATUS_JOBBUSY : Fld := ⟨0x3004, 0, 8⟩
/-- Offset of `FOLD_FLAGS`. -/
def FOLD_FLAGS : Nat := 0x3008
def FOLD_FLAGS_FLAGS : Fld := ⟨0x3008, 0, 6⟩
/-- Offset of `FOLD_CTX_CFG`. -/
def FOLD_CTX_CFG (c : Nat) : Nat := 0x3100 + 0x20 * c
def FOLD_CTX_CFG_EN (c : Nat) : Fld := ⟨0x3100 + 0x20 * c, 31, 1⟩
def FOLD_CTX_CFG_OP (c : Nat) : Fld := ⟨0x3100 + 0x20 * c, 26, 4⟩
def FOLD_CTX_CFG_IFMT (c : Nat) : Fld := ⟨0x3100 + 0x20 * c, 21, 5⟩
def FOLD_CTX_CFG_OFMT (c : Nat) : Fld := ⟨0x3100 + 0x20 * c, 16, 5⟩
def FOLD_CTX_CFG_SAT (c : Nat) : Fld := ⟨0x3100 + 0x20 * c, 15, 1⟩
def FOLD_CTX_CFG_SR (c : Nat) : Fld := ⟨0x3100 + 0x20 * c, 14, 1⟩
def FOLD_CTX_CFG_SEGS (c : Nat) : Fld := ⟨0x3100 + 0x20 * c, 8, 6⟩
def FOLD_CTX_CFG_VI (c : Nat) : Fld := ⟨0x3100 + 0x20 * c, 0, 8⟩
/-- Offset of `FOLD_CTX_SRC`. -/
def FOLD_CTX_SRC (c : Nat) : Nat := 0x3104 + 0x20 * c
def FOLD_CTX_SRC_INSRC (c : Nat) : Fld := ⟨0x3104 + 0x20 * c, 30, 2⟩
def FOLD_CTX_SRC_INSEL (c : Nat) : Fld := ⟨0x3104 + 0x20 * c, 18, 12⟩
def FOLD_CTX_SRC_OPSRC (c : Nat) : Fld := ⟨0x3104 + 0x20 * c, 16, 2⟩
def FOLD_CTX_SRC_OPSEL (c : Nat) : Fld := ⟨0x3104 + 0x20 * c, 4, 12⟩
/-- Offset of `FOLD_CTX_DST`. -/
def FOLD_CTX_DST (c : Nat) : Nat := 0x3108 + 0x20 * c
def FOLD_CTX_DST_OUTDST (c : Nat) : Fld := ⟨0x3108 + 0x20 * c, 30, 2⟩
def FOLD_CTX_DST_OUTSEL (c : Nat) : Fld := ⟨0x3108 + 0x20 * c, 18, 12⟩
/-- Offset of `FOLD_CTX_COUNT`. -/
def FOLD_CTX_COUNT (c : Nat) : Nat := 0x310C + 0x20 * c
def FOLD_CTX_COUNT_COUNT (c : Nat) : Fld := ⟨0x310C + 0x20 * c, 0, 28⟩
/-- Offset of `FOLD_CTX_ANCHOR`. -/
def FOLD_CTX_ANCHOR (c : Nat) : Nat := 0x3110 + 0x20 * c
def FOLD_CTX_ANCHOR_ASRC (c : Nat) : Fld := ⟨0x3110 + 0x20 * c, 31, 1⟩
def FOLD_CTX_ANCHOR_AWIN (c : Nat) : Fld := ⟨0x3110 + 0x20 * c, 16, 5⟩
def FOLD_CTX_ANCHOR_A (c : Nat) : Fld := ⟨0x3110 + 0x20 * c, 0, 16⟩
/-- Offset of `FOLD_CTX_STATUS`. -/
def FOLD_CTX_STATUS (c : Nat) : Nat := 0x311C + 0x20 * c
def FOLD_CTX_STATUS_OK (c : Nat) : Fld := ⟨0x311C + 0x20 * c, 31, 1⟩
def FOLD_CTX_STATUS_WHY (c : Nat) : Fld := ⟨0x311C + 0x20 * c, 24, 3⟩
def FOLD_CTX_STATUS_FLAGS (c : Nat) : Fld := ⟨0x311C + 0x20 * c, 0, 6⟩
/-- Offset of `FOLD_XJ_COUNT`. -/
def FOLD_XJ_COUNT (j : Nat) : Nat := 0x3510 + 0x20 * j
def FOLD_XJ_COUNT_COUNT (j : Nat) : Fld := ⟨0x3510 + 0x20 * j, 0, 28⟩
/-- Offset of `FOLD_XJ_CFG`. -/
def FOLD_XJ_CFG (j : Nat) : Nat := 0x3514 + 0x20 * j
def FOLD_XJ_CFG_GO (j : Nat) : Fld := ⟨0x3514 + 0x20 * j, 31, 1⟩
def FOLD_XJ_CFG_IFMT (j : Nat) : Fld := ⟨0x3514 + 0x20 * j, 25, 5⟩
def FOLD_XJ_CFG_OFMT (j : Nat) : Fld := ⟨0x3514 + 0x20 * j, 20, 5⟩
def FOLD_XJ_CFG_SAT (j : Nat) : Fld := ⟨0x3514 + 0x20 * j, 19, 1⟩
def FOLD_XJ_CFG_SR (j : Nat) : Fld := ⟨0x3514 + 0x20 * j, 18, 1⟩
def FOLD_XJ_CFG_IRQ (j : Nat) : Fld := ⟨0x3514 + 0x20 * j, 17, 1⟩
def FOLD_XJ_CFG_RING (j : Nat) : Fld := ⟨0x3514 + 0x20 * j, 11, 6⟩
/-- Offset of `FOLD_XJ_STATUS`. -/
def FOLD_XJ_STATUS (j : Nat) : Nat := 0x351C + 0x20 * j
def FOLD_XJ_STATUS_DONE (j : Nat) : Fld := ⟨0x351C + 0x20 * j, 31, 1⟩
def FOLD_XJ_STATUS_CODE (j : Nat) : Fld := ⟨0x351C + 0x20 * j, 16, 8⟩
def FOLD_XJ_STATUS_FLAGS (j : Nat) : Fld := ⟨0x351C + 0x20 * j, 0, 6⟩
/-- Offset of `VI_ENT`. -/
def VI_ENT (v : Nat) : Nat := 0x3800 + 0x8 * v
def VI_ENT_STATE (v : Nat) : Fld := ⟨0x3800 + 0x8 * v, 30, 2⟩
def VI_ENT_HOST (v : Nat) : Fld := ⟨0x3800 + 0x8 * v, 27, 3⟩
def VI_ENT_GUEST (v : Nat) : Fld := ⟨0x3800 + 0x8 * v, 26, 1⟩
def VI_ENT_GEN (v : Nat) : Fld := ⟨0x3800 + 0x8 * v, 16, 10⟩
def VI_ENT_SHARE_PEND (v : Nat) : Fld := ⟨0x3800 + 0x8 * v, 15, 1⟩
def VI_ENT_E8 (v : Nat) : Fld := ⟨0x3800 + 0x8 * v, 0, 8⟩
/-- Offset of `VI_SHR`. -/
def VI_SHR (v : Nat) : Nat := 0x3804 + 0x8 * v
def VI_SHR_SHARE (v : Nat) : Fld := ⟨0x3804 + 0x8 * v, 24, 8⟩
def VI_SHR_SHARE_NEXT (v : Nat) : Fld := ⟨0x3804 + 0x8 * v, 16, 8⟩
def VI_SHR_SBASE4 (v : Nat) : Fld := ⟨0x3804 + 0x8 * v, 8, 8⟩
def VI_SHR_SCNT4 (v : Nat) : Fld := ⟨0x3804 + 0x8 * v, 0, 8⟩
/-- Offset of `FW_CTRL`. -/
def FW_CTRL : Nat := 0x7000
def FW_CTRL_QUAR : Fld := ⟨0x7000, 31, 1⟩
def FW_CTRL_QCLEAR : Fld := ⟨0x7000, 30, 1⟩
def FW_CTRL_DBG_UNLOCK : Fld := ⟨0x7000, 29, 1⟩
def FW_CTRL_QLIMIT : Fld := ⟨0x7000, 0, 16⟩
/-- Offset of `FW_CHAN`. -/
def FW_CHAN : Nat := 0x7004
def FW_CHAN_ALLOW : Fld := ⟨0x7004, 0, 6⟩
/-- Offset of `FW_VIOL`. -/
def FW_VIOL : Nat := 0x7008
def FW_VIOL_COUNT : Fld := ⟨0x7008, 0, 32⟩
/-- Offset of `FW_LAST`. -/
def FW_LAST : Nat := 0x700C
def FW_LAST_REASON : Fld := ⟨0x700C, 28, 4⟩
def FW_LAST_CHAN : Fld := ⟨0x700C, 24, 4⟩
def FW_LAST_OP : Fld := ⟨0x700C, 18, 6⟩
/-- Offset of `FW_GUESTVI`. -/
def FW_GUESTVI (n : Nat) : Nat := 0x7020 + 0x4 * n
def FW_GUESTVI_VIS (n : Nat) : Fld := ⟨0x7020 + 0x4 * n, 0, 32⟩
/-- Offset of `FW_WIN_SEL`. -/
def FW_WIN_SEL : Nat := 0x7040
def FW_WIN_SEL_COMMIT : Fld := ⟨0x7040, 31, 1⟩
def FW_WIN_SEL_READ : Fld := ⟨0x7040, 30, 1⟩
def FW_WIN_SEL_INDEX : Fld := ⟨0x7040, 0, 12⟩
/-- Offset of `FW_RATE`. -/
def FW_RATE (c : Nat) : Nat := 0x7080 + 0x4 * c
def FW_RATE_RATE (c : Nat) : Fld := ⟨0x7080 + 0x4 * c, 16, 16⟩
def FW_RATE_BURST (c : Nat) : Fld := ⟨0x7080 + 0x4 * c, 0, 16⟩
/-- Offset of `FW_IRQMAP`. -/
def FW_IRQMAP (v : Nat) : Nat := 0x7400 + 0x4 * v
def FW_IRQMAP_VALID (v : Nat) : Fld := ⟨0x7400 + 0x4 * v, 31, 1⟩
def FW_IRQMAP_HOST (v : Nat) : Fld := ⟨0x7400 + 0x4 * v, 16, 3⟩
def FW_IRQMAP_VECTOR (v : Nat) : Fld := ⟨0x7400 + 0x4 * v, 0, 16⟩
/-- Offset of `ISL_STATUS`. -/
def ISL_STATUS : Nat := 0x4000
def ISL_STATUS_LCORE_OK : Fld := ⟨0x4000, 31, 1⟩
def ISL_STATUS_ARITH_OK : Fld := ⟨0x4000, 30, 1⟩
def ISL_STATUS_CORE_OK : Fld := ⟨0x4000, 29, 1⟩
def ISL_STATUS_LOSTEV : Fld := ⟨0x4000, 28, 1⟩
def ISL_STATUS_LANE_LOCK : Fld := ⟨0x4000, 0, 19⟩
/-- Offset of `ISL_CTRL`. -/
def ISL_CTRL : Nat := 0x4004
def ISL_CTRL_ARST : Fld := ⟨0x4004, 1, 1⟩
def ISL_CTRL_HOLD_EN : Fld := ⟨0x4004, 0, 1⟩
/-- Offset of `ISL_HOLD`. -/
def ISL_HOLD : Nat := 0x4008
def ISL_HOLD_SILENCE : Fld := ⟨0x4008, 24, 8⟩
def ISL_HOLD_HOLDTIME : Fld := ⟨0x4008, 0, 16⟩
/-- Offset of `ISL_HOLD_STAT`. -/
def ISL_HOLD_STAT : Nat := 0x400C
def ISL_HOLD_STAT_HOLDING : Fld := ⟨0x400C, 31, 1⟩
def ISL_HOLD_STAT_RESUMED : Fld := ⟨0x400C, 30, 1⟩
def ISL_HOLD_STAT_CAUSE : Fld := ⟨0x400C, 24, 4⟩
def ISL_HOLD_STAT_ELAPSED : Fld := ⟨0x400C, 0, 16⟩
/-- Offset of `ISL_PEERDIE`. -/
def ISL_PEERDIE : Nat := 0x4020
def ISL_PEERDIE_WARN : Fld := ⟨0x4020, 2, 1⟩
def ISL_PEERDIE_CLKOK : Fld := ⟨0x4020, 1, 1⟩
def ISL_PEERDIE_RST : Fld := ⟨0x4020, 0, 1⟩
/-- Offset of `ISL_XING`. -/
def ISL_XING : Nat := 0x4024
def ISL_XING_STOPPED : Fld := ⟨0x4024, 8, 6⟩
def ISL_XING_RESYNC : Fld := ⟨0x4024, 0, 6⟩
/-- Offset of `AGE_CTRL`. -/
def AGE_CTRL : Nat := 0x4800
def AGE_CTRL_CKPTNOW : Fld := ⟨0x4800, 5, 1⟩
def AGE_CTRL_EPOCHNOW : Fld := ⟨0x4800, 4, 1⟩
def AGE_CTRL_TRIM : Fld := ⟨0x4800, 3, 1⟩
def AGE_CTRL_EQREPLAN : Fld := ⟨0x4800, 2, 1⟩
def AGE_CTRL_PREDICT : Fld := ⟨0x4800, 1, 1⟩
def AGE_CTRL_EN : Fld := ⟨0x4800, 0, 1⟩
/-- Offset of `AGE_PERIOD`. -/
def AGE_PERIOD : Nat := 0x4804
def AGE_PERIOD_EPOCH : Fld := ⟨0x4804, 16, 16⟩
def AGE_PERIOD_CKPT : Fld := ⟨0x4804, 0, 16⟩
/-- Offset of `AGE_FLOOR`. -/
def AGE_FLOOR : Nat := 0x4808
def AGE_FLOOR_EYEMIN : Fld := ⟨0x4808, 24, 8⟩
def AGE_FLOOR_HORIZON : Fld := ⟨0x4808, 16, 8⟩
def AGE_FLOOR_CSRLOG : Fld := ⟨0x4808, 11, 5⟩
def AGE_FLOOR_CSRHARD : Fld := ⟨0x4808, 6, 5⟩
def AGE_FLOOR_CSRRUN : Fld := ⟨0x4808, 3, 3⟩
/-- Offset of `AGE_STATUS`. -/
def AGE_STATUS : Nat := 0x480C
def AGE_STATUS_ACTIVE : Fld := ⟨0x480C, 31, 1⟩
def AGE_STATUS_BEHIND : Fld := ⟨0x480C, 30, 1⟩
def AGE_STATUS_LEFT : Fld := ⟨0x480C, 16, 8⟩
def AGE_STATUS_EPOCHS : Fld := ⟨0x480C, 0, 16⟩
/-- Offset of `AGE_TEMP`. -/
def AGE_TEMP : Nat := 0x4810
def AGE_TEMP_MAXTEMP : Fld := ⟨0x4810, 16, 16⟩
def AGE_TEMP_TEMP : Fld := ⟨0x4810, 0, 16⟩
/-- Offset of `AGE_LQ`. -/
def AGE_LQ : Nat := 0x4814
def AGE_LQ_FULL : Fld := ⟨0x4814, 31, 1⟩
def AGE_LQ_EVQ : Fld := ⟨0x4814, 16, 12⟩
def AGE_LQ_CKQ : Fld := ⟨0x4814, 0, 12⟩
/-- Offset of `AGE_LANE_STAT`. -/
def AGE_LANE_STAT (i : Nat) : Nat := 0x4900 + 0x20 * i
def AGE_LANE_STAT_VERDICT (i : Nat) : Fld := ⟨0x4900 + 0x20 * i, 28, 4⟩
def AGE_LANE_STAT_WHY (i : Nat) : Fld := ⟨0x4900 + 0x20 * i, 24, 4⟩
def AGE_LANE_STAT_RETURNS (i : Nat) : Fld := ⟨0x4900 + 0x20 * i, 22, 2⟩
def AGE_LANE_STAT_RUN (i : Nat) : Fld := ⟨0x4900 + 0x20 * i, 19, 3⟩
def AGE_LANE_STAT_EYE (i : Nat) : Fld := ⟨0x4900 + 0x20 * i, 0, 16⟩
/-- Offset of `AGE_LANE_HIST`. -/
def AGE_LANE_HIST (i : Nat) (n : Nat) : Nat := 0x4908 + 0x20 * i + 0x4 * n
def AGE_LANE_HIST_HODD (i : Nat) (n : Nat) : Fld := ⟨0x4908 + 0x20 * i + 0x4 * n, 16, 16⟩
def AGE_LANE_HIST_HEVEN (i : Nat) (n : Nat) : Fld := ⟨0x4908 + 0x20 * i + 0x4 * n, 0, 16⟩
/-- Offset of `AGE_LANE_TREND`. -/
def AGE_LANE_TREND (i : Nat) : Nat := 0x4918 + 0x20 * i
def AGE_LANE_TREND_SLOPE (i : Nat) : Fld := ⟨0x4918 + 0x20 * i, 16, 16⟩
def AGE_LANE_TREND_NHIST (i : Nat) : Fld := ⟨0x4918 + 0x20 * i, 0, 4⟩
/-- Offset of `AGE_LANE_EQ`. -/
def AGE_LANE_EQ (i : Nat) : Nat := 0x491C + 0x20 * i
def AGE_LANE_EQ_EYE0 (i : Nat) : Fld := ⟨0x491C + 0x20 * i, 16, 16⟩
/-- Offset of `START_CTRL`. -/
def START_CTRL : Nat := 0x6000
def START_CTRL_SERVICE : Fld := ⟨0x6000, 2, 1⟩
def START_CTRL_MFGDONE : Fld := ⟨0x6000, 1, 1⟩
def START_CTRL_DETECT : Fld := ⟨0x6000, 0, 1⟩
/-- Offset of `START_STATUS`. -/
def START_STATUS : Nat := 0x6004
def START_STATUS_STAGE : Fld := ⟨0x6004, 28, 4⟩
def START_STATUS_RESULT : Fld := ⟨0x6004, 24, 4⟩
def START_STATUS_FCODE : Fld := ⟨0x6004, 16, 8⟩
def START_STATUS_VIOK : Fld := ⟨0x6004, 15, 1⟩
def START_STATUS_RETIRED : Fld := ⟨0x6004, 14, 1⟩
def START_STATUS_SBABSENT : Fld := ⟨0x6004, 13, 1⟩
def START_STATUS_UNSYNCED : Fld := ⟨0x6004, 12, 1⟩
def START_STATUS_PATH : Fld := ⟨0x6004, 8, 4⟩
def START_STATUS_OVR : Fld := ⟨0x6004, 7, 1⟩
/-- Offset of `START_MEM`. -/
def START_MEM : Nat := 0x6008
def START_MEM_LASTFAIL : Fld := ⟨0x6008, 28, 4⟩
def START_MEM_RUN : Fld := ⟨0x6008, 26, 2⟩
def START_MEM_RETIRED : Fld := ⟨0x6008, 25, 1⟩
def START_MEM_LANES : Fld := ⟨0x6008, 0, 18⟩
/-- Offset of `START_LIMIT`. -/
def START_LIMIT : Nat := 0x6010
def START_LIMIT_T8WAIT : Fld := ⟨0x6010, 24, 8⟩
/-- Offset of `START_T4FAIL`. -/
def START_T4FAIL : Nat := 0x6014
def START_T4FAIL_LANES : Fld := ⟨0x6014, 0, 18⟩
/-- Offset of `LME_CTRL`. -/
def LME_CTRL : Nat := 0x6020
def LME_CTRL_START : Fld := ⟨0x6020, 1, 1⟩
def LME_CTRL_LOAD : Fld := ⟨0x6020, 0, 1⟩
/-- Offset of `LME_STATUS`. -/
def LME_STATUS : Nat := 0x6028
def LME_STATUS_RUNNING : Fld := ⟨0x6028, 31, 1⟩
def LME_STATUS_IMGOK : Fld := ⟨0x6028, 30, 1⟩
def LME_STATUS_UPDATING : Fld := ⟨0x6028, 29, 1⟩
def LME_STATUS_CHECK : Fld := ⟨0x6028, 16, 8⟩
def LME_STATUS_VERSION : Fld := ⟨0x6028, 0, 16⟩
/-- Offset of `LME_PTR`. -/
def LME_PTR : Nat := 0x6030
def LME_PTR_PTR : Fld := ⟨0x6030, 0, 17⟩
/-- Offset of `START_LANEMEM`. -/
def START_LANEMEM (i : Nat) : Nat := 0x6040 + 0x4 * i
def START_LANEMEM_VERDICT (i : Nat) : Fld := ⟨0x6040 + 0x4 * i, 28, 4⟩
def START_LANEMEM_RETURNS (i : Nat) : Fld := ⟨0x6040 + 0x4 * i, 26, 2⟩
/-- Offset of `MBX_CTRL`. -/
def MBX_CTRL : Nat := 0x6300
def MBX_CTRL_SEND : Fld := ⟨0x6300, 1, 1⟩
def MBX_CTRL_NEXT : Fld := ⟨0x6300, 0, 1⟩
/-- Offset of `MBX_STATUS`. -/
def MBX_STATUS : Nat := 0x6304
def MBX_STATUS_CMDFULL : Fld := ⟨0x6304, 31, 1⟩
def MBX_STATUS_RPLVALID : Fld := ⟨0x6304, 30, 1⟩
def MBX_STATUS_QUEUED : Fld := ⟨0x6304, 0, 5⟩
/-- Offset of `MBX_CMD`. -/
def MBX_CMD (w : Nat) : Nat := 0x6400 + 0x4 * w
def MBX_CMD_WORD (w : Nat) : Fld := ⟨0x6400 + 0x4 * w, 0, 32⟩
/-- Offset of `MBX_RPL`. -/
def MBX_RPL (w : Nat) : Nat := 0x6800 + 0x4 * w
def MBX_RPL_WORD (w : Nat) : Fld := ⟨0x6800 + 0x4 * w, 0, 32⟩
/-- Offset of `ID_DIE`. -/
def ID_DIE : Nat := 0x0
def ID_DIE_VENDOR : Fld := ⟨0x0, 16, 16⟩
def ID_DIE_DIECODE : Fld := ⟨0x0, 0, 16⟩
/-- Offset of `ID_VER`. -/
def ID_VER : Nat := 0x4
def ID_VER_AVMAJ : Fld := ⟨0x4, 24, 8⟩
def ID_VER_AVMIN : Fld := ⟨0x4, 16, 8⟩
def ID_VER_STEP : Fld := ⟨0x4, 8, 8⟩
/-- Offset of `ID_PLACE`. -/
def ID_PLACE : Nat := 0x8
def ID_PLACE_KIND : Fld := ⟨0x8, 31, 1⟩
def ID_PLACE_EDGE : Fld := ⟨0x8, 28, 3⟩
def ID_PLACE_K : Fld := ⟨0x8, 25, 3⟩
def ID_PLACE_PORT : Fld := ⟨0x8, 18, 6⟩
def ID_PLACE_DIE : Fld := ⟨0x8, 13, 5⟩
def ID_PLACE_INDEX : Fld := ⟨0x8, 0, 8⟩
/-- Offset of `ID_SEAL`. -/
def ID_SEAL : Nat := 0xC
def ID_SEAL_SEALED : Fld := ⟨0xC, 31, 1⟩
def ID_SEAL_DROPS : Fld := ⟨0xC, 0, 16⟩
/-- Offset of `ID_POD`. -/
def ID_POD : Nat := 0x10
def ID_POD_POD : Fld := ⟨0x10, 0, 9⟩
/-- Offset of `ID_TWIN`. -/
def ID_TWIN : Nat := 0x14
def ID_TWIN_TWINLESS : Fld := ⟨0x14, 31, 1⟩
def ID_TWIN_PEERPOD_VALID : Fld := ⟨0x14, 30, 1⟩
def ID_TWIN_PEERPOD : Fld := ⟨0x14, 16, 9⟩
def ID_TWIN_PEERPORT : Fld := ⟨0x14, 8, 6⟩
def ID_TWIN_TWIN : Fld := ⟨0x14, 0, 8⟩
/-- Offset of `ID_CAPS`. -/
def ID_CAPS : Nat := 0x18
def ID_CAPS_FW : Fld := ⟨0x18, 31, 1⟩
def ID_CAPS_SB : Fld := ⟨0x18, 30, 1⟩
def ID_CAPS_DLANES : Fld := ⟨0x18, 16, 8⟩
def ID_CAPS_SPARES : Fld := ⟨0x18, 12, 4⟩
/-- Offset of `LANE_INFO`. -/
def LANE_INFO (i : Nat) : Nat := 0x800 + 0x40 * i
def LANE_INFO_PRESENT (i : Nat) : Fld := ⟨0x800 + 0x40 * i, 10, 1⟩
def LANE_INFO_ISSB (i : Nat) : Fld := ⟨0x800 + 0x40 * i, 9, 1⟩
def LANE_INFO_ISSPARE (i : Nat) : Fld := ⟨0x800 + 0x40 * i, 8, 1⟩
def LANE_INFO_PHYS (i : Nat) : Fld := ⟨0x800 + 0x40 * i, 0, 5⟩
/-- Offset of `LANE_TXEQ`. -/
def LANE_TXEQ (i : Nat) : Nat := 0x808 + 0x40 * i
def LANE_TXEQ_MAIN (i : Nat) : Fld := ⟨0x808 + 0x40 * i, 24, 7⟩
def LANE_TXEQ_SWING (i : Nat) : Fld := ⟨0x808 + 0x40 * i, 20, 4⟩
def LANE_TXEQ_PRE2 (i : Nat) : Fld := ⟨0x808 + 0x40 * i, 16, 3⟩
def LANE_TXEQ_PRE1 (i : Nat) : Fld := ⟨0x808 + 0x40 * i, 8, 5⟩
def LANE_TXEQ_POST1 (i : Nat) : Fld := ⟨0x808 + 0x40 * i, 0, 5⟩
/-- Offset of `LANE_RXEQ`. -/
def LANE_RXEQ (i : Nat) : Nat := 0x80C + 0x40 * i
def LANE_RXEQ_ADAPT (i : Nat) : Fld := ⟨0x80C + 0x40 * i, 31, 1⟩
def LANE_RXEQ_RXEQ_PEND (i : Nat) : Fld := ⟨0x80C + 0x40 * i, 30, 1⟩
def LANE_RXEQ_VGA (i : Nat) : Fld := ⟨0x80C + 0x40 * i, 8, 5⟩
def LANE_RXEQ_CTLE (i : Nat) : Fld := ⟨0x80C + 0x40 * i, 0, 4⟩
/-- Offset of `LANE_SNR`. -/
def LANE_SNR (i : Nat) : Nat := 0x810 + 0x40 * i
def LANE_SNR_VALID (i : Nat) : Fld := ⟨0x810 + 0x40 * i, 31, 1⟩
def LANE_SNR_SNR (i : Nat) : Fld := ⟨0x810 + 0x40 * i, 0, 16⟩
/-- Offset of `LANE_EYE`. -/
def LANE_EYE (i : Nat) : Nat := 0x814 + 0x40 * i
def LANE_EYE_VALID (i : Nat) : Fld := ⟨0x814 + 0x40 * i, 31, 1⟩
def LANE_EYE_WHICH (i : Nat) : Fld := ⟨0x814 + 0x40 * i, 28, 2⟩
def LANE_EYE_WIDTH (i : Nat) : Fld := ⟨0x814 + 0x40 * i, 16, 7⟩
def LANE_EYE_HEIGHT (i : Nat) : Fld := ⟨0x814 + 0x40 * i, 0, 16⟩
/-- Offset of `LANE_PAT`. -/
def LANE_PAT (i : Nat) : Nat := 0x818 + 0x40 * i
def LANE_PAT_RUN (i : Nat) : Fld := ⟨0x818 + 0x40 * i, 31, 1⟩
def LANE_PAT_START (i : Nat) : Fld := ⟨0x818 + 0x40 * i, 30, 1⟩
def LANE_PAT_STOP (i : Nat) : Fld := ⟨0x818 + 0x40 * i, 29, 1⟩
def LANE_PAT_LOCK (i : Nat) : Fld := ⟨0x818 + 0x40 * i, 28, 1⟩
def LANE_PAT_PATTERN (i : Nat) : Fld := ⟨0x818 + 0x40 * i, 0, 2⟩
/-- Offset of `EVT_CTRL`. -/
def EVT_CTRL : Nat := 0x5400
def EVT_CTRL_DEGR_EN : Fld := ⟨0x5400, 1, 1⟩
def EVT_CTRL_CORR_EN : Fld := ⟨0x5400, 0, 1⟩
/-- Offset of `EVT_STATUS`. -/
def EVT_STATUS : Nat := 0x5404
def EVT_STATUS_SEEN : Fld := ⟨0x5404, 24, 3⟩
def EVT_STATUS_LOST : Fld := ⟨0x5404, 7, 1⟩
def EVT_STATUS_QUEUED : Fld := ⟨0x5404, 0, 6⟩
/-- Offset of `EVT_LAST`. -/
def EVT_LAST : Nat := 0x5408
def EVT_LAST_CLASS : Fld := ⟨0x5408, 30, 2⟩
def EVT_LAST_CODE : Fld := ⟨0x5408, 0, 16⟩
/-- Offset of `EVT_DETAIL`. -/
def EVT_DETAIL : Nat := 0x540C
def EVT_DETAIL_CORESIDE : Fld := ⟨0x540C, 31, 1⟩
def EVT_DETAIL_DETAIL : Fld := ⟨0x540C, 0, 16⟩
/-- Offset of `TRACE_CTRL`. -/
def TRACE_CTRL : Nat := 0x5420
def TRACE_CTRL_LATE : Fld := ⟨0x5420, 5, 1⟩
def TRACE_CTRL_REPLAY : Fld := ⟨0x5420, 4, 1⟩
def TRACE_CTRL_LINK : Fld := ⟨0x5420, 3, 1⟩
def TRACE_CTRL_EVENT : Fld := ⟨0x5420, 0, 1⟩
/-- Offset of `TRACE_SEQ`. -/
def TRACE_SEQ : Nat := 0x5424
def TRACE_SEQ_QUEUED : Fld := ⟨0x5424, 16, 5⟩
def TRACE_SEQ_SEQ : Fld := ⟨0x5424, 0, 16⟩
/-- Offset of `HIST_PAGE`. -/
def HIST_PAGE : Nat := 0x5440
def HIST_PAGE_PAGE : Fld := ⟨0x5440, 0, 2⟩
/-- Offset of `TURN_DIR_RX`. -/
def TURN_DIR_RX (c : Nat) : Nat := 0x1904 + 0x8 * c
def TURN_DIR_RX_VALID (c : Nat) : Fld := ⟨0x1904 + 0x8 * c, 31, 1⟩
def TURN_DIR_RX_DECK (c : Nat) : Fld := ⟨0x1904 + 0x8 * c, 30, 1⟩
def TURN_DIR_RX_START (c : Nat) : Fld := ⟨0x1904 + 0x8 * c, 0, 18⟩
/-- Offset of `LINK_PEER_EFFG`. -/
def LINK_PEER_EFFG : Nat := 0x424
def LINK_PEER_EFFG_EFFG : Fld := ⟨0x424, 0, 32⟩
/-- Offset of `MOV_RING_HEAD`. -/
def MOV_RING_HEAD (n : Nat) : Nat := 0x240C + 0x20 * n
def MOV_RING_HEAD_HEAD (n : Nat) : Fld := ⟨0x240C + 0x20 * n, 0, 16⟩
/-- Offset of `MOV_RING_TAIL`. -/
def MOV_RING_TAIL (n : Nat) : Nat := 0x2410 + 0x20 * n
def MOV_RING_TAIL_TAIL (n : Nat) : Fld := ⟨0x2410 + 0x20 * n, 0, 16⟩
/-- Offset of `MOV_RING_DONE`. -/
def MOV_RING_DONE (n : Nat) : Nat := 0x2414 + 0x20 * n
def MOV_RING_DONE_DONE (n : Nat) : Fld := ⟨0x2414 + 0x20 * n, 0, 16⟩
/-- Offset of `MOV_SWIN_PROD`. -/
def MOV_SWIN_PROD (w : Nat) : Nat := 0x2C0C + 0x20 * w
def MOV_SWIN_PROD_PROD (w : Nat) : Fld := ⟨0x2C0C + 0x20 * w, 0, 32⟩
/-- Offset of `MOV_SWIN_CONS`. -/
def MOV_SWIN_CONS (w : Nat) : Nat := 0x2C10 + 0x20 * w
def MOV_SWIN_CONS_CONS (w : Nat) : Fld := ⟨0x2C10 + 0x20 * w, 0, 32⟩
/-- Offset of `FOLD_XJ_SEED`. -/
def FOLD_XJ_SEED (j : Nat) : Nat := 0x3518 + 0x20 * j
def FOLD_XJ_SEED_SEED (j : Nat) : Fld := ⟨0x3518 + 0x20 * j, 0, 32⟩
/-- Offset of `LANE_PRBS_ERR`. -/
def LANE_PRBS_ERR (i : Nat) : Nat := 0x81C + 0x40 * i
def LANE_PRBS_ERR_COUNT (i : Nat) : Fld := ⟨0x81C + 0x40 * i, 0, 32⟩
/-- Offset of `LANE_USERPAT`. -/
def LANE_USERPAT (i : Nat) : Nat := 0x828 + 0x40 * i
def LANE_USERPAT_WORD (i : Nat) : Fld := ⟨0x828 + 0x40 * i, 0, 32⟩
/-- Offset of `AGE_LANE_CSR`. -/
def AGE_LANE_CSR (i : Nat) : Nat := 0x4904 + 0x20 * i
def AGE_LANE_CSR_CORR (i : Nat) : Fld := ⟨0x4904 + 0x20 * i, 0, 32⟩
/-- Offset of `LME_LOAD`. -/
def LME_LOAD : Nat := 0x6024
def LME_LOAD_WORD : Fld := ⟨0x6024, 0, 32⟩
/-- Offset of `LME_IMGCRC`. -/
def LME_IMGCRC : Nat := 0x602C
def LME_IMGCRC_CRC : Fld := ⟨0x602C, 0, 32⟩
/-- Offset of `FW_WIN_D`. -/
def FW_WIN_D (k : Nat) : Nat := 0x7044 + 0x4 * k
def FW_WIN_D_WORD (k : Nat) : Fld := ⟨0x7044 + 0x4 * k, 0, 32⟩
/-- Offset of `START_EQ0`. -/
def START_EQ0 (i : Nat) (m : Nat) : Nat := 0x6100 + 0x18 * i + 0x8 * m
def START_EQ0_VALID (i : Nat) (m : Nat) : Fld := ⟨0x6100 + 0x18 * i + 0x8 * m, 31, 1⟩
def START_EQ0_SWING (i : Nat) (m : Nat) : Fld := ⟨0x6100 + 0x18 * i + 0x8 * m, 24, 4⟩
def START_EQ0_PRE2 (i : Nat) (m : Nat) : Fld := ⟨0x6100 + 0x18 * i + 0x8 * m, 16, 3⟩
def START_EQ0_PRE1 (i : Nat) (m : Nat) : Fld := ⟨0x6100 + 0x18 * i + 0x8 * m, 8, 5⟩
def START_EQ0_POST1 (i : Nat) (m : Nat) : Fld := ⟨0x6100 + 0x18 * i + 0x8 * m, 0, 5⟩
/-- Offset of `START_EQ1`. -/
def START_EQ1 (i : Nat) (m : Nat) : Nat := 0x6104 + 0x18 * i + 0x8 * m
def START_EQ1_CTLE (i : Nat) (m : Nat) : Fld := ⟨0x6104 + 0x18 * i + 0x8 * m, 28, 4⟩
def START_EQ1_VGA (i : Nat) (m : Nat) : Fld := ⟨0x6104 + 0x18 * i + 0x8 * m, 16, 5⟩
def START_EQ1_EYE0 (i : Nat) (m : Nat) : Fld := ⟨0x6104 + 0x18 * i + 0x8 * m, 0, 16⟩
/-- 64-bit register `TIME_TICK`. -/
def TIME_TICK : Wide := ⟨0x1808⟩
/-- 64-bit register `TIME_ROUND`. -/
def TIME_ROUND : Wide := ⟨0x1810⟩
/-- 64-bit register `TURN_DECK_BASE`. -/
def TURN_DECK_BASE : Wide := ⟨0x1858⟩
/-- 64-bit register `TURN_START`. -/
def TURN_START : Wide := ⟨0x1870⟩
/-- 64-bit register `TURN_STRETCH_RX`. -/
def TURN_STRETCH_RX : Wide := ⟨0x1878⟩
/-- 64-bit register `MOV_RING_BASE`. -/
def MOV_RING_BASE (n : Nat) : Wide := ⟨0x2400 + 0x20 * n⟩
/-- 64-bit register `MOV_SWIN_BASE`. -/
def MOV_SWIN_BASE (w : Nat) : Wide := ⟨0x2C00 + 0x20 * w⟩
/-- 64-bit register `MOV_SWIN_FLAG`. -/
def MOV_SWIN_FLAG (w : Nat) : Wide := ⟨0x2C18 + 0x20 * w⟩
/-- 64-bit register `FOLD_CTX_SEED`. -/
def FOLD_CTX_SEED (c : Nat) : Wide := ⟨0x3114 + 0x20 * c⟩
/-- 64-bit register `FOLD_XJ_SRC`. -/
def FOLD_XJ_SRC (j : Nat) : Wide := ⟨0x3500 + 0x20 * j⟩
/-- 64-bit register `FOLD_XJ_DST`. -/
def FOLD_XJ_DST (j : Nat) : Wide := ⟨0x3508 + 0x20 * j⟩
/-- 64-bit register `FW_LAST_GA`. -/
def FW_LAST_GA : Wide := ⟨0x7010⟩
/-- 64-bit register `ISL_HOLD_AT`. -/
def ISL_HOLD_AT : Wide := ⟨0x4010⟩
/-- 64-bit register `ISL_VOID_END`. -/
def ISL_VOID_END : Wide := ⟨0x4018⟩
/-- 64-bit register `AGE_NEXT`. -/
def AGE_NEXT : Wide := ⟨0x4818⟩
/-- 64-bit register `EVT_LAST_TICK`. -/
def EVT_LAST_TICK : Wide := ⟨0x5410⟩
/-- 64-bit register `LANE_FECCORR`. -/
def LANE_FECCORR (i : Nat) : Wide := ⟨0x820 + 0x40 * i⟩
/-- Position p of the lane map, `LINK_MAP0`–`LINK_MAP2` (R137). -/
def LINK_MAP_POS (p : Nat) : Fld := ⟨0x410 + 4 * (p / 6), 5 * (p % 6), 5⟩
/-- Outcome of stage Tk in `START_OUT` (R315). -/
def START_OUT_OUT (k : Nat) : Fld := ⟨0x600C, 2 * k, 2⟩
/-- Word w of `LINK_CAP_OWN`, `LINK_CAP_PEER` and `LINK_CAP_USED` (R137). -/
def LINK_CAP_OWN (w : Nat) : Nat := 0x440 + 4 * w
def LINK_CAP_PEER (w : Nat) : Nat := 0x480 + 4 * w
def LINK_CAP_USED (w : Nat) : Nat := 0x4C0 + 4 * w
/-! Counters, R343. -/
def CNT_FEC_HIST (n : Nat) : Cnt := ⟨0x5000 + 8 * n, 48⟩
/-- `CNT_CRSTALL_c` by channel code. -/
def CNT_CRSTALL (c : Nat) : Cnt := ⟨0x5050 + 8 * c, 48⟩
def CNT_FEC_UNCORR : Cnt := ⟨0x5028, 48⟩
def CNT_CRC_FAIL : Cnt := ⟨0x5030, 48⟩
def CNT_OOS : Cnt := ⟨0x5038, 48⟩
def CNT_REPLAY_FLITS : Cnt := ⟨0x5040, 48⟩
def CNT_BANK_FULL : Cnt := ⟨0x5048, 48⟩
def CNT_LATE : Cnt := ⟨0x5080, 48⟩
def CNT_STR_STARVE : Cnt := ⟨0x5088, 48⟩
def CNT_STR_DROP : Cnt := ⟨0x5090, 48⟩
def CNT_MOV_DESC : Cnt := ⟨0x5098, 48⟩
def CNT_MOV_BYTES : Cnt := ⟨0x50A0, 48⟩
def CNT_MOV_FETCH_STALL : Cnt := ⟨0x50A8, 48⟩
def CNT_MOV_TAG_STALL : Cnt := ⟨0x50B0, 48⟩
def CNT_MOV_WAIT_READ : Cnt := ⟨0x50B8, 48⟩
def CNT_FOLD_ELEMS : Cnt := ⟨0x50C0, 48⟩
def CNT_FOLD_BUSY : Cnt := ⟨0x50C8, 48⟩
def CNT_FOLD_OPWAIT : Cnt := ⟨0x50D0, 48⟩
def CNT_XJ_WAIT : Cnt := ⟨0x50D8, 48⟩
def CNT_VI_STALE : Cnt := ⟨0x50E0, 48⟩
def CNT_FW_QDROP : Cnt := ⟨0x50E8, 48⟩
def CNT_FW_PACE : Cnt := ⟨0x50F0, 48⟩
def CNT_HOLD_VOID : Cnt := ⟨0x50F8, 48⟩
def CNT_SB_BAD : Cnt := ⟨0x5100, 32⟩
def CNT_FEC_MISCORR : Cnt := ⟨0x5104, 32⟩
def CNT_SWEEP_LOST : Cnt := ⟨0x5108, 16⟩
def CNT_HDR_BAD : Cnt := ⟨0x510C, 32⟩
def CNT_FRAME_ERR : Cnt := ⟨0x5110, 32⟩
def CNT_MSG_BAD : Cnt := ⟨0x5114, 32⟩
def CNT_FENCE_WAIT : Cnt := ⟨0x5118, 32⟩
def CNT_DUP : Cnt := ⟨0x511C, 32⟩
def CNT_ACK_BAD : Cnt := ⟨0x5120, 32⟩
def CNT_REPLAY : Cnt := ⟨0x5124, 32⟩
def CNT_ACK_TO : Cnt := ⟨0x5128, 32⟩
def CNT_NEAR_MISS : Cnt := ⟨0x512C, 32⟩
def CNT_CR_EXCESS : Cnt := ⟨0x5130, 32⟩
def CNT_CR_OVER : Cnt := ⟨0x5134, 32⟩
def CNT_INIT_RETRY : Cnt := ⟨0x5138, 16⟩
def CNT_WATCH : Cnt := ⟨0x513C, 16⟩
def CNT_TALLY_FIX : Cnt := ⟨0x5140, 32⟩
def CNT_TALLY_SKIP : Cnt := ⟨0x5144, 32⟩
def CNT_TRAIN_FAIL : Cnt := ⟨0x5148, 16⟩
def CNT_RETRAIN : Cnt := ⟨0x514C, 32⟩
def CNT_SHIFT : Cnt := ⟨0x5150, 32⟩
def CNT_SHIFT_CLASH : Cnt := ⟨0x5154, 16⟩
def CNT_SHIFT_LOST : Cnt := ⟨0x5158, 16⟩
def CNT_REMAP : Cnt := ⟨0x515C, 16⟩
def CNT_CASTLE : Cnt := ⟨0x5160, 32⟩
def CNT_LC_UNKNOWN : Cnt := ⟨0x5164, 32⟩
def CNT_BEAT_MISS : Cnt := ⟨0x5168, 32⟩
def CNT_TIME_ADJ : Cnt := ⟨0x516C, 32⟩
def CNT_DECK_FETCH : Cnt := ⟨0x5170, 32⟩
def CNT_DECK_MISS : Cnt := ⟨0x5174, 16⟩
def CNT_STRETCH : Cnt := ⟨0x5178, 16⟩
def CNT_MOV_ERR : Cnt := ⟨0x517C, 32⟩
def CNT_MOV_WSET_FULL : Cnt := ⟨0x5180, 32⟩
def CNT_SCOPE_MISMATCH : Cnt := ⟨0x5184, 32⟩
def CNT_PORT_BAD : Cnt := ⟨0x5188, 32⟩
def CNT_SWIN_OVF : Cnt := ⟨0x518C, 32⟩
def CNT_FOLD_LOST : Cnt := ⟨0x5190, 32⟩
def CNT_FOLD_NAR : Cnt := ⟨0x5194, 32⟩
def CNT_XJ_DONE : Cnt := ⟨0x5198, 32⟩
def CNT_VI_STALE_STR : Cnt := ⟨0x519C, 32⟩
def CNT_VI_DENY : Cnt := ⟨0x51A0, 32⟩
def CNT_VI_RESET : Cnt := ⟨0x51A4, 16⟩
def CNT_CLK_STOP : Cnt := ⟨0x51A8, 16⟩
def CNT_XING_RESYNC : Cnt := ⟨0x51AC, 32⟩
def CNT_XING_DROP : Cnt := ⟨0x51B0, 32⟩
def CNT_DOUBLES_RETRY : Cnt := ⟨0x51B4, 32⟩
def CNT_DOUBLES_FALLBACK : Cnt := ⟨0x51B8, 32⟩
def CNT_HOLD : Cnt := ⟨0x51BC, 16⟩
def CNT_HOLD_RESUME : Cnt := ⟨0x51C0, 16⟩
def CNT_HOLD_EXPIRE : Cnt := ⟨0x51C4, 16⟩
def CNT_DROOP : Cnt := ⟨0x51C8, 32⟩
def CNT_CSR_FAIL : Cnt := ⟨0x51CC, 32⟩
def CNT_LANE_RETIRE : Cnt := ⟨0x51D0, 16⟩
def CNT_PROBATION : Cnt := ⟨0x51D4, 16⟩
def CNT_WIDTH_DROP : Cnt := ⟨0x51D8, 16⟩
def CNT_EPOCH : Cnt := ⟨0x51DC, 16⟩
def CNT_LQ_LOST : Cnt := ⟨0x51E0, 32⟩
def CNT_UCODE_LOAD : Cnt := ⟨0x51E4, 16⟩
def CNT_UCODE_BAD : Cnt := ⟨0x51E8, 16⟩
def CNT_T4_LANE : Cnt := ⟨0x51EC, 16⟩
def CNT_WV_CMD : Cnt := ⟨0x51F0, 32⟩
def CNT_WV_REFUSED : Cnt := ⟨0x51F4, 32⟩
def CNT_WV_BAD : Cnt := ⟨0x51F8, 32⟩
def CNT_WV_DUP : Cnt := ⟨0x51FC, 16⟩
def CNT_EV_CORR : Cnt := ⟨0x5200, 32⟩
def CNT_EV_DEGR : Cnt := ⟨0x5204, 32⟩
def CNT_EV_FAIL : Cnt := ⟨0x5208, 16⟩
def CNT_EV_DROP : Cnt := ⟨0x520C, 32⟩
def CNT_TRACE_DROP : Cnt := ⟨0x5210, 32⟩

/-- The writable bits of the words of a block of registers: `cnt` words `stride` bytes apart from `base`,
with the masks of the fields of each access code of R7. -/
structure Acc where
  base : Nat
  stride : Nat
  cnt : Nat
  rw : Nat
  rwl : Nat
  w1c : Nat
  deriving DecidableEq, Repr

/-- The access codes of every register with a writable field. A word in no row is read only. -/
def accTable : List Acc := [
  ⟨0x10, 0x4, 1, 0x0, 0x1FF, 0x0⟩,
  ⟨0x400, 0x4, 1, 0x1C, 0x60, 0x0⟩,
  ⟨0x808, 0x40, 19, 0xF71F1F, 0x0, 0x0⟩,
  ⟨0x80C, 0x40, 19, 0x1F0F, 0x0, 0x0⟩,
  ⟨0x818, 0x40, 19, 0x3, 0x0, 0x0⟩,
  ⟨0x828, 0x40, 19, 0xFFFFFFFF, 0x0, 0x0⟩,
  ⟨0x1000, 0x4, 1, 0x7, 0x0, 0x0⟩,
  ⟨0x1014, 0x4, 1, 0xF0FFFFF, 0x0, 0x0⟩,
  ⟨0x101C, 0x4, 1, 0xFF0000, 0x0, 0x0⟩,
  ⟨0x1040, 0x4, 1, 0xFFFFFFFF, 0x0, 0x0⟩,
  ⟨0x10A0, 0x4, 6, 0xFFFF, 0x0, 0x0⟩,
  ⟨0x1800, 0x4, 1, 0x1, 0x1C, 0x0⟩,
  ⟨0x181C, 0x4, 1, 0xFFFF, 0x0, 0x0⟩,
  ⟨0x1844, 0x4, 1, 0xF9FFFFFF, 0x0, 0x0⟩,
  ⟨0x184C, 0x4, 1, 0xFFFF, 0x0, 0x0⟩,
  ⟨0x1850, 0x4, 1, 0xFFFFF, 0x0, 0x0⟩,
  ⟨0x1854, 0x4, 1, 0xF0FFFFFF, 0x0, 0x0⟩,
  ⟨0x1858, 0x4, 1, 0xFFFFFFFF, 0x0, 0x0⟩,
  ⟨0x185C, 0x4, 1, 0xFFFFFFFF, 0x0, 0x0⟩,
  ⟨0x1860, 0x4, 1, 0xFF00001F, 0x0, 0x0⟩,
  ⟨0x1868, 0x4, 1, 0xFFF80000, 0x0, 0x0⟩,
  ⟨0x186C, 0x4, 1, 0x1F, 0x0, 0x0⟩,
  ⟨0x1870, 0x4, 1, 0xFFFFFFFF, 0x0, 0x0⟩,
  ⟨0x1874, 0x4, 1, 0xFFFFFFFF, 0x0, 0x0⟩,
  ⟨0x1900, 0x8, 32, 0xC003FFFF, 0x0, 0x0⟩,
  ⟨0x1904, 0x8, 32, 0xC003FFFF, 0x0, 0x0⟩,
  ⟨0x2000, 0x4, 1, 0xFFFFFF07, 0x0, 0x0⟩,
  ⟨0x2004, 0x4, 1, 0x0, 0x7FFF000F, 0x0⟩,
  ⟨0x2008, 0x4, 1, 0x0, 0xFF000000, 0x0⟩,
  ⟨0x2400, 0x20, 64, 0xFFFFFFFF, 0x0, 0x0⟩,
  ⟨0x2404, 0x20, 64, 0xFFFFFFFF, 0x0, 0x0⟩,
  ⟨0x2408, 0x20, 64, 0xA000F000, 0x0, 0x0⟩,
  ⟨0x240C, 0x20, 64, 0xFFFF, 0x0, 0x0⟩,
  ⟨0x2418, 0x20, 64, 0xFFFF0007, 0x0, 0x0⟩,
  ⟨0x2C00, 0x20, 32, 0xFFFFFFFF, 0x0, 0x0⟩,
  ⟨0x2C04, 0x20, 32, 0xFFFFFFFF, 0x0, 0x0⟩,
  ⟨0x2C08, 0x20, 32, 0xF000001F, 0x0, 0x0⟩,
  ⟨0x2C0C, 0x20, 32, 0xFFFFFFFF, 0x0, 0x0⟩,
  ⟨0x2C10, 0x20, 32, 0xFFFFFFFF, 0x0, 0x0⟩,
  ⟨0x2C18, 0x20, 32, 0xFFFFFFFF, 0x0, 0x0⟩,
  ⟨0x2C1C, 0x20, 32, 0xFFFFFFFF, 0x0, 0x0⟩,
  ⟨0x3000, 0x4, 1, 0x1, 0x0, 0x0⟩,
  ⟨0x3008, 0x4, 1, 0x0, 0x0, 0x3F⟩,
  ⟨0x3100, 0x20, 32, 0xBFFFFFFF, 0x0, 0x0⟩,
  ⟨0x3104, 0x20, 32, 0xFFFFFFF0, 0x0, 0x0⟩,
  ⟨0x3108, 0x20, 32, 0xFFFC0000, 0x0, 0x0⟩,
  ⟨0x310C, 0x20, 32, 0xFFFFFFF, 0x0, 0x0⟩,
  ⟨0x3110, 0x20, 32, 0x801FFFFF, 0x0, 0x0⟩,
  ⟨0x3114, 0x20, 32, 0xFFFFFFFF, 0x0, 0x0⟩,
  ⟨0x3118, 0x20, 32, 0xFFFFFFFF, 0x0, 0x0⟩,
  ⟨0x311C, 0x20, 32, 0x0, 0x0, 0x3F⟩,
  ⟨0x3500, 0x20, 8, 0xFFFFFFFF, 0x0, 0x0⟩,
  ⟨0x3504, 0x20, 8, 0xFFFFFFFF, 0x0, 0x0⟩,
  ⟨0x3508, 0x20, 8, 0xFFFFFFFF, 0x0, 0x0⟩,
  ⟨0x350C, 0x20, 8, 0xFFFFFFFF, 0x0, 0x0⟩,
  ⟨0x3510, 0x20, 8, 0xFFFFFFF, 0x0, 0x0⟩,
  ⟨0x3514, 0x20, 8, 0x3FFFF800, 0x0, 0x0⟩,
  ⟨0x3518, 0x20, 8, 0xFFFFFFFF, 0x0, 0x0⟩,
  ⟨0x4004, 0x4, 1, 0x1, 0x0, 0x0⟩,
  ⟨0x4008, 0x4, 1, 0xFF00FFFF, 0x0, 0x0⟩,
  ⟨0x4018, 0x4, 1, 0xFFFFFFFF, 0x0, 0x0⟩,
  ⟨0x401C, 0x4, 1, 0xFFFFFFFF, 0x0, 0x0⟩,
  ⟨0x4800, 0x4, 1, 0xF, 0x0, 0x0⟩,
  ⟨0x4804, 0x4, 1, 0xFFFFFFFF, 0x0, 0x0⟩,
  ⟨0x4808, 0x4, 1, 0xFFFFFFF8, 0x0, 0x0⟩,
  ⟨0x4814, 0x4, 1, 0x0, 0x0, 0x80000000⟩,
  ⟨0x4818, 0x4, 1, 0xFFFFFFFF, 0x0, 0x0⟩,
  ⟨0x481C, 0x4, 1, 0xFFFFFFFF, 0x0, 0x0⟩,
  ⟨0x5400, 0x4, 1, 0x3, 0x0, 0x0⟩,
  ⟨0x5404, 0x4, 1, 0x0, 0x0, 0x7000080⟩,
  ⟨0x5420, 0x4, 1, 0x39, 0x0, 0x0⟩,
  ⟨0x5440, 0x4, 1, 0x3, 0x0, 0x0⟩,
  ⟨0x6000, 0x4, 1, 0x0, 0x2, 0x0⟩,
  ⟨0x6008, 0x4, 1, 0x0, 0xFE03FFFF, 0x0⟩,
  ⟨0x6010, 0x4, 1, 0x0, 0xFF000000, 0x0⟩,
  ⟨0x6040, 0x4, 18, 0x0, 0xFC000000, 0x0⟩,
  ⟨0x6100, 0x18, 18, 0x0, 0x8F071F1F, 0x0⟩,
  ⟨0x6104, 0x18, 18, 0x0, 0xF01FFFFF, 0x0⟩,
  ⟨0x6108, 0x18, 18, 0x0, 0x8F071F1F, 0x0⟩,
  ⟨0x610C, 0x18, 18, 0x0, 0xF01FFFFF, 0x0⟩,
  ⟨0x6110, 0x18, 18, 0x0, 0x8F071F1F, 0x0⟩,
  ⟨0x6114, 0x18, 18, 0x0, 0xF01FFFFF, 0x0⟩,
  ⟨0x6400, 0x4, 255, 0xFFFFFFFF, 0x0, 0x0⟩,
  ⟨0x7000, 0x4, 1, 0x2000FFFF, 0x0, 0x0⟩,
  ⟨0x7004, 0x4, 1, 0x3F, 0x0, 0x0⟩,
  ⟨0x7020, 0x4, 8, 0xFFFFFFFF, 0x0, 0x0⟩,
  ⟨0x7040, 0x4, 1, 0xFFF, 0x0, 0x0⟩,
  ⟨0x7044, 0x4, 4, 0xFFFFFFFF, 0x0, 0x0⟩,
  ⟨0x7080, 0x4, 6, 0xFFFFFFFF, 0x0, 0x0⟩,
  ⟨0x7400, 0x4, 256, 0x8007FFFF, 0x0, 0x0⟩]

/-- The 64-bit registers of R10 (offset of the low word, stride, count); the 48-bit counters are among them. -/
def wideTable : List (Nat × Nat × Nat) := [
  (0x820, 0x40, 19), (0x1808, 0x8, 1), (0x1810, 0x8, 1), (0x1858, 0x8, 1), (0x1870, 0x8, 1), (0x1878, 0x8, 1), (0x2400, 0x20, 64), (0x2C00, 0x20, 32), (0x2C18, 0x20, 32), (0x3114, 0x20, 32), (0x3500, 0x20, 8), (0x3508, 0x20, 8), (0x4010, 0x8, 1), (0x4018, 0x8, 1), (0x4818, 0x8, 1), (0x5000, 0x8, 32), (0x5410, 0x8, 1), (0x7010, 0x8, 1)]

/-- Reset values that do not depend on the place of the instance (non-zero ones only), as the Reset columns give them. -/
def fixedResets : List (Nat × Word) := [
  (0x0, 0x4C210000#32),
  (0x4, 0x2010100#32),
  (0x400, 0xC#32),
  (0x404, 0x600000#32),
  (0x41C, 0x600#32),
  (0x1000, 0x4#32),
  (0x1008, 0xFFFFFFFF#32),
  (0x100C, 0xFFFF0000#32),
  (0x1014, 0x8000000#32),
  (0x101C, 0x3F#32),
  (0x1040, 0x8040801#32),
  (0x1800, 0x1#32),
  (0x1844, 0x20000#32),
  (0x1854, 0x30000000#32),
  (0x1860, 0x40000000#32),
  (0x2000, 0x2001001#32),
  (0x3004, 0x2000#32),
  (0x4004, 0x1#32),
  (0x4008, 0x3B9B#32),
  (0x4018, 0xFFFFFFFF#32),
  (0x401C, 0xFFFFFFFF#32),
  (0x4020, 0x2#32),
  (0x4800, 0xF#32),
  (0x4804, 0xF59001AD#32),
  (0x4808, 0x301E82A0#32),
  (0x5400, 0x3#32),
  (0x6004, 0xF000000#32),
  (0x6008, 0xF0000000#32),
  (0x6010, 0x40000000#32),
  (0x7000, 0x100#32),
  (0x7004, 0x2B#32)]

end Sys2Proof.Machine
end

