-- ==== Sys2Proof/Machine/Place.lean ====
section
/-! DEFINITION. What an instance's place in the package decides: its kind, peer, twin and identity registers
(R13, R15, R16, R339), the capacities of its kind, and the reset values of the register window (R11). -/

namespace Sys2Proof.Machine

/-- Far instances have indices 50–113 (R15). -/
def isFar (idx : Nat) : Bool := decide (50 ≤ idx)
/-- HG0 and HG1 (R2). -/
def isGuestEdge (idx : Nat) : Bool := idx == 48 || idx == 49
/-- Instances of the hub die: HBkj, HG and F (R15). -/
def isHub (idx : Nat) : Bool := decide (36 ≤ idx)

/-- The in-package peer of R15; none for the guest's ends and for Far instances. -/
def peerIndex (i : Nat) : Option Nat :=
  if i < 36 then
    let k := i / 6
    let s := i % 6
    if s < 2 then some (6 * ((k + 5) % 6) + s + 2)
    else if s < 4 then some (6 * ((k + 1) % 6) + s - 2)
    else some (36 + 2 * k + (s - 4))
  else if i < 48 then some (6 * ((i - 36) / 2) + 4 + (i - 36) % 2)
  else none

/-- The twin of R16 and, on Far instances, the pair partner of R17. -/
def twinIndex (i : Nat) : Nat := if i % 2 = 0 then i + 1 else i - 1

/-- The die code of R66 of the die that holds the instance. -/
def dieOf (i : Nat) : Nat := if i < 36 then i / 6 + 1 else 0

/-- `ID_PLACE`, R339. -/
def idPlace (i : Nat) : Nat :=
  let kind := if isFar i then 1 else 0
  let edge := if i < 36 then i % 6 / 2 else if i < 48 then 3 else if i < 50 then 4 else 5
  let k := if i < 36 then i / 6 else if i < 48 then (i - 36) / 2 else 0
  let port := if i < 50 then i % 2 else i - 50
  kind * 2 ^ 31 + edge * 2 ^ 28 + k * 2 ^ 25 + port * 2 ^ 18 + dieOf i * 2 ^ 13 + i

/-- `ID_CAPS`, R339. -/
def idCaps (i : Nat) : Nat :=
  (if isGuestEdge i then 2 ^ 31 else 0) + (if isFar i then 0x41000 else 2 ^ 30 + 0x102000)

/-- Physical indices of the data lanes, R27. -/
def dataLanes (i : Nat) : List Nat := if isFar i then List.range 4 else List.range 16
/-- Physical indices of the spares, R27. -/
def spareLanes (i : Nat) : List Nat := if isFar i then [16] else [16, 17]
/-- Data and spare lanes of the instance. -/
def laneList (i : Nat) : List Nat := dataLanes i ++ spareLanes i
/-- Whether the lane block at a physical index exists (R27); index 18 is SB. -/
def lanePresent (i l : Nat) : Bool := (laneList i).contains l || (l == 18 && !isFar i)

/-- The full width of the kind, R116. -/
def fullWidth (i : Nat) : Nat := if isFar i then 4 else 16
/-- The allowed widths of R120, widest first. -/
def allowedWidths (i : Nat) : List Nat := if isFar i then [4, 2, 1] else [16, 12, 8, 4]
/-- The modes R25 offers on the instance, as the mask of R117. -/
def ownModes (i : Nat) : Nat := if isGuestEdge i then 7 else 3
/-- Bit of a width in the `WIDTHS` mask of R117. -/
def widthBit (w : Nat) : Nat :=
  if w = 1 then 1 else if w = 2 then 2 else if w = 4 then 4 else if w = 8 then 8 else if w = 12 then 16 else if w = 16 then 32 else 0

/-- Bank capacity in flits, R84. -/
def bankCap (i : Nat) : Nat := if isFar i then 2048 else 512
/-- Stream buffer capacity in flits, R154. -/
def strbufCap (i : Nat) : Nat := if isFar i then 2176 else 192
/-- Receive buffer capacity of a channel in pips, R94. -/
def rxCap (i c : Nat) : Nat :=
  (if isFar i then [32768, 32768, 256, 128, 1024, 1024] else [4096, 4096, 1024, 64, 256, 256]).getD c 0
/-- Base flit time in ticks, R147. -/
def baseFlit (i : Nat) : Nat := if isFar i then 4 else 1
/-- Entries in a page of the Turn Table, R149. -/
def pageEntries (i : Nat) : Nat := if isFar i then 2048 else 8192

/-- The reset words that depend on the place (the "By position", "Near"/"Far" and per-entry values of the Reset columns). -/
def placeResets (i : Nat) : List (Nat × Word) :=
  let w (n : Nat) : Word := BitVec.ofNat 32 n
  [(0x0, w (0x4C210000 + (if isHub i then 0x11 else 0x12))), (0x8, w (idPlace i)), (0x14, w (twinIndex i)), (0x18, w (idCaps i)),
   (0x410, w 0x3FFFFFFF), (0x414, w 0x3FFFFFFF), (0x418, w 0x3FFFFFFF),
   (0x100C, w (0xFFFF0000 + (if isFar i then 0x8000 else 0))), (0x1014, w (0x8000000 + (if isFar i then 0x4000 else 0x200))),
   (0x101C, w ((if isFar i then 0x400000 else 0x80000) + 0x3F)),
   (0x1800, w (1 + (if i < 36 && i % 6 == 4 then 4 else if i < 36 && i % 6 == 5 then 8 else 0))),
   (0x184C, w (if isFar i then 0x100 else 0x40)),
   (0x2004, w (if isHub i then 0x100 * (i - 36) * 2 ^ 16 + 8 else 0x1000 * (i % 6) * 2 ^ 16 + 0xC)),
   (0x3800, w 0x40000000), (0x3804, w 0x10000000),
   (0x4008, w ((if isFar i then 0x40000000 else 0x10000000) + 0x3B9B)),
   (0x600C, w 0x3FFFFF)]
  ++ (List.range 6).map (fun c => (0x10A0 + 4 * c, w (rxCap i c / 2)))
  ++ (List.range 64).map (fun n => (0x2408 + 0x20 * n, w 0x4000))
  ++ (List.range 32).map (fun n => (0x2C08 + 0x20 * n, w 0x10000005))
  ++ (List.range 32).map (fun n => (0x3100 + 0x20 * n, w 0x100))
  ++ ((List.range 19).filter (lanePresent i)).flatMap (fun l =>
      [(0x800 + 0x40 * l, w (0x400 + (if l == 18 then 0x200 else 0) + (if l == 16 || l == 17 then 0x100 else 0) + l)),
       (0x804 + 0x40 * l, w 0x31F0)]
      ++ (if l == 18 then [] else [(0x808 + 0x40 * l, w 0x40F00000), (0x80C + 0x40 * l, w 0x1008)]))

/-- The register window after a package reset of instance `i` (R11). The firewall group exists on HG0 and HG1 only (R249). -/
def resetRegs (i : Nat) : Sparse :=
  Sparse.setAll (Sparse.setAll [] (if isGuestEdge i then fixedResets else fixedResets.filter (fun e => e.1 < 0x7000))) (placeResets i)

end Sys2Proof.Machine
end

