-- ==== Sys2Proof/Machine/State.lean ====
section
/-! DEFINITION. The state of one adapter instance as plain data, the reasons a step can stop, and the state after a
package reset. Register-visible state lives in `regs`, under the manual's own offsets; the groups below hold what the
spec gives the instance beside its register window. -/

namespace Sys2Proof.Machine

/-- The block never stops with a fault: R3 says that the adapter never leaves an outcome to chance, and every command of
the table has an effect. The one reason below is raised by nobody; it is safe. -/
inductive Fault where
  /-- Raised by no command (safe). -/
  | unreachable
  deriving DecidableEq, Repr

/-- Why a command has no meaning. -/
inductive Refusal where
  /-- A command of the table without a meaning yet; raised by exec's refused arms only (safe). -/
  | notModelled (mnemonic : String)
  deriving DecidableEq, Repr

/-- An 8b/10b character of SB: a control character `k`, or a data byte (R31, R32). -/
structure SbChar where
  k : Bool
  b : Byte
  deriving DecidableEq, Repr

/-- What crosses a boundary of R1 outward. -/
inductive Out where
  /-- One wire flit leaves on the lanes (R37). -/
  | wire (w : BitVec 2176)
  /-- A frame leaves on SB, character by character (R32, R110). -/
  | sb (frame : List SbChar)
  /-- The SB toggle of R305 leaves: toggles, then frames of type 0x01 with payloads of a length, whose bytes the manual does not give. -/
  | sbTest (toggles frames len : Nat)
  /-- Training blocks leave, one on each lane in Training (R110). -/
  | blocks (l : List (Nat × BitVec 512))
  /-- The start marker leaves on every mapped lane at once (R122): the lanes, and the bytes that each sends, unscrambled. -/
  | marker (lanes : List Nat) (bytes : List Byte)
  /-- A message is handed to the core side (R76). -/
  | core (m : List Pip)
  /-- A request of the instance goes to the on-die network: for the home of an address, on a route (R177, R178, R185). -/
  | request (home : Nat) (route : Nat) (m : List Pip)
  /-- Stream payload is released to its port (R153): stream, late flag, bytes. -/
  | stream (id : Nat) (late : Bool) (data : List Byte)
  /-- A released flit goes to a transmit stream of another instance of the die (R181). -/
  | relayStream (inst stream : Nat) (data : List Byte)
  /-- A Fold result goes to a context of another instance of the die (R198). -/
  | relayFold (inst ctx : Nat) (data : List Byte)
  /-- A register read returns a word. -/
  | read (v : Word)
  /-- A Wilvel packet leaves on a path (R319). -/
  | packet (path : WvPath) (bytes : List Byte)
  /-- A mover asks the core side to drop the die's copies (R187). -/
  | dropCopies (mover : Nat)
  /-- HG0 and HG1 tell each other of quarantine (R246). -/
  | quarantine (on : Bool)
  deriving DecidableEq, Repr

/-- A Bank entry, R84: the header as first sent, the slots, and the pips carried per channel. -/
structure BankEntry where
  hdr : BitVec 64
  slots : List Pip
  pips : List Nat
  deriving DecidableEq, Repr

/-- A complete message in the receive buffers, with the count of messages and of stream flits accepted before it and
the tick of its acceptance (R75–R77). -/
structure RxMsg where
  chan : Nat
  m : List Pip
  order : Nat
  streams : Nat
  at_ : Nat
  deriving DecidableEq, Repr

/-- A message waiting for the link: its pips and whether its head came from the die's core side (R262). -/
structure TxMsg where
  m : List Pip
  fromCore : Bool
  deriving DecidableEq, Repr

/-- A link-control message waiting to be sent: its bytes from byte 8, and the tick of what it answers (R92). -/
structure LcOut where
  body : List Byte
  at_ : Nat
  deriving DecidableEq, Repr

/-- Reliable delivery beside its registers (chapter 4): the Bank, the next `SEQ` to be replayed, whether that rewind has sent nothing yet
and whether the ack timer began it, a NAK to be sent, pips due of the message being received (`part` holds those received, or its head alone where `skip` discards it),
complete messages, messages waiting to be sent, and the message being sent (its head, then the pips still to be sent); `acc` the tick of the last
acceptance and `RXSEQ` before that tick, `nakAt` the tick of the failure that a NAK is due for (R82); `roomSeen` whether the link's first CREDIT-INIT was
applied (R102), `exchSvc` whether the last exchange ended in Service (R104); `probeAt` and `probeFlit` the tick of the last probe's first symbol and the flit times
sent by then (R92); `bucketAt` per channel the tick to which its bucket is filled and the 1,024ths of a pip beyond (R243); `heard` the tick of the last arrival of a flit or of a
link-control message (R90). -/
structure Dlv where
  bank : List BankEntry
  replay : Option (BitVec 16)
  fresh : Bool
  timer : Bool
  nakDue : Bool
  due : Nat
  part : List Pip
  skip : Bool
  rx : List RxMsg
  accepted : Nat
  tx : List TxMsg
  cur : List Pip
  rr : Nat
  spent : List Nat
  ackAt : Nat
  noProgress : Nat
  urgent : List LcOut
  lc : List LcOut
  idleOnly : Bool
  upAt : Nat
  exch : Bool
  peerGot : Bool
  initAt : Nat
  peerRseq : BitVec 16
  rseqPassed : Bool
  firstAck : Bool
  acc : Option (Nat × Nat)
  nakAt : Nat
  roomSeen : Bool
  tally : Nat
  sinceExch : Nat
  exchSvc : Bool
  flits : Nat
  probes : List (Nat × Nat)
  probeSent : Nat
  probeAt : Nat
  probeFlit : Nat
  echoes : Nat
  loopOn : Bool
  lowRoom : List Bool
  quiet : List Nat
  lastAckBad : Option Nat
  buckets : List Nat
  bucketAt : List (Nat × Nat)
  heard : Option Nat
  deriving DecidableEq, Repr

/-- A training message repeated until answered, R112. -/
structure TrainMsg where
  tcode : Nat
  body : List Byte
  sends : Nat
  at_ : Nat
  deriving DecidableEq, Repr

/-- A LANE-EQ message repeated under R133. -/
structure LaneEqMsg where
  reqid : Nat
  lane : Nat
  op : Nat
  vals : EqVals
  sends : Nat
  deriving DecidableEq, Repr

/-- A remap, Castling or measurement in preparation: what for, the lane concerned, the Standby lane, and who has
qualified it (R133, R135); `more` the other lanes that the same remap brings in, each with who has qualified it. -/
structure Repair where
  castle : Bool
  x : Nat
  s : Nat
  ownQual : Bool
  peerQual : Bool
  phase : Nat
  more : List (Nat × Bool × Bool)
  deriving DecidableEq, Repr

/-- A search for transmit values on a lane: whole or of the neighbourhood (R114, R274), the words still to be tried, the word being tried,
the best with its estimate, whether a point has been read, whether the swing is being lowered, and the word in force before the search. -/
structure Search where
  lane : Nat
  whole : Bool
  left : List Nat
  cur : Nat
  best : Nat
  bestSnr : Nat
  seen : Bool
  swing : Bool
  base : Nat
  deriving DecidableEq, Repr

/-- What the margin re-plan of a lane has done in this epoch (R274). -/
structure Tune where
  lane : Nat
  searched : Bool
  trimmed : Bool
  changed : Bool
  deriving DecidableEq, Repr

/-- What waits for the next QUI run (R357). -/
inductive Deferred where
  | retrain (cause : Nat)
  | narrow
  | down
  deriving DecidableEq, Repr

/-- Link training, Shift and repair beside their registers (chapter 5). `asked` holds, per lane, the transmit values last requested of the peer,
or those that it has reported in force since; `negAt` the tick at which Negotiate began or the own transmitter last switched; `shiftWait` the own SHIFT-REQ that a merge
committed before its answer came; `again` whether a repair proposal is to be made again; `peerOut` the lane that a Castling of the peer frees;
`keep` the lane of a Castling that is to stay out, until a Shift has excluded it; `effgDue` whether the message that fixes the own `EFFG` has still to leave;
`mergeOwn` the own SHIFT-REQ where a merge was committed on the peer's answer alone; `rxGap` whether the peer's rate-lower gap is being received;
`told` the lanes in the map whose LANE_RETIRE was raised; `gapAt` the tick at which a rate-lower gap began; `results` the EQ-RESULT that this end sent for each
mode; `copy` the content of the last training block acted on, with the lanes whose copies have come. -/
structure Lnk where
  seen : Nat
  ppmSeen : Nat
  peerSeen : Nat
  peerModes : Nat
  stable : Nat
  exchanged : Bool
  since : Nat
  reversedOnce : Bool
  usable : Nat
  eqMode : Nat
  ownPass : Nat
  peerPass : Option Nat
  passSent : Bool
  tried : List (Nat × Nat)
  results : List (Nat × Nat)
  copy : Option (List Byte × List Nat)
  searches : List Search
  asked : List (Nat × Nat)
  reqid : Nat
  msgs : List TrainMsg
  ownReady : Option ReadyMsg
  peerReady : Option ReadyMsg
  held18 : Bool
  negAt : Nat
  gTx : Nat
  gRx : Nat
  fTx : Nat
  fRx : Nat
  cause : Nat
  retrainAt : Nat
  checkFail : Nat
  shiftOwn : Option ShiftMsg
  shiftPeer : Option ShiftMsg
  shiftSends : Nat
  shiftWait : Option ShiftMsg
  again : Bool
  keep : Option Nat
  effgDue : Bool
  mergeOwn : Option ShiftMsg
  rxGap : Bool
  peerOut : Option Nat
  told : List Nat
  commit : Option ShiftMsg
  rxDone : Bool
  gap : Bool
  gapAt : Nat
  eqs : List LaneEqMsg
  seenReq : List (Nat × Nat × Nat)
  sentReq : List (Nat × Nat)
  repair : Option Repair
  qualified : List Nat
  wait : List Deferred
  peerHeld : List TrainMsg
  partner : Option (Nat × Nat × Bool)
  retry : List Nat
  rxMap : List Nat
  rxMode : Nat
  deriving DecidableEq, Repr

/-- A held Stretch request, R160. -/
structure StretchReq where
  k : Nat
  lower : Bool
  e : Nat
  deriving DecidableEq, Repr

/-- A forwarded message awaiting its `GOT` (R161, R233), with the command it ends. -/
structure Fwd where
  h : CmdHdr
  opc : Nat
  body : List Byte
  sends : Nat
  deriving DecidableEq, Repr

/-- Time and Rounds beside their registers (chapter 6): the Round in force, the `LEN` in force, the first tick and the
Stretch of this Round and earlier ones (newest first), the Round whose actions come next, the exchange of R142, Beats,
Stretch requests, and `rival` the lowest other instance of the die at `ROLE` 0b01 (R140); `later` the VIs whose reset or destroy was pending when the counter
was stepped back, none of them due in a Round before `taken` (R356); `atReset` whether no Round has begun since an instance reset (R11). -/
structure Tim where
  round : Nat
  len : Nat
  starts : List (Nat × Nat × Nat)
  taken : Nat
  sync : List (Nat × Nat)
  syncId : Nat
  answered : Nat
  bestRt : Option Int
  bestTheta : Int
  owdRt : Option Int
  e0 : Option Int
  early : Nat
  lateB : Nat
  outTol : Nat
  adjust : Int
  rival : Option Nat
  beatDue : Bool
  lastBeat : Option Nat
  reqs : List StretchReq
  fwds : List Fwd
  rxSeen : List (Nat × Nat)
  genSeen : List (Nat × Nat)
  later : List Nat
  atReset : Bool
  deriving DecidableEq, Repr

/-- A stream flit held for release (R154): the Round and the base flit time of its position, its stream, and the bytes
to be released. -/
structure SbEntry where
  round : Nat
  off : Nat
  stream : Nat
  data : List Byte
  deriving DecidableEq, Repr

/-- A line access of a stream window in order (R182, R200): whom it serves (a stream identifier, 0x10000 + context for
operands, 0x20000 + context for anchors, 0x30000 + window for a window being written), its tag (0 while it waits for one), where its bytes lie in the
line, how many of them in front fell to void positions (R267), the Round whose data a write carries, and the bytes once answered (a write: some []). -/
structure Ahead where
  key : Nat
  tag : Nat
  skip : Nat
  len : Nat
  cut : Nat
  round : Nat
  data : Option (List Byte)
  deriving DecidableEq, Repr

/-- A LOAD-TURNS reading its pages and descriptors (R329): the address and number of the resident pages, the address of the descriptor
image, the next line to ask for and the lines that have come. -/
structure Load where
  ga : Nat
  pages : Nat
  dga : Nat
  next : Nat
  got : Nat
  deriving DecidableEq, Repr

/-- The schedule beside its registers: frames, descriptors, activation, positions, stream buffer, Deck (chapter 6); `writes` the window writes that wait for
a tag (window, VI, address, bytes); `relayBad` the streams whose relay's other end does not name them (R183); `deck` the Deck pages as
the last fit check read them, which their CRC-32s stand for (R156). -/
structure Trn where
  frames : Sparse
  descs : Sparse
  armed : Option Nat
  halt : Bool
  s : Nat
  first : Nat
  rxRound : Nat
  rxIdx : Nat
  txRound : Nat
  txIdx : Nat
  judged : Nat
  sbuf : List SbEntry
  released : Nat
  acceptedStr : Nat
  ready : List (Nat × List Byte)
  ahead : List Ahead
  writes : List (Nat × Nat × Nat × List Byte)
  relayBad : List Nat
  checking : Bool
  crcs : List Word
  deck : List (List Word)
  load : Option Load
  deckFetch : Option (Nat × Nat × Nat)
  deckReady : Bool
  deckMiss : Bool
  deckIn : List (Nat × Nat)
  lateIn : Option Nat
  ovfIn : Option Nat
  badIn : Option Nat
  void : Bool
  voidEnd : Nat
  zeroTo : List (Nat × Nat)
  deriving DecidableEq, Repr

/-- A mover, R176: the ring, index and address of its descriptor, the descriptor, its phase (0 not begun or releasing, 1 reading
and writing, 2 waiting for an answer, 3 waiting for the core side's confirmation, 4 status write due, 5 status write sent), the
next source and destination line of a COPY, lines read and not yet written, the first status code and whether a failure stopped
it, whether a release is in progress and the FENCEs still to be sent, and the ticks of its start and of its last flag answer. -/
structure Eng where
  active : Bool
  ring : Nat
  idx : Nat
  ga : Nat
  desc : BitVec 512
  phase : Nat
  next : Nat
  wnext : Nat
  lines : List (Nat × BitVec 1024)
  code : Nat
  stop : Bool
  relOn : Bool
  fences : List (Nat × Nat × Nat)
  startAt : Nat
  readAt : Nat
  deriving DecidableEq, Repr

/-- An outstanding adapter tag (R177, space 0x08): what it is for (0 read line, 1 write, 2 FENCE, 3 flag write,
4 status write, 5 descriptor fetch, 6 flag read, 7 job read, 8 job write, 9 window write, 10 window FENCE,
11 window flag write, 12 window read ahead, 13 operand read, 14 anchor read, 15 Deck line,
16 line of a LOAD-TURNS), by whom, the VI and generation
it carries, the tick of issue by `now` and by the die's counter, and whether it went over the instance's own link. `dead` marks a tag whose descriptor or job
is gone, `timedOut` one whose answer did not come in time. -/
structure Tag where
  tag : Nat
  kind : Nat
  owner : Nat
  ring : Nat
  arg : Nat
  gen : Nat
  vi : Nat
  at_ : Nat
  die : Nat
  link : Bool
  dead : Bool
  timedOut : Bool
  deriving DecidableEq, Repr

/-- Movers beside their registers (chapter 7): engines, tags, write sets (ring, pod, die, route), fetched descriptors (ring, index,
status of the fetch, descriptor), the index to fetch next and the release count of each ring, publications, and the round robin: the VI being
served, the descriptors left to it in its turn, and the ring that each VI was last served on (R176, R229); `winRel` the release count of each stream
window (R182, R185). -/
structure Mov where
  eng : List Eng
  tags : List Tag
  wset : List (Nat × Nat × Nat × Nat)
  fetched : List (Nat × Nat × Nat × BitVec 512)
  fetchAt : Sparse
  releases : Sparse
  used : Sparse
  readyRnd : List (Nat × Nat)
  pub : List (Nat × Nat)
  rrVi : Nat
  rrLeft : Nat
  rrRing : Sparse
  denyAt : Option Nat
  winRel : Sparse
  deriving DecidableEq, Repr

/-- A Fold context beside its registers (R196–R219): staged IN bytes (`none` for a byte that an overrun discarded), OPND and
anchor bytes, results waiting for a whole block, results waiting for OUT, the next element, the Rounds completed since
`EN` was written, the anchor and the largest exponent of the block in progress, whether poison is in
that block, the Rounds whose IN data has come (oldest first), the Rounds combined and not yet published, each with the bytes of it
and earlier ones still to be given out, the Rounds combined since the schedule began, and the bytes of OUT still to be discarded (R267). -/
structure Ctx where
  inQ : List (Option Byte)
  opQ : List Byte
  ancQ : List Byte
  held : List Nat
  outQ : List Byte
  elem : Nat
  rc : Nat
  anchor : Int
  emax : Int
  bad : Bool
  rounds : List Nat
  owed : List (Nat × Nat)
  made : Nat
  void : Nat
  deriving DecidableEq, Repr

/-- A transcode job in progress (R221): whether it has started, lines read out of order, the next line to read and the next to
stage, staged source bytes, elements converted, converted bytes waiting to be written, the next piece of the destination, and its
status. -/
structure Job where
  started : Bool
  src : List (Nat × BitVec 1024)
  next : Nat
  app : Nat
  inB : List Byte
  elem : Nat
  out : List Byte
  wr : Nat
  code : Nat
  stop : Bool
  deriving DecidableEq, Repr

/-- The Fold unit beside its registers: 32 contexts and 8 jobs, and the slots, in eighths, spent in an arithmetic cycle (R192). -/
structure Fold where
  ctx : List Ctx
  jobs : List Job
  cycle : Nat
  slots : Nat
  deriving DecidableEq, Repr

/-- An accepted Wilvel command waiting to start (R324), with its packet's override flag (R317) and the Round of its acceptance. -/
structure WvCmd where
  h : CmdHdr
  opc : Nat
  ovr : Bool
  params : List Byte
  round : Nat
  deriving DecidableEq, Repr

/-- What waits at a crossing that is closed (R252, R253, R255): a message of the core side; a register access, with the VI that it names where it
comes from the core side; one that is not aligned; what else comes in from the lanes or from the on-die network, as the command that brought it; what
leaves for the core side; stream data of a Round on its way to a context (`none` for poison). -/
inductive XEnt where
  | message (m : List Pip)
  | access (r : Requester) (write : Bool) (vi : Option Nat) (off v : Nat)
  | bad (r : Requester) (write : Bool) (off : Nat)
  | arrival (i : Instr)
  | out (o : Out)
  | fold (c n : Nat) (data : List (Option Byte))
  deriving DecidableEq, Repr

/-- What a returning die must know of the event that stopped it (R303), the handshakes of R256, what waits at the crossings, oldest first, with the
number of the crossing (a FIFO's entries first, then what waits for room; 7 for messages that the core side keeps in Hold, R265), and the counters as they were when the management clock stopped (R258). -/
structure Isl where
  hs : List Nat
  wait : List (Nat × XEnt)
  clkOn : Bool
  inReset : Bool
  byClock : Bool
  warned : Bool
  linkWas : Nat
  holdAt : Nat
  mgmtStopped : Bool
  base : List Nat
  deriving DecidableEq, Repr

/-- A Ledger record in the record queue (R284, R330): type, ISEQ, payload, the tick of its last LEDGER-PUT, and the tick at which a reply
refused it. -/
structure Rec where
  rtype : Nat
  iseq : Nat
  payload : List Byte
  sentAt : Option Nat
  refusedAt : Option Nat
  deriving DecidableEq, Repr

/-- A sweep in progress (R46): lane, next point, whether a point runs, whether the lane is an Active one of an epoch, and the tick at which
the point began. -/
structure Sweep where
  lane : Nat
  pt : Nat
  busy : Bool
  quiMeasured : Bool
  at_ : Nat
  deriving DecidableEq, Repr

/-- Ageing beside its registers (chapter 11). -/
structure Age where
  order : List Nat
  nMeas : Nat
  nCastle : Nat
  nQui : Nat
  nSearch : Nat
  nSwing : Nat
  nVerdict : Nat
  sweep : Option Sweep
  csrBase : Sparse
  replayBase : Nat
  droopBase : Nat
  temps : Nat
  recs : List Rec
  iseq : Nat
  hist : Sparse
  pendTx : List (Nat × Word)
  pendRx : List (Nat × Word)
  tunes : List Tune
  deriving DecidableEq, Repr

/-- The start path beside its registers (chapter 12): the steps of the interconnect check done, whether the start follows a die reset and takes
the retained image (R302), and the lanes whose eye the manufacturing test has still to measure (R305). -/
structure Strt where
  t0 : Nat
  stageAt : Nat
  abandoned : Bool
  recorded : Bool
  keepMem : Bool
  walk : Nat
  done : Bool
  again : Bool
  eyes : Option (List Nat)
  deriving DecidableEq, Repr

/-- A command that runs until a later event ends it (R323, R328). -/
structure WvRun where
  h : CmdHdr
  opc : Nat
  arg : Nat
  deriving DecidableEq, Repr

/-- A multi-packet command being assembled (R318). -/
structure WvAsm where
  h : CmdHdr
  opc : Nat
  got : List Byte
  bad : Bool
  deriving DecidableEq, Repr

/-- A reply log entry, R327. -/
structure WvLog where
  opc : Nat
  h : CmdHdr
  status : Nat
  tick : BitVec 64
  deriving DecidableEq, Repr

/-- The LME and its mailbox (chapters 12 and 13); `leaving` is the reply whose last packet is on its way in the MGT channel (R327). -/
structure Lme where
  ram : Sparse
  checking : Bool
  badSeen : Bool
  oldCrc : Word
  queue : List WvCmd
  runs : List WvRun
  asm : List WvAsm
  log : List WvLog
  leaving : Option WvLog
  rpl : List (List Byte)
  deriving DecidableEq, Repr

/-- An event in the event queue, R345. -/
structure Ev where
  cls : Nat
  code : Nat
  tick : BitVec 64
  deriving DecidableEq, Repr

/-- One adapter instance. `pending` is the queue of commands, first in first out; `place` is the instance index of R15;
`now` counts the ticks since the state's start, which no reset touches; `die` is the die's tick counter (R139);
`free` counts the free values taken; `shadow` and `held` are the high-word shadows and held low words of R10;
`beyond` counts, by a counter's offset, the events that came since the management clock stopped to counters at all ones (R258); `out` is what has crossed a
boundary outward, newest first. -/
structure State where
  pending : List Instr
  place : Nat
  now : Nat
  die : BitVec 64
  free : Nat
  regs : Sparse
  shadow : List ((Requester × Nat) × Word)
  held : List ((Requester × Nat) × Word)
  dlv : Dlv
  lnk : Lnk
  tim : Tim
  trn : Trn
  mov : Mov
  fold : Fold
  fw : Sparse
  pod : Sparse
  isl : Isl
  age : Age
  strt : Strt
  lme : Lme
  evq : List Ev
  trq : List (List Byte)
  violAt : Option Nat
  beyond : List (Nat × Nat)
  out : List Out
  deriving DecidableEq, Repr

/-- Reliable delivery after either reset: Bank empty, nothing held, nothing in progress (R55, R79, R106). The round robin of R74 stands at RSP with
nothing spent (DESIGN CHOICE, log entry 127). -/
def Dlv.reset : Dlv :=
  { bank := [], replay := none, fresh := false, timer := false, nakDue := false, due := 0, part := [], skip := false, rx := [], accepted := 0, tx := [],
    cur := [], rr := 1, spent := [0, 0, 0, 0], ackAt := 0, noProgress := 0, urgent := [], lc := [], idleOnly := false,
    upAt := 0, exch := false, peerGot := false, initAt := 0, peerRseq := 0xFFFF, rseqPassed := true, firstAck := false, acc := none, nakAt := 0,
    roomSeen := false, tally := 0, sinceExch := 0, exchSvc := false, flits := 0, probes := [], probeSent := 0, probeAt := 0, probeFlit := 0, echoes := 0, loopOn := false,
    lowRoom := List.replicate 6 false, quiet := List.replicate 6 0, lastAckBad := none,
    buckets := List.replicate 6 0, bucketAt := List.replicate 6 (0, 0), heard := none }

/-- No link, no training result (R109). -/
def Lnk.reset : Lnk :=
  { seen := 0, ppmSeen := 0, peerSeen := 0, peerModes := 0, stable := 0, exchanged := false, since := 0, reversedOnce := false,
    usable := 0, eqMode := 0, ownPass := 0, peerPass := none, passSent := false, tried := [], results := [], copy := none, searches := [], asked := [], reqid := 0, msgs := [], ownReady := none, peerReady := none, held18 := false, negAt := 0, gTx := 0, gRx := 0,
    fTx := 0, fRx := 0, cause := 0, retrainAt := 0, checkFail := 0, shiftOwn := none, shiftPeer := none, shiftSends := 0,
    shiftWait := none, again := false, keep := none, effgDue := false, mergeOwn := none, rxGap := false, peerOut := none, told := [],
    commit := none, rxDone := false, gap := false, gapAt := 0, eqs := [], seenReq := [], sentReq := [], repair := none, qualified := [], wait := [],
    peerHeld := [], partner := none, retry := [], rxMap := [], rxMode := 3 }

/-- Round 0 at tick 0 with the reset length of R146. -/
def Tim.reset : Tim :=
  { round := 0, len := 131072, starts := [(0, 0, 0)], taken := 1, sync := [], syncId := 0, answered := 0, bestRt := none, bestTheta := 0,
    owdRt := none, e0 := none, early := 0, lateB := 0, outTol := 0, adjust := 0, rival := none, beatDue := false, lastBeat := none,
    reqs := [], fwds := [], rxSeen := [], genSeen := [], later := [], atReset := false }

/-- No schedule loaded. -/
def Trn.reset : Trn :=
  { frames := [], descs := [], armed := none, halt := false, s := 0, first := 0, rxRound := 0, rxIdx := 0, txRound := 0,
    txIdx := 0, judged := 0, sbuf := [], released := 0, acceptedStr := 0, ready := [], ahead := [], writes := [], relayBad := [], checking := false,
    crcs := [], deck := [], load := none, deckFetch := none, deckReady := false, deckMiss := false, deckIn := [], lateIn := none, ovfIn := none,
    badIn := none, void := false, voidEnd := 0, zeroTo := [] }

/-- A mover at rest. -/
def Eng.idle : Eng :=
  { active := false, ring := 0, idx := 0, ga := 0, desc := 0, phase := 0, next := 0, wnext := 0, lines := [], code := 0,
    stop := false, relOn := false, fences := [], startAt := 0, readAt := 0 }

def Mov.reset : Mov :=
  { eng := List.replicate 4 Eng.idle, tags := [], wset := [], fetched := [], fetchAt := [], releases := [], used := [],
    readyRnd := [], pub := [], rrVi := 0, rrLeft := 0, rrRing := [], denyAt := none, winRel := [] }

/-- A context with nothing staged. -/
def Ctx.empty : Ctx :=
  { inQ := [], opQ := [], ancQ := [], held := [], outQ := [], elem := 0, rc := 0, anchor := 0, emax := -1075, bad := false,
    rounds := [], owed := [], made := 0, void := 0 }

def Job.empty : Job :=
  { started := false, src := [], next := 0, app := 0, inB := [], elem := 0, out := [], wr := 0, code := 0, stop := false }

def Fold.reset : Fold := { ctx := List.replicate 32 Ctx.empty, jobs := List.replicate 8 Job.empty, cycle := 0, slots := 0 }

def Isl.reset : Isl :=
  { hs := List.replicate 6 0, wait := [], clkOn := true, inReset := false, byClock := false, warned := false, linkWas := 0, holdAt := 0,
    mgmtStopped := false, base := [] }

def Age.reset : Age :=
  { order := [], nMeas := 0, nCastle := 0, nQui := 0, nSearch := 0, nSwing := 0, nVerdict := 0, sweep := none, csrBase := [],
    replayBase := 0, droopBase := 0, temps := 0, recs := [], iseq := 0, hist := [], pendTx := [], pendRx := [], tunes := [] }

def Strt.reset : Strt :=
  { t0 := 0, stageAt := 0, abandoned := false, recorded := false, keepMem := false, walk := 0, done := false, again := false, eyes := none }

def Lme.reset : Lme :=
  { ram := [], checking := false, badSeen := false, oldCrc := 0, queue := [], runs := [], asm := [], log := [], leaving := none, rpl := [] }

/-- Instance `i` right after a package reset (R11): every register at its Reset value, every queue, buffer and RAM empty. -/
def State.resetAt (i : Nat) : State :=
  { pending := [], place := i, now := 0, die := 0, free := 0, regs := resetRegs i, shadow := [], held := [],
    dlv := Dlv.reset, lnk := Lnk.reset, tim := Tim.reset, trn := Trn.reset, mov := Mov.reset, fold := Fold.reset,
    fw := [], pod := [], isl := Isl.reset, age := Age.reset, strt := Strt.reset, lme := Lme.reset, evq := [], trq := [],
    violAt := none, beyond := [], out := [] }

/-- The machine after reset: instance B2E0, index 14 (log entry 1). -/
def State.reset : State := State.resetAt 14

end Sys2Proof.Machine
end

