-- ==== Sys2Proof/Machine/Ops.lean ====
section
/-! DEFINITION. The named operations every meaning is written over: bytes and bit fields, reads and writes of the register
window by field, counters (R12), events (R344–R346), trace records (R347, R348), outputs and free values. -/

namespace Sys2Proof.Machine

/-! ### Bytes and bit fields (R4) -/

/-- Bits [lo + w − 1 : lo] of a number. -/
def bitsOf (v lo w : Nat) : Nat := v / 2 ^ lo % 2 ^ w

/-- Bit `i` of a number. -/
def bitOf (v i : Nat) : Bool := v / 2 ^ i % 2 == 1

/-- A number with bit `i` set or cleared. -/
def putBit (v i : Nat) (b : Bool) : Nat := v - v / 2 ^ i % 2 * 2 ^ i + (if b then 2 ^ i else 0)

/-- The number of ones among the low 32 bits. -/
def popCount (v : Nat) : Nat := ((List.range 32).filter (bitOf v)).length

/-- The positions of the ones among the low 32 bits, ascending. -/
def onesOf (v : Nat) : List Nat := (List.range 32).filter (bitOf v)

/-- The mask with the listed bits set. -/
def maskOf (l : List Nat) : Nat := l.foldl (fun a i => putBit a i true) 0

/-- `n` bytes, most significant first (R4). -/
def beBytes (n v : Nat) : List Byte := (List.range n).map (fun i => BitVec.ofNat 8 (v / 256 ^ (n - 1 - i)))

/-- The number that bytes spell, most significant first. -/
def ofBytes (l : List Byte) : Nat := l.foldl (fun a b => 256 * a + b.toNat) 0

/-- Byte `i` of a body. -/
def byteAt (l : List Byte) (i : Nat) : Nat := (l.getD i 0).toNat

/-- `len` bytes from byte `at_` as a number. -/
def bytesAt (l : List Byte) (at_ len : Nat) : Nat := ofBytes ((l.drop at_).take len)

/-- A list cut or padded with zero bytes to `n`. -/
def padTo (n : Nat) (l : List Byte) : List Byte := l.take n ++ List.replicate (n - l.length) 0

/-- The 16 bytes of a pip in wire order. -/
def pipBytes (p : Pip) : List Byte := beBytes 16 p.toNat

/-- The bytes of a run of pips. -/
def pipsBytes (m : List Pip) : List Byte := m.flatMap pipBytes

/-- Bytes as whole pips; the last is filled with zeros (R61). -/
def bytesPips (l : List Byte) : List Pip :=
  (List.range ((l.length + 15) / 16)).map (fun i => BitVec.ofNat 128 (ofBytes (padTo 16 ((l.drop (16 * i)).take 16))))

/-- A number of `w` bits read as two's complement. -/
def signed (w n : Nat) : Int := if n % 2 ^ w < 2 ^ (w - 1) then (n % 2 ^ w : Nat) else (n % 2 ^ w : Nat) - (2 ^ w : Nat)

/-- The low `w` bits of an integer in two's complement. -/
def unsigned (w : Nat) (i : Int) : Nat := (i % (2 ^ w : Nat)).toNat

/-- An integer held to the range of a signed `w`-bit field. -/
def clampS (w : Nat) (i : Int) : Int := max (-(2 ^ (w - 1) : Nat)) (min ((2 ^ (w - 1) : Nat) - 1) i)

/-- The element at an index replaced (nothing beyond the end). -/
def listSet {α : Type} (l : List α) (i : Nat) (a : α) : List α := l.set i a

/-! ### Registers -/

/-- The stored word at an offset. -/
def State.rd (s : State) (off : Nat) : Nat := (s.regs.get off).toNat

/-- Store a word at an offset. -/
def State.wr (s : State) (off v : Nat) : State := { s with regs := s.regs.set off (BitVec.ofNat 32 v) }

/-- A word with one field replaced; every other bit keeps its value. -/
def Fld.put (f : Fld) (w n : Nat) : Nat := w / 2 ^ (f.lo + f.w) * 2 ^ (f.lo + f.w) + n % 2 ^ f.w * 2 ^ f.lo + w % 2 ^ f.lo

/-- The value of a field. -/
def State.getF (s : State) (f : Fld) : Nat := bitsOf (s.rd f.off) f.lo f.w

/-- Set a field; the other bits of its word keep their values. -/
def State.setF (s : State) (f : Fld) (n : Nat) : State := s.wr f.off (f.put (s.rd f.off) n)

/-- A one-bit field as a Bool. -/
def State.getB (s : State) (f : Fld) : Bool := s.getF f != 0

/-- Set a one-bit field. -/
def State.setB (s : State) (f : Fld) (b : Bool) : State := s.setF f (if b then 1 else 0)

/-- Set several fields in order. -/
def State.setFs (s : State) (l : List (Fld × Nat)) : State := l.foldl (fun s p => s.setF p.1 p.2) s

/-- The value of a 64-bit register (R10). -/
def State.getW (s : State) (w : Wide) : Nat := s.rd w.off + 2 ^ 32 * s.rd (w.off + 4)

/-- Set both halves of a 64-bit register. -/
def State.putW (s : State) (w : Wide) (v : Nat) : State := (s.wr w.off (v % 2 ^ 32)).wr (w.off + 4) (v / 2 ^ 32 % 2 ^ 32)

/-- The value of a counter. -/
def State.cnt (s : State) (c : Cnt) : Nat := if c.w = 48 then s.getW ⟨c.off⟩ else s.rd c.off

/-- The events that a counter at all ones could not take while the management clock stood (R258). -/
def State.overOf (s : State) (off : Nat) : Nat := ((s.beyond.find? (fun p => p.1 == off)).map (·.2)).getD 0

/-- While the management clock stands a source keeps the events that its counter would lose (R258). -/
def State.keepOver (s : State) (off n : Nat) : State :=
  if s.isl.mgmtStopped && n != 0 then { s with beyond := (off, s.overOf off + n) :: s.beyond.filter (fun p => p.1 != off) } else s

/-- A counter rises by `n` and holds at all ones (R12). -/
def State.count (s : State) (c : Cnt) (n : Nat := 1) : State :=
  let v := min (2 ^ c.w - 1) (s.cnt c + n)
  (if c.w = 48 then s.putW ⟨c.off⟩ v else s.wr c.off v).keepOver c.off (s.cnt c + n - v)

/-- A field that counts up and holds at all ones (R12). -/
def State.bump (s : State) (f : Fld) (n : Nat := 1) : State := s.setF f (min (2 ^ f.w - 1) (s.getF f + n))

/-! ### Results, outputs and free values -/

/-- A command completes: the state `t`, with the command queue and the place as they were (a command acts on everything
but the queue, and nothing moves an instance). -/
def done (s t : State) : Host.Outcome State Fault Refusal := .next { t with pending := s.pending, place := s.place }

/-- What a flit carries has come in this tick: no flit of the tick reflects it (R90). -/
def State.hear (s : State) : State := { s with dlv := { s.dlv with heard := some s.now } }

/-! ### Crossings, R252, R253 and R255 -/

/-- The clock is seen running (R255). -/
def State.clkSeen (s : State) : Clk → Bool
  | .linkCore => s.getB ISL_STATUS_LCORE_OK
  | .arith => s.getB ISL_STATUS_ARITH_OK
  | .core => s.getB ISL_STATUS_CORE_OK
  | .mgmt => !s.isl.mgmtStopped

/-- The die's clocks run and its reset is not applied. -/
def State.clockRuns (s : State) : Bool := s.isl.clkOn && !s.isl.inReset

/-- The management island runs. -/
def State.mgmtRuns (s : State) : Bool := s.clockRuns && s.clkSeen .mgmt

/-- The clocks at the two sides of a crossing (R252). -/
def xClocks (x : Nat) : List Clk :=
  if x < 2 then [.linkCore] else if x = 2 then [.linkCore, .core] else if x = 3 then [.linkCore, .arith]
  else if x = 4 then [.linkCore, .mgmt] else [.arith, .mgmt]

/-- Entries that a crossing's FIFO holds each way (R252). -/
def xDepth (x : Nat) : Nat := [32, 16, 64, 32, 16, 8].getD x 0

/-- The crossing passes entries: both its clocks run, and no handshake of R256 is in progress at it. -/
def State.xOpen (s : State) (x : Nat) : Bool := s.clockRuns && (xClocks x).all s.clkSeen && s.isl.hs.getD x 0 == 0

/-- An entry waits at a crossing. -/
def State.hold (s : State) (x : Nat) (e : XEnt) : State := { s with isl := { s.isl with wait := s.isl.wait ++ [(x, e)] } }

/-- The entry leaves the link-core through the crossing. -/
def XEnt.outward : XEnt → Bool
  | .out _ | .fold .. => true
  | _ => false

/-- An entry is offered at a crossing from outside the link-core: it waits in the FIFO; while that is full it is not taken, and its sender waits
with it (R253). -/
def State.offerAt (s : State) (x : Nat) (e : XEnt) : State :=
  if (s.isl.wait.filter (fun p => p.1 == x && !p.2.outward)).length < xDepth x then s.hold x e else s

/-- What comes in through crossings takes its effect, or waits at the first of them that is closed (R253, R255, R256). During the die's reset nothing
comes. `i` is the command that brought it. -/
def State.through (s : State) (xs : List Nat) (i : Instr) (f : State → State) : State :=
  if s.isl.inReset then s else
  match xs.find? (fun x => !s.xOpen x) with
  | none => f s
  | some x => s.offerAt x (.arrival i)

/-- The crossing that an access of the register window takes to the island of its register, 6 for one of the management island (R251, R252; log
entry 149). -/
def crossOf (off : Nat) : Nat :=
  if 0x3000 ≤ off ∧ off < 0x3800 then 5 else if off < 0x400 ∨ (0x4000 ≤ off ∧ off < 0x7000) then 6 else 4

/-- A register access reaches its register now. -/
def State.reaches (s : State) (off : Nat) : Bool := s.mgmtRuns && (crossOf off == 6 || s.xOpen (crossOf off))

/-- The crossing at which a register access waits. -/
def xOf (off : Nat) : Nat := if crossOf off = 5 then 5 else 4

/-- A command that writes a register does so at once where the access reaches it, and waits at the crossing otherwise (R253). -/
def State.regCmd (s : State) (off v : Nat) (f : State → State) : State :=
  if s.reaches off then f s else s.offerAt (xOf off) (.access .bus true none off v)

/-- What leaves for the core side leaves through crossing 2 (R252). -/
def Out.toCore : Out → Bool
  | .core _ | .request .. | .relayStream .. | .relayFold .. | .dropCopies _ => true
  | .packet p _ => p == .core
  | _ => false

/-- Something crosses a boundary outward; what is meant for the core side waits while crossing 2 is closed (R253, R255). -/
def State.emit (s : State) (o : Out) : State :=
  if o.toCore && !s.xOpen 2 then s.hold 2 (.out o) else { s with out := o :: s.out }

/-- The next free value (log entry 9): nothing constrains it. -/
def State.freeNow (s : State) : Word := Config.freeWord s.free

/-- One free value has been taken. -/
def State.takeFree (s : State) : State := { s with free := s.free + 1 }

/-! ### Events and trace -/

/-- The type of a trace record. -/
def traceType (r : List Byte) : Nat := byteAt r 1

/-- The tick at which a trace record was made, from its data (R347). -/
def traceTick (r : List Byte) : Nat :=
  if traceType r = 3 then bytesAt r 20 8 else if traceType r = 6 then bytesAt r 12 8 + bytesAt r 8 4 else bytesAt r 12 8

/-- Where a trace record enters the queue: those made in one tick stand in ascending type order (R348). -/
def traceInsert (r : List Byte) (q : List (List Byte)) : List (List Byte) :=
  let later (x : List Byte) : Bool := traceTick x == traceTick r && decide (traceType r < traceType x)
  (q.reverse.dropWhile later).reverse ++ [r] ++ (q.reverse.takeWhile later).reverse

/-- A trace record enters the trace queue; a full queue of 16 drops it (R348). -/
def State.traceIn (s : State) (r : List Byte) : State :=
  if s.trq.length < 16 then { s with trq := traceInsert r s.trq } else s.count CNT_TRACE_DROP

/-- A trace record of R347: it takes the next record sequence number. -/
def State.trace (s : State) (ty : Nat) (data : List Byte) : State :=
  (s.setF TRACE_SEQ_SEQ (s.getF TRACE_SEQ_SEQ + 1)).traceIn (beBytes 4 (s.place * 2 ^ 24 + ty * 2 ^ 16 + s.getF TRACE_SEQ_SEQ) ++ data)

/-- The class of an event code, coded as in R71: 0 CORR, 1 DEGR, 2 FAIL (R344). -/
def evClass (code : Nat) : Nat :=
  if [0x0103, 0x0306, 0x0801, 0x0802, 0x0803].contains code then 2
  else if [0x0102, 0x0104, 0x0105, 0x0107, 0x0201, 0x0204, 0x0205, 0x0206, 0x0301, 0x0302, 0x0303, 0x0304, 0x0305, 0x0307,
    0x0309, 0x0401, 0x0402, 0x0404, 0x0502, 0x0601, 0x0702, 0x0902].contains code then 1
  else 0

/-- Remove the last element that satisfies `p`, if any. -/
def dropLastWhere {α : Type} (p : α → Bool) (l : List α) : List α :=
  let r := l.reverse
  ((r.takeWhile (fun a => !p a)) ++ (r.dropWhile (fun a => !p a)).drop 1).reverse

/-- Bytes 4–7 of the ADAPTER-EVENT message (R71). -/
def evWord (place cls code : Nat) : Nat := cls * 2 ^ 30 + place * 2 ^ 22 + code

/-- Where an event enters the queue: events raised in one tick stand in the order FAIL, DEGR, CORR and by ascending code within a
class (R345). -/
def evInsert (e : Ev) (q : List Ev) : List Ev :=
  let later (x : Ev) : Bool := x.tick == e.tick && (decide (x.cls < e.cls) || (x.cls == e.cls && decide (e.code < x.code)))
  (q.reverse.dropWhile later).reverse ++ [e] ++ (q.reverse.takeWhile later).reverse

/-- An event of a class has been seen (R344). -/
def State.evSeen (s : State) (cls : Nat) : State := s.setF EVT_STATUS_SEEN (putBit (s.getF EVT_STATUS_SEEN) cls true)

/-- The counter of a class of events. -/
def evCnt (cls : Nat) : Cnt := if cls = 0 then CNT_EV_CORR else if cls = 1 then CNT_EV_DEGR else CNT_EV_FAIL

/-- What an event does to the registers: its class's count, `EVT_LAST`, `EVT_DETAIL`, `EVT_LAST_TICK` and `SEEN` (R345). -/
def State.evRegs (s : State) (cls code detail : Nat) (core : Bool) : State :=
  ((((s.count (evCnt cls)).wr EVT_LAST (cls * 2 ^ 30 + code)).wr EVT_DETAIL ((if core then 2 ^ 31 else 0) + detail)).putW
    EVT_LAST_TICK s.die.toNat).evSeen cls

/-- The trace record of an event, where events are traced (R347). -/
def State.evTrace (s : State) (cls code : Nat) : State :=
  if s.getB TRACE_CTRL_EVENT then
    s.trace 1 (beBytes 4 (evWord s.place cls code) ++ beBytes 4 (s.rd EVT_DETAIL) ++ beBytes 8 s.die.toNat)
  else s

/-- An event is queued with another's place taken, or is itself lost: `CNT_EV_DROP` counts and `LOST` is set (R345). -/
def State.evLost (s : State) (q : List Ev) : State := ({ s with evq := q }.count CNT_EV_DROP).setB EVT_STATUS_LOST true

/-- A FAIL event enters the queue: where it is full, in the place of the newest CORR, or else of the newest DEGR entry (R345). -/
def State.evFail (s : State) (e : Ev) : State :=
  if s.evq.length < 32 then { s with evq := evInsert e s.evq }
  else s.evLost (evInsert e (dropLastWhere (fun x => x.cls == (if s.evq.any (fun x => x.cls == 0) then 0 else 1)) s.evq))

/-- A CORR or DEGR event enters the queue unless its class is masked; the last four entries are kept for FAIL (R345). -/
def State.evMinor (s : State) (e : Ev) : State :=
  if (e.cls == 0 && !s.getB EVT_CTRL_CORR_EN) || (e.cls == 1 && !s.getB EVT_CTRL_DEGR_EN) then s
  else if s.evq.length < 28 then { s with evq := evInsert e s.evq }
  else s.evLost s.evq

/-- An event enters the event queue (R345). -/
def State.evQueue (s : State) (e : Ev) : State := if e.cls = 2 then s.evFail e else s.evMinor e

/-- Raise an event (R345): it is counted by class, recorded in `EVT_LAST`, `EVT_DETAIL` and `EVT_LAST_TICK`, marked in
`SEEN`, traced, and queued unless its class is masked. -/
def State.raiseD (s : State) (code detail : Nat) (core : Bool) : State :=
  ((s.evRegs (evClass code) code detail core).evTrace (evClass code) code).evQueue ⟨evClass code, code, s.die⟩

/-- Raise an event whose `EVT_DETAIL` is zero. -/
def State.raise (s : State) (code : Nat) : State := s.raiseD code 0 false

/-- BAD_ACCESS of R9, with the offset. -/
def State.badAccess (s : State) (off : Nat) (core : Bool) : State := s.raiseD 0x0001 off core

/-- WRITE_REFUSED: what "changes nothing and raises CORR" (R344). -/
def State.refused (s : State) (off : Nat) (core : Bool := false) : State := s.raiseD 0x0002 off core

/-! ### The place of the instance -/

/-- The instance is a Far instance. -/
def State.far (s : State) : Bool := isFar s.place
/-- The instance is HG0 or HG1. -/
def State.guestEdge (s : State) : Bool := isGuestEdge s.place
/-- The tick counter. -/
def State.tick (s : State) : Nat := s.die.toNat
/-- The link state, R109. -/
def State.link (s : State) : Nat := s.getF LINK_STATUS_STATE
/-- The start stage. -/
def State.stage (s : State) : Nat := s.getF START_STATUS_STAGE
/-- The instance is in Service (T10). -/
def State.inService (s : State) : Bool := s.stage == 10

end Sys2Proof.Machine
end

