-- ==== Sys2Proof/Machine/Arith.lean ====
section
/-! DEFINITION. The values of Fold and transcode: element formats (R193–R195), exact arithmetic and rounding (R202, R203,
R211–R215), the exact partial AP192 (R205–R208), and the flag masks of R216. A finite value is an integer times a power of
two, so that every operation is exact until its one rounding. -/

namespace Sys2Proof.Machine

/-! ### Flags, R216: bits 5 to 0 are LOST, AX, NV, OF, UF, NX -/
def fLOST : Nat := 32
def fAX : Nat := 16
def fNV : Nat := 8
def fOF : Nat := 4
def fUF : Nat := 2
def fNX : Nat := 1

/-- A value with the flags that making it raised. -/
structure Fl (α : Type) where
  val : α
  flags : Nat
  deriving Repr

/-- A decoded floating value: NaN with its sign and whether it signals, an infinity, or ±m × 2^e. -/
inductive FVal where
  | nan (neg sig : Bool)
  | inf (neg : Bool)
  | fin (neg : Bool) (m : Nat) (e : Int)
  deriving DecidableEq, Repr

/-- Parameters of a floating format, R194. `kind` 0: infinities and NaNs as IEEE has them; 1: E4M3, one NaN and no infinity;
2: every code finite. -/
structure FFmt where
  eb : Nat
  bias : Nat
  fb : Nat
  kind : Nat
  deriving DecidableEq, Repr

/-- The floating parameters of a format code of R193 (the element's, for an MX code). -/
def ffmt (code : Nat) : Option FFmt :=
  if code = 0x00 then some ⟨11, 1023, 52, 0⟩ else if code = 0x01 then some ⟨8, 127, 23, 0⟩
  else if code = 0x02 then some ⟨8, 127, 7, 0⟩ else if code = 0x03 then some ⟨5, 15, 10, 0⟩
  else if code = 0x04 || code = 0x10 then some ⟨4, 7, 3, 1⟩ else if code = 0x05 || code = 0x11 then some ⟨5, 15, 2, 0⟩
  else if code = 0x12 then some ⟨2, 1, 3, 2⟩ else if code = 0x13 then some ⟨3, 3, 2, 2⟩
  else if code = 0x14 then some ⟨2, 1, 1, 2⟩ else none

/-- An MX format (R193). -/
def isMx (code : Nat) : Bool := 0x10 ≤ code && code ≤ 0x14
/-- A binary floating format with elements of whole bytes. -/
def isFloat (code : Nat) : Bool := code ≤ 0x05
/-- INT32 or INT64. -/
def isInt (code : Nat) : Bool := code == 0x06 || code == 0x07

/-- Bits of one element; an MX element without its scale. -/
def elemBits (code : Nat) : Nat :=
  if code = 0x00 || code = 0x07 || code = 0x09 then 64 else if code = 0x01 || code = 0x06 then 32
  else if code = 0x02 || code = 0x03 then 16 else if code = 0x08 then 192
  else if code = 0x12 || code = 0x13 then 6 else if code = 0x14 then 4 else 8

/-- Bytes of `n` elements in a stream, window or job range (R195). -/
def elemBytes (code n : Nat) : Nat := if isMx code then n / 32 * (1 + 4 * elemBits code) else n * (elemBits code / 8)

/-- The element emax of R194. -/
def elemEmax (code : Nat) : Int :=
  if code = 0x10 then 8 else if code = 0x11 then 15 else if code = 0x12 then 2 else if code = 0x13 then 4 else 2

/-- Decode the bits of one element. -/
def FFmt.decode (f : FFmt) (b : Nat) : FVal :=
  let neg := bitOf b (f.eb + f.fb)
  let ex := bitsOf b f.fb f.eb
  let fr := b % 2 ^ f.fb
  if f.kind = 0 && ex == 2 ^ f.eb - 1 then (if fr = 0 then .inf neg else .nan neg (fr < 2 ^ (f.fb - 1)))
  else if f.kind = 1 && ex == 2 ^ f.eb - 1 && fr == 2 ^ f.fb - 1 then .nan neg false
  else if ex = 0 then .fin neg fr (1 - (f.bias : Int) - f.fb)
  else .fin neg (2 ^ f.fb + fr) ((ex : Int) - f.bias - f.fb)

/-- ⌊log2⌋ of m × 2^e for m > 0. -/
def flog2 (m : Nat) (e : Int) : Int := (Nat.log2 m : Int) + e

/-- How a conversion rounds (R214): to nearest even, or stochastically with the 16-bit value of R215. -/
inductive Rnd where
  | even
  | stoch (r : Nat)
  deriving DecidableEq, Repr

/-- The rounding of m × 2^e to a multiple of 2^q: the multiple, and whether it differs from the value. -/
def roundAt (rnd : Rnd) (m : Nat) (e q : Int) : Nat × Bool :=
  if q ≤ e then (m * 2 ^ (e - q).toNat, false) else
  let d := 2 ^ (q - e).toNat
  let n := m / d
  let rem := m % d
  let up := match rnd with
    | .even => decide (d < 2 * rem) || (2 * rem == d && n % 2 == 1)
    | .stoch r => decide (2 ^ 16 ≤ rem * 2 ^ 16 / d + r)
  (if up then n + 1 else n, rem != 0)

/-- Largest finite magnitude: biased exponent and fraction. -/
def FFmt.top (f : FFmt) : Nat × Nat :=
  if f.kind = 0 then (2 ^ f.eb - 2, 2 ^ f.fb - 1) else if f.kind = 1 then (2 ^ f.eb - 1, 2 ^ f.fb - 2) else (2 ^ f.eb - 1, 2 ^ f.fb - 1)

/-- The bits of a sign, biased exponent and fraction. -/
def FFmt.bits (f : FFmt) (neg : Bool) (ex fr : Nat) : Nat := (if neg then 2 ^ (f.eb + f.fb) else 0) + ex * 2 ^ f.fb + fr

/-- The NaN that a conversion to this format gives, R211: quiet, with the input's sign and zero payload. -/
def FFmt.nan (f : FFmt) (neg : Bool) : Nat :=
  if f.kind = 0 then f.bits neg (2 ^ f.eb - 1) (2 ^ (f.fb - 1)) else f.bits neg (2 ^ f.eb - 1) (2 ^ f.fb - 1)

/-- The infinity of a format with infinities. -/
def FFmt.inf (f : FFmt) (neg : Bool) : Nat := f.bits neg (2 ^ f.eb - 1) 0

/-- The largest finite value with a sign. -/
def FFmt.largest (f : FFmt) (neg : Bool) : Nat := f.bits neg f.top.1 f.top.2

/-- A finite magnitude rounded into the format with unbounded exponent range: biased exponent, fraction and inexactness;
`none` when the rounded magnitude exceeds the largest finite value. -/
def FFmt.round (f : FFmt) (rnd : Rnd) (m : Nat) (e : Int) : Option (Nat × Nat) × Bool :=
  if m = 0 then (some (0, 0), false) else
  let emin : Int := 1 - f.bias
  let q := max (flog2 m e) emin - f.fb
  let (n, inexact) := roundAt rnd m e q
  if n < 2 ^ f.fb then (some (0, n), inexact) else
  let (n, q) := if n = 2 ^ (f.fb + 1) then (2 ^ f.fb, q + 1) else (n, q)
  let ex := (q + f.fb + f.bias).toNat
  let fr := n - 2 ^ f.fb
  if f.top.1 < ex || (ex == f.top.1 && f.top.2 < fr) then (none, inexact) else (some (ex, fr), inexact)

/-- Conversion of a value into a floating element format, R211 and R214, with `SAT`. A result below the smallest normal value
that is inexact raises UF (log entry 20). -/
def FFmt.encode (f : FFmt) (sat : Bool) (rnd : Rnd) (v : FVal) : Fl Nat :=
  match v with
  | .nan neg _ => ⟨f.nan neg, 0⟩
  | .inf neg =>
    if f.kind = 0 then ⟨f.inf neg, 0⟩ else if sat then ⟨f.largest neg, fNV⟩ else ⟨f.nan neg, fNV⟩
  | .fin neg m e =>
    match f.round rnd m e with
    | (some (ex, fr), inexact) => ⟨f.bits neg ex fr, if inexact then fNX ||| (if ex = 0 then fUF else 0) else 0⟩
    | (none, _) => ⟨if sat then f.largest neg else if f.kind = 0 then f.inf neg else f.nan neg, fOF ||| fNX⟩

/-- The canonical quiet NaN of R202. -/
def FFmt.canonical (f : FFmt) : Nat := f.nan false

/-- A value as an integer times a power of two, with the exponent given. -/
def scaled (neg : Bool) (m : Nat) (e q : Int) : Int := (if neg then -1 else 1) * ((m * 2 ^ (e - q).toNat : Nat) : Int)

/-- The exact sum of two values, with NV where R202 makes the operation invalid. The sign of an exact zero is IEEE's. -/
def fadd (a b : FVal) : Fl FVal :=
  match a, b with
  | .nan _ s, .nan _ t => ⟨.nan false false, if s || t then fNV else 0⟩
  | .nan _ s, _ => ⟨.nan false false, if s then fNV else 0⟩
  | _, .nan _ s => ⟨.nan false false, if s then fNV else 0⟩
  | .inf x, .inf y => if x == y then ⟨.inf x, 0⟩ else ⟨.nan false false, fNV⟩
  | .inf x, .fin .. => ⟨.inf x, 0⟩
  | .fin .., .inf y => ⟨.inf y, 0⟩
  | .fin x m e, .fin y n k =>
    let q := min e k
    let i := scaled x m e q + scaled y n k q
    ⟨.fin (if i = 0 then (if m = 0 && n == 0 then x && y else false) else decide (i < 0)) i.natAbs q, 0⟩

/-- The exact square. -/
def fsquare : FVal → Fl FVal
  | .nan _ s => ⟨.nan false false, if s then fNV else 0⟩
  | .inf _ => ⟨.inf false, 0⟩
  | .fin _ m e => ⟨.fin false (m * m) (2 * e), 0⟩

/-- The order of MIN and MAX on non-NaN values: −0 is below +0 (R202). -/
def fless (a b : FVal) : Bool :=
  match a, b with
  | .inf x, .inf y => x && !y
  | .inf x, _ => x
  | _, .inf y => !y
  | .fin x m e, .fin y n k =>
    let q := min e k
    let i := scaled x m e q
    let j := scaled y n k q
    decide (i < j) || (i == j && x && !y)
  | _, _ => false

/-- Minimum or maximum of IEEE 754-2019. -/
def fminmax (mx : Bool) (a b : FVal) : Fl FVal :=
  match a, b with
  | .nan _ s, .nan _ t => ⟨.nan false false, if s || t then fNV else 0⟩
  | .nan _ s, _ => ⟨.nan false false, if s then fNV else 0⟩
  | _, .nan _ s => ⟨.nan false false, if s then fNV else 0⟩
  | _, _ => ⟨if fless a b == mx then b else a, 0⟩

/-- A floating operation of R202 on partials: 1 SUM, 2 MIN, 3 MAX, 4 SUMSQ (IN and OPND), rounded once to nearest even. -/
def foldFloat (f : FFmt) (op : Nat) (x y : FVal) : Fl Nat :=
  let r := if op = 1 then fadd x y else if op = 4 then (let q := fsquare y; let z := fadd x q.val; ⟨z.val, z.flags ||| q.flags⟩)
    else fminmax (op == 3) x y
  match r.val with
  | .nan .. => ⟨f.canonical, r.flags⟩
  | v => let o := f.encode false .even v; ⟨o.val, o.flags ||| r.flags⟩

/-- An integer operation of R203 on `w`-bit partials. -/
def foldInt (w op x y : Nat) : Fl Nat :=
  let a := signed w x
  let b := signed w y
  let wrap (i : Int) : Fl Nat := ⟨unsigned w i, if signed w (unsigned w i) = i then 0 else fOF⟩
  if op = 1 then wrap (a + b) else if op = 4 then wrap (a + b * b)
  else if op = 2 then ⟨if a ≤ b then x else y, 0⟩ else if op = 3 then ⟨if a ≤ b then y else x, 0⟩
  else if op = 5 then ⟨x &&& y, 0⟩ else if op = 6 then ⟨x ||| y, 0⟩ else ⟨x ^^^ y, 0⟩

/-! ### ANCHOR-SUM -/

/-- An AP192, R205. -/
inductive Ap where
  | nar
  | inf (neg : Bool)
  | fin (v : Int)
  deriving DecidableEq, Repr

/-- Read 192 bits. -/
def apOf (b : Nat) : Ap :=
  if b = 2 ^ 191 then .nar else if b = 2 ^ 191 + 1 then .inf false else if b = 2 ^ 191 + 2 then .inf true else .fin (signed 192 b)

/-- Write 192 bits. -/
def Ap.bits : Ap → Nat
  | .nar => 2 ^ 191
  | .inf neg => 2 ^ 191 + (if neg then 2 else 1)
  | .fin v => unsigned 192 v

/-- An anchor held to its range, R204. -/
def anchorOf (a : Int) : Int := max (-1074) (min 1023 a)

/-- Conversion of an FP64 operand, R206. -/
def apConvert (a : Int) (v : FVal) : Fl Ap :=
  match v with
  | .nan .. => ⟨.nar, fNV⟩
  | .inf neg => ⟨.inf neg, 0⟩
  | .fin neg m e =>
    if m = 0 then ⟨.fin 0, 0⟩ else if a < flog2 m e then ⟨.nar, fAX⟩ else
    let (n, inexact) := roundAt .even m (e + 160 - a) 0
    ⟨.fin (if neg then -(n : Int) else n), if inexact then fNX else 0⟩

/-- Addition, R207. -/
def apAdd (x y : Ap) : Fl Ap :=
  match x, y with
  | .nar, _ => ⟨.nar, 0⟩
  | _, .nar => ⟨.nar, 0⟩
  | .inf a, .inf b => if a == b then ⟨.inf a, 0⟩ else ⟨.nar, fNV⟩
  | .inf a, .fin _ => ⟨.inf a, 0⟩
  | .fin _, .inf b => ⟨.inf b, 0⟩
  | .fin v, .fin w =>
    if -(2 ^ 191 - 3) ≤ v + w ∧ v + w ≤ 2 ^ 191 - 1 then ⟨.fin (v + w), 0⟩ else ⟨.nar, fOF⟩

/-- Conversion of a total at a root, R208. -/
def apOut (f : FFmt) (a : Int) (x : Ap) : Fl Nat :=
  match x with
  | .nar => ⟨f.canonical, 0⟩
  | .inf neg => ⟨f.inf neg, 0⟩
  | .fin v => f.encode false .even (.fin (decide (v < 0)) v.natAbs (a - 160))

/-- E(x) of R204. -/
def expOf : FVal → Int
  | .fin _ m e => if m = 0 then -1075 else flog2 m e
  | _ => 1024

/-! ### Transcode -/

/-- The 16-bit value of R215. -/
def rand16 (s j : Nat) : Nat :=
  let m := 2 ^ 64
  let z := (s + (j + 1) * 0x9E3779B97F4A7C15) % m
  let z := ((z ^^^ (z / 2 ^ 30)) * 0xBF58476D1CE4E5B9) % m
  let z := ((z ^^^ (z / 2 ^ 27)) * 0x94D049BB133111EB) % m
  (z ^^^ (z / 2 ^ 31)) / 2 ^ 48

/-- The pairs of R210. -/
def xcodePair (i o : Nat) : Bool :=
  if isInt i then i == o
  else if i ≤ 1 then isFloat o || isMx o
  else if i ≤ 5 then o ≤ 1
  else if isMx i then o ≤ 3
  else false

/-- The rounding of a conversion to a format: stochastic only where R214 says so. -/
def rndFor (sr : Bool) (o seed j : Nat) : Rnd := if sr && o != 0 then .stoch (rand16 seed j) else .even

/-- One element of a non-MX format converted to another (R210, R211); equal formats copy. -/
def convElem (i o : Nat) (sat : Bool) (rnd : Rnd) (b : Nat) : Fl Nat :=
  if i = o then ⟨b, 0⟩ else
  match ffmt i, ffmt o with
  | some f, some g => g.encode sat rnd (f.decode b)
  | _, _ => ⟨b, 0⟩

/-- Pack `w`-bit codes most significant first (R195). -/
def packCodes (w : Nat) (l : List Nat) : List Byte := beBytes (w * l.length / 8) (l.foldl (fun a c => a * 2 ^ w + c) 0)

/-- Unpack 32 `w`-bit codes. -/
def unpackCodes (w : Nat) (l : List Byte) : List Nat :=
  let v := ofBytes l
  (List.range 32).map (fun i => bitsOf v (w * (31 - i)) w)

/-- Encode 32 values as an MX block, R212. `rnd` gives the rounding of element i of the block. OF is set where X is clamped to 127; an element set to the
largest value sets NX alone (DESIGN CHOICE, log entry 165). -/
def mxEncode (o : Nat) (rnd : Nat → Rnd) (vs : List FVal) : Fl (List Byte) :=
  let w := elemBits o
  let special := vs.any (fun v => match v with | .fin .. => false | _ => true)
  if special then ⟨beBytes 1 0xFF ++ packCodes w (List.replicate 32 0), fNV⟩ else
  match ffmt o with
  | none => ⟨[], 0⟩
  | some f =>
    let logs := vs.filterMap (fun v => match v with | .fin _ m e => if m = 0 then none else some (flog2 m e) | _ => none)
    let x0 := match logs with
      | [] => (-127 : Int)
      | a :: r => r.foldl max a - elemEmax o
    let x := max (-127) (min 127 x0)
    let codes := vs.zipIdx.map (fun p => match p.1 with
      | .fin neg m e =>
        match f.round (rnd p.2) m (e - x) with
        | (some (ex, fr), inexact) => (⟨f.bits neg ex fr, if inexact then fNX ||| (if ex = 0 then fUF else 0) else 0⟩ : Fl Nat)
        | (none, _) => ⟨f.largest neg, fNX⟩
      | _ => ⟨0, 0⟩)
    ⟨beBytes 1 (x + 127).toNat ++ packCodes w (codes.map (·.val)),
      codes.foldl (fun a c => a ||| c.flags) (if 127 < x0 then fOF else 0)⟩

/-- Decode an MX block, R213, to 32 values. -/
def mxDecode (i : Nat) (l : List Byte) : List FVal :=
  let sc := (l.headD 0).toNat
  match ffmt i with
  | none => []
  | some f =>
    if sc = 0xFF then List.replicate 32 (.nan false false) else
    (unpackCodes (elemBits i) (l.drop 1)).map (fun c => match f.decode c with
      | .fin neg m e => .fin neg m (e + sc - 127)
      | v => v)

/-- A run of elements in one format as values or bits; `n` elements are held in `elemBytes i n` bytes. -/
def splitElems (i n : Nat) (l : List Byte) : List Nat :=
  let w := elemBits i / 8
  (List.range n).map (fun k => bytesAt l (w * k) w)

/-- Convert `n` elements (a multiple of 32 where MX is one side) of format `i` to bytes of format `o`; `j` is the index of the
first for R215. -/
def convRange (i o : Nat) (sat sr : Bool) (seed j n : Nat) (l : List Byte) : Fl (List Byte) :=
  if i = o then ⟨l.take (elemBytes i n), 0⟩
  else if isMx o then
    match ffmt i with
    | none => ⟨[], 0⟩
    | some f =>
      let vs := (splitElems i n l).map f.decode
      (List.range (n / 32)).foldl (fun (a : Fl (List Byte)) b =>
        let r := mxEncode o (fun k => rndFor sr o seed (j + 32 * b + k)) ((vs.drop (32 * b)).take 32)
        ⟨a.val ++ r.val, a.flags ||| r.flags⟩) ⟨[], 0⟩
  else if isMx i then
    match ffmt o with
    | none => ⟨[], 0⟩
    | some g =>
      let bw := elemBytes i 32
      (List.range (n / 32)).foldl (fun (a : Fl (List Byte)) b =>
        (mxDecode i ((l.drop (bw * b)).take bw)).zipIdx.foldl (fun (a : Fl (List Byte)) p =>
          let r := g.encode sat (rndFor sr o seed (j + 32 * b + p.2)) p.1
          ⟨a.val ++ beBytes (elemBits o / 8) r.val, a.flags ||| r.flags⟩) a) ⟨[], 0⟩
  else
    (splitElems i n l).zipIdx.foldl (fun (a : Fl (List Byte)) p =>
      let r := convElem i o sat (rndFor sr o seed (j + p.2)) p.1
      ⟨a.val ++ beBytes (elemBits o / 8) r.val, a.flags ||| r.flags⟩) ⟨[], 0⟩

/-- The partial format of an operation on operands of a format, R201; none for a pair that R201 does not allow. XCODE's own
pairs are those of R210. -/
def partialOf (op ifmt : Nat) : Option Nat :=
  if op = 0 then none
  else if op ≤ 4 then
    if ifmt = 0 then some 0 else if ifmt ≤ 5 then some 1 else if isInt ifmt then some ifmt
    else if ifmt = 9 && op = 3 then some 6 else none
  else if op ≤ 7 then (if isInt ifmt then some ifmt else none)
  else if op = 8 then (if ifmt = 0 then some 8 else none)
  else none

/-- The poison value of a partial format, R219. -/
def poisonOf (p : Nat) : Nat :=
  match ffmt p with
  | some f => f.canonical
  | none => if p = 8 then 2 ^ 191 else if p = 7 then 2 ^ 63 else 2 ^ 31

end Sys2Proof.Machine
end

