-- ==== Sys2Proof/Machine/Sched.lean ====
section
/-! DEFINITION. Rounds and the Turn Table as lookups (chapter 6): run lists (R147–R149), stream positions (R65), scheduled
ticks (R152), QUI runs (R357) and stream descriptors (R150). -/

namespace Sys2Proof.Machine

/-- A run of a list: class, stream, first base flit time and length in base flit times (R147). -/
structure Run where
  cls : Nat
  stream : Nat
  off : Nat
  len : Nat
  deriving DecidableEq, Repr

/-- Read the run list from an entry index until the run lengths reach `total` base flit times (R149). -/
def readRuns (entry : Nat → Nat) (total : Nat) : Nat → Nat → Nat → List Run
  | 0, _, _ => []
  | fuel + 1, idx, off =>
    if total ≤ off then [] else
    let e := entry idx
    let n := bitsOf e 20 12 + 1
    ⟨bitsOf e 16 4, bitsOf e 0 16, off, n⟩ :: readRuns entry total fuel (idx + 1) (off + n)

/-- The frame that holds an image page (R149, R155). -/
def State.pageFrame (s : State) (page : Nat) : Option Nat :=
  if s.getF TURN_DECK_NDECK = 0 then (if page < 16 then some page else none)
  else if page < 14 then some page
  else (s.trn.deckIn.find? (fun p => p.2 == page)).map (·.1)

/-- The Turn Table entry at an image entry index. That of a Deck page in no frame is the one that the fit check read: a fetch that gave
another would fail its CRC (R156). -/
def State.turnEntry (s : State) (i : Nat) : Nat :=
  match s.pageFrame (i / pageEntries s.place) with
  | some f => (s.trn.frames.get (8192 * f + i % pageEntries s.place)).toNat
  | none => ((s.trn.deck.getD (i / pageEntries s.place - 14) []).getD (i % pageEntries s.place) 0).toNat

/-- Base flit times in a Round (R149). -/
def State.roundTimes (s : State) : Nat := s.getF TURN_LEN_LEN / baseFlit s.place

/-- The schedule runs. -/
def State.run (s : State) : Bool := s.getB TURN_CTRL_RUN

/-- The program that Round `n` runs (R146). -/
def State.progOf (s : State) (n : Nat) : Nat := (n - s.trn.s) % (s.getF TURN_LEN_CYCLE + 1)

/-- The run list of program `c`, sending (`tx`) or receiving. -/
def State.progRuns (s : State) (tx : Bool) (c : Nat) : List Run :=
  readRuns s.turnEntry s.roundTimes s.roundTimes (s.getF (if tx then TURN_DIR_TX_START c else TURN_DIR_RX_START c)) 0

/-- The run list of Round `n`. -/
def State.roundRuns (s : State) (tx : Bool) (n : Nat) : List Run := s.progRuns tx (s.progOf n)

/-- A run of a stream class: STR or FLD. -/
def Run.isStream (r : Run) : Bool := r.cls == 1 || r.cls == 4

/-- A stream position: its run, the base flit time at which it starts and its index in the list. -/
structure Pos where
  run : Run
  off : Nat
  idx : Nat
  deriving DecidableEq, Repr

/-- Stream position `i` of a run list. -/
def posAt : List Run → Nat → Nat → Option Pos
  | [], _, _ => none
  | r :: l, i, base =>
    if r.isStream then (if i < r.len then some ⟨r, r.off + i, base + i⟩ else posAt l (i - r.len) (base + r.len))
    else posAt l i base

/-- The number of stream positions of a run list. -/
def posCount (l : List Run) : Nat := ((l.filter Run.isStream).map (·.len)).sum

/-- The number of positions of a stream. -/
def streamCount (l : List Run) (id : Nat) : Nat := ((l.filter (fun r => r.isStream && r.stream == id)).map (·.len)).sum

/-- The number of positions of position `p`'s stream before it. -/
def posOrdinal (l : List Run) (p : Pos) : Nat :=
  ((l.filter (fun r => r.isStream && r.stream == p.run.stream && r.off < p.run.off)).map (·.len)).sum + (p.off - p.run.off)

/-- The position at index `i` counted from the first of Round `n` on into later Rounds, passing over Rounds without one
(R65). -/
def State.nextPos (s : State) (tx : Bool) : Nat → Nat → Nat → Option (Nat × Pos)
  | 0, _, _ => none
  | fuel + 1, n, i =>
    let l := s.roundRuns tx n
    match posAt l i 0 with
    | some p => some (n, p)
    | none => s.nextPos tx fuel (n + 1) (i - posCount l)

/-- The next position to be bound (receiving) or sent. -/
def State.curPos (s : State) (tx : Bool) : Option (Nat × Pos) :=
  if s.run then s.nextPos tx 34 (if tx then s.trn.txRound else s.trn.rxRound) (if tx then s.trn.txIdx else s.trn.rxIdx) else none

/-- First tick and Stretch of a Round that has begun. -/
def State.roundStart (s : State) (n : Nat) : Option (Nat × Nat) := (s.tim.starts.find? (fun p => p.1 == n)).map (·.2)

/-- First tick of the current Round. -/
def State.b (s : State) : Nat := ((s.roundStart s.tim.round).map (·.1)).getD 0

/-- The Stretch in force. -/
def State.k (s : State) : Nat := s.getF TURN_STRETCH_K

/-- The length of the current Round (R146). -/
def State.lenNow (s : State) : Nat := s.tim.len * (16 + s.k) / 16

/-- A scheduled offset stretched (R152). -/
def stretched (o k : Nat) : Nat := o * (16 + k) / 16

/-- The scheduled tick of a position of Round `n` at base flit time `off`; none before the Round begins. -/
def State.sigma (s : State) (n off : Nat) : Option Nat :=
  (s.roundStart n).map (fun p => p.1 + stretched (off * baseFlit s.place) p.2)

/-- The declared latency D. -/
def State.decl (s : State) : Nat := s.getF TIME_DECL_DECL

/-- The due tick of a position. -/
def State.dueOf (s : State) (n off : Nat) : Option Nat := (s.sigma n off).map (· + s.decl)

/-- The run of the current Round's TX list that holds a tick, with the ticks at which it starts and ends; none while no
schedule runs. -/
def State.runAt (s : State) (t : Nat) : Option (Run × Nat × Nat) :=
  if s.run then
    ((s.roundRuns true s.tim.round).map (fun r =>
      (r, s.b + stretched (r.off * baseFlit s.place) s.k, s.b + stretched ((r.off + r.len) * baseFlit s.place) s.k))).find?
      (fun p => decide (p.2.1 ≤ t ∧ t < p.2.2))
  else none

/-- The class of the flit time that starts at a tick: UNS while no schedule runs (R157). -/
def State.classAt (s : State) (t : Nat) : Nat := ((s.runAt t).map (fun p => p.1.cls)).getD 2

/-- The tick lies in a QUI run; the ticks left in it. -/
def State.quiLeft (s : State) (t : Nat) : Option Nat :=
  match s.runAt t with
  | some (r, _, e) => if r.cls = 3 then some (e - t) else none
  | none => none

/-- The QUI runs (first tick, end) of the current Round and of the Rounds of one cycle after it, as the Stretch in force
places them, in order. -/
def State.quiRuns (s : State) : List (Nat × Nat) :=
  (List.range (s.getF TURN_LEN_CYCLE + 2)).flatMap (fun i =>
    let b := s.b + i * s.lenNow
    ((s.roundRuns true (s.tim.round + i)).filter (fun r => r.cls == 3)).map (fun r =>
      (b + stretched (r.off * baseFlit s.place) s.k, b + stretched ((r.off + r.len) * baseFlit s.place) s.k)))

/-- Some program of the running schedule has a QUI run of at least `m` ticks (R357, R126). -/
def State.hasQui (s : State) (m : Nat) : Bool := s.run && s.quiRuns.any (fun p => decide (m ≤ p.2 - p.1))

/-- A word of a stream descriptor, R150. -/
def State.desc (s : State) (id w : Nat) : Nat := (s.trn.descs.get (4 * id + w)).toNat
def State.descValid (s : State) (id : Nat) : Bool := id < 1024 && bitOf (s.desc id 0) 31
/-- The descriptor is a receive stream's. -/
def State.descRx (s : State) (id : Nat) : Bool := bitOf (s.desc id 0) 30
def State.descVi (s : State) (id : Nat) : Nat := bitsOf (s.desc id 0) 16 8
def State.descBytes (s : State) (id : Nat) : Nat := s.desc id 1
def State.descPort (s : State) (id : Nat) : Nat := s.desc id 2
/-- `KIND` of a stream's `PORT`: 0 none, 1 window, 2 Fold, 3 relay (R181). -/
def State.portKind (s : State) (id : Nat) : Nat := bitsOf (s.descPort id) 28 4

/-- Bytes of a stream that position `p` of a list carries: the remainder in the stream's last flit of the Round (R153). -/
def State.posBytes (s : State) (l : List Run) (p : Pos) : Nat :=
  let n := s.descBytes p.run.stream
  if posOrdinal l p + 1 = streamCount l p.run.stream && n % 240 != 0 then n % 240 else 240

/-- A position of Round `n` is void: its link is in Hold or Down, or was, and the void has not ended (R267, R358). -/
def State.isVoid (s : State) (n : Nat) : Bool := s.trn.void && (s.link == 8 || decide (n < s.trn.voidEnd))

/-- Flit time of R26 at a width and mode as a fraction of ticks (numerator, denominator). -/
def flitTime (w m : Nat) : Nat × Nat := (16 * 2 ^ m, max 1 w)

end Sys2Proof.Machine
end

