-- ==== Sys2Proof/Machine/Msg.lean ====
section
/-! DEFINITION. Messages (R60, R66–R72), ownership words and generations (R67, R230), and the requests that the instance makes
for itself (R177): tags, and the way they leave. -/

namespace Sys2Proof.Machine

/-! ### Message heads and fields -/

/-- Channel, length in pips, opcode and tag of a message head (R60). -/
structure Head where
  chan : Nat
  pips : Nat
  op : Nat
  tag : Nat
  deriving DecidableEq, Repr

/-- The head in the first 4 bytes of a pip. -/
def headOf (p : Pip) : Head :=
  let n := p.toNat
  { chan := bitsOf n 124 4, pips := bitsOf n 118 6 + 1, op := bitsOf n 112 6, tag := bitsOf n 96 16 }

/-- The head of a message. -/
def msgHead (m : List Pip) : Head := headOf (m.headD 0)
/-- Bytes 12–15 of pip 0. -/
def msgOw (m : List Pip) : Nat := (m.headD 0).toNat % 2 ^ 32
/-- Bytes 4–11 of pip 0. -/
def msgGa (m : List Pip) : Nat := bitsOf (m.headD 0).toNat 32 64
/-- Bytes 4–7 of pip 0. -/
def msgWord (m : List Pip) : Nat := bitsOf (m.headD 0).toNat 64 32

/-- A message: head, bytes 4–15 of pip 0 as a 96-bit number, and the following pips. -/
def mkMsg (chan op tag b : Nat) (rest : List Pip) : List Pip :=
  BitVec.ofNat 128 (chan * 2 ^ 124 + rest.length * 2 ^ 118 + op * 2 ^ 112 + tag % 2 ^ 16 * 2 ^ 96 + b % 2 ^ 96) :: rest

/-- A message whose content from byte 4 is given: the smallest `LEN` that covers it (R72). -/
def mkLong (chan op : Nat) (content : List Byte) : List Pip :=
  let l := beBytes 4 0 ++ content
  match bytesPips l with
  | [] => []
  | p :: r => BitVec.ofNat 128 (chan * 2 ^ 124 + r.length * 2 ^ 118 + op * 2 ^ 112 + p.toNat % 2 ^ 96) :: r

/-- The content of a message from byte 4. -/
def msgContent (m : List Pip) : List Byte := (pipsBytes m).drop 4

/-- The fixed pip count of an opcode (R68–R72): `none` for an unknown opcode, `some 0` where it varies. -/
def opPips (chan op : Nat) : Option Nat :=
  if chan = 0 then (if op = 1 || op == 8 then some 1 else if op = 3 then some 9 else if op = 4 then some 10 else none)
  else if chan = 1 then (if op = 1 then some 9 else if op = 2 || op == 3 || op == 15 then some 1 else none)
  else if chan = 2 then (if 1 ≤ op ∧ op ≤ 4 then some 1 else none)
  else if chan = 3 then (if op = 1 || op == 2 then some 1 else none)
  else if chan = 4 then (if op = 1 then some 0 else none)
  else if chan = 5 then (if op = 1 || op == 2 then some 0 else none)
  else none

/-- The message carries an OW with a generation: REQ, RSP and INTERRUPT (R230). -/
def carriesOw (m : List Pip) : Bool :=
  let h := msgHead m
  h.chan == 0 || h.chan == 1 || (h.chan == 3 && h.op == 1)

/-! ### Ownership, R67 and R230 -/

def owVi (ow : Nat) : Nat := bitsOf ow 24 8
def owGen (ow : Nat) : Nat := bitsOf ow 14 10
def owDie (ow : Nat) : Nat := bitsOf ow 9 5
def owPod (ow : Nat) : Nat := ow % 512

/-- The package's pod number. -/
def State.pod_ (s : State) : Nat := s.getF ID_POD_POD

/-- The OW of a message formed now for a VI. -/
def State.owFor (s : State) (vi : Nat) : Nat :=
  vi * 2 ^ 24 + s.getF (VI_ENT_GEN vi) * 2 ^ 14 + dieOf s.place * 2 ^ 9 + s.pod_

/-- The VI is Active, Reset pending or Destroy pending (R225). -/
def State.viActive (s : State) (vi : Nat) : Bool := s.getF (VI_ENT_STATE vi) != 0

/-- `(OW.GEN − t) mod 1,024` is 512 or more (R230). -/
def genOld (gen t : Nat) : Bool := 512 ≤ (gen + 1024 - t) % 1024

/-- The message's OW is stale by the instance's VI table. -/
def State.staleOw (s : State) (ow : Nat) : Bool := !s.viActive (owVi ow) || genOld (owGen ow) (s.getF (VI_ENT_GEN (owVi ow)))

/-! ### Global addresses -/

def gaSpace (ga : Nat) : Nat := bitsOf ga 62 2
def gaPod (ga : Nat) : Nat := bitsOf ga 53 9
def gaDie (ga : Nat) : Nat := bitsOf ga 48 5
/-- The die that a compute die is bonded to, or the die itself (R66). -/
def baseDie (d : Nat) : Nat := if 8 ≤ d ∧ d < 20 then (d - 8) / 2 + 1 else d
/-- The line that holds a byte. -/
def lineOf (ga : Nat) : Nat := ga / 128 * 128

/-- The home lies at the far end of the instance's own link: the peer's die, or the peer's package on a Far link. Every other
request leaves through the core side (log entry 21). -/
def State.ownRoute (s : State) (ga : Nat) : Bool :=
  if s.far then s.getB ID_TWIN_PEERPOD_VALID && gaPod ga == s.getF ID_TWIN_PEERPOD && gaPod ga != s.pod_
  else match peerIndex s.place with
    | some p => gaPod ga == s.pod_ && baseDie (gaDie ga) == dieOf p
    | none => false

/-! ### Messages out -/

/-- Queue a message for the instance's own link. -/
def State.queueMsg (s : State) (m : List Pip) (fromCore : Bool) : State :=
  { s with dlv := { s.dlv with tx := s.dlv.tx ++ [⟨m, fromCore⟩] } }

/-- The message at the head of a channel's queue, not yet started. -/
def State.headOfChan (s : State) (c : Nat) : Option TxMsg := s.dlv.tx.find? (fun t => (msgHead t.m).chan == c)

/-- The transmit window of a channel (R95). -/
def State.window (s : State) (c : Nat) : Nat := s.getF (DLV_WIN_WINDOW c)

/-- The message at the head of a channel's queue has too little window (R95). -/
def State.crStalled (s : State) (c : Nat) : Bool :=
  match s.headOfChan c with
  | none => false
  | some t => decide (s.window c < t.m.length)

/-- A byte of a capability record from its first register (R117, R137). -/
def State.capByte (s : State) (base b : Nat) : Nat := bitsOf (s.rd (base + 4 * (b / 4))) (24 - 8 * (b % 4)) 8
/-- A byte of the capability in use. -/
def State.used (s : State) (b : Nat) : Nat := s.capByte 0x4C0 b

/-- A channel qualifies: a message is ready, the window covers it, and the exchange and the used capability allow it (R74, R95, R101,
R102, R118). -/
def State.qualifies (s : State) (c : Nat) : Bool :=
  match s.headOfChan c with
  | none => false
  | some t => decide (t.m.length ≤ s.window c) && !(s.dlv.lowRoom.getD c false) && s.getB DLV_STATUS_CREDIT_OK && bitOf (s.used 11) c

/-- A channel has had a message until now (R103). -/
def State.noteBusy (s : State) (c : Nat) : State := { s with dlv := { s.dlv with quiet := listSet s.dlv.quiet c s.now } }

/-- Messages leave the queue unsent: their channels were busy until now (R103). -/
def State.dropTx (s : State) (p : TxMsg → Bool) : Dlv :=
  let gone := (s.dlv.tx.filter p).map (fun t => (msgHead t.m).chan)
  { s.dlv with tx := s.dlv.tx.filter (fun t => !p t)
               quiet := (List.range s.dlv.quiet.length).map (fun c => if gone.contains c then s.now else s.dlv.quiet.getD c 0) }

/-- Queue a link-control message; `body` starts at byte 8 of the flit (R123). -/
def State.queueLc (s : State) (body : List Byte) : State :=
  { s with dlv := { s.dlv with lc := s.dlv.lc ++ [⟨body, s.now⟩] } }

/-- Send a request on its way to the home of `ga`: over the own link, or on its route through the on-die network (R178, R185). On a link that is Down
already it waits as any message does (DESIGN CHOICE, log entry 163). -/
def State.sendReq (s : State) (own : Bool) (ga route : Nat) (m : List Pip) : State :=
  if own then s.queueMsg m false else s.emit (.request ga route m)

/-! ### Tags, R177 -/

/-- The tag range is invalid (R190). -/
def State.tagBad (s : State) : Bool :=
  let l := s.getF MOV_TAGS_LOG2
  let b := s.getF MOV_TAGS_BASE
  decide (l < 6 ∨ 14 < l) || b % 2 ^ l != 0 || decide (0x8000 < b + 2 ^ l)

/-- The first free tag of the range. -/
def State.freeTag (s : State) : Option Nat :=
  let b := s.getF MOV_TAGS_BASE
  ((List.range (2 ^ s.getF MOV_TAGS_LOG2)).map (fun i => 0x8000 + (b + i) % 0x8000)).find?
    (fun t => !s.mov.tags.any (fun x => x.tag == t))

/-- Issue one request of the instance with a free tag on a route: `mk` makes the message from tag and OW. `none` without a free tag. What is no line of a
descriptor goes on route 0 (DESIGN CHOICE, log entry 162). -/
def State.issue (s : State) (kind owner ring arg vi ga : Nat) (mk : Nat → Nat → List Pip) (route : Nat := 0) : Option State :=
  match s.freeTag with
  | none => none
  | some t =>
    let own := s.ownRoute ga
    let e : Tag := ⟨t, kind, owner, ring, arg, s.getF (VI_ENT_GEN vi), vi, s.now, s.tick, own, false, false⟩
    some (({ s with mov := { s.mov with tags := s.mov.tags ++ [e] } }).sendReq own ga route (mk t (s.owFor vi)))

/-- LINE-RD (R68). -/
def msgRead (ga tag ow : Nat) : List Pip := mkMsg 0 1 tag (lineOf ga * 2 ^ 32 + ow) []

/-- LINE-WR of a whole line. -/
def msgWrite (ga : Nat) (line : List Byte) (tag ow : Nat) : List Pip := mkMsg 0 3 tag (lineOf ga * 2 ^ 32 + ow) (bytesPips (padTo 128 line))

/-- LINE-WRM that enables bytes [skip, skip + data.length) of the line (R68). -/
def msgWriteSome (ga skip : Nat) (data : List Byte) (tag ow : Nat) : List Pip :=
  let mask := (List.range 128).foldl (fun a i => 2 * a + (if skip ≤ i ∧ i < skip + data.length then 1 else 0)) 0
  mkMsg 0 4 tag (lineOf ga * 2 ^ 32 + ow)
    (BitVec.ofNat 128 mask :: bytesPips (padTo 128 (List.replicate skip 0 ++ data)))

/-- A write of bytes that lie in one line: LINE-WR where they fill it, LINE-WRM otherwise (R178). -/
def msgWriteBytes (ga : Nat) (data : List Byte) (tag ow : Nat) : List Pip :=
  if ga % 128 = 0 && data.length == 128 then msgWrite ga data tag ow else msgWriteSome ga (ga % 128) data tag ow

/-- FENCE (R68). -/
def msgFence (scope num tag ow : Nat) : List Pip := mkMsg 0 8 tag ((scope * 2 ^ 30 + num % 2 ^ 30) * 2 ^ 64 + ow) []

/-- REQ-ERR (R69). -/
def msgReqErr (status tag ow : Nat) : List Pip := mkMsg 1 15 tag (status * 2 ^ 88 + ow) []

/-- INTERRUPT (R71). -/
def msgInterrupt (vector host ow : Nat) : List Pip := mkMsg 3 1 0 ((vector * 2 ^ 16 + host) * 2 ^ 64 + ow) []

/-- ADAPTER-EVENT (R71). -/
def msgEvent (word tick : Nat) : List Pip := mkMsg 3 2 0 (word * 2 ^ 64 + tick) []

/-- A piece of a byte range: its address and how many bytes lie in one line, for each line the range touches. -/
def pieces (ga len : Nat) : List (Nat × Nat) :=
  if len = 0 then [] else
  (List.range ((ga % 128 + len + 127) / 128)).map (fun i =>
    let a := if i = 0 then ga else lineOf ga + 128 * i
    (a, min (ga + len) (lineOf ga + 128 * (i + 1)) - a))

/-- Pieces of `len` bytes of a circular window at byte count `c` (R182). -/
def winPieces (base size c len : Nat) : List (Nat × Nat) :=
  let o := c % size
  if o + len ≤ size then pieces (base + o) len else pieces (base + o) (size - o) ++ pieces base (o + len - size)

/-- Bytes in a stream window. -/
def State.winSize (s : State) (w : Nat) : Nat := 128 * 2 ^ s.getF (MOV_SWIN_CFG_LOG2SIZE w)
def State.winEn (s : State) (w : Nat) : Bool := s.getB (MOV_SWIN_CFG_EN w)
/-- The window is a receive window. -/
def State.winRx (s : State) (w : Nat) : Bool := s.getB (MOV_SWIN_CFG_DIR w)
def State.winProd (s : State) (w : Nat) : Nat := s.getF (MOV_SWIN_PROD_PROD w)
def State.winCons (s : State) (w : Nat) : Nat := s.getF (MOV_SWIN_CONS_CONS w)
/-- `PROD` − `CONS` modulo 2^32. -/
def State.winHeld (s : State) (w : Nat) : Nat := (s.winProd w + 2 ^ 32 - s.winCons w) % 2 ^ 32

/-- Issue requests in order until one finds no free tag: the state and how many were issued. -/
def issueList : State → List (State → Option State) → State × Nat
  | s, [] => (s, 0)
  | s, r :: l =>
    match r s with
    | none => (s, 0)
    | some t => let q := issueList t l; (q.1, q.2 + 1)

end Sys2Proof.Machine
end

