-- ==== Sys2Proof/Machine/Fold.lean ====
section
/-! DEFINITION. The Fold unit (chapter 8): contexts, their validation, staging and flags, the combination of one element,
and the ordered accesses to stream windows that contexts and streams share (R182, R200). -/

namespace Sys2Proof.Machine

/-! ### Window accesses in order -/

/-- The context reads its anchors from a window (R204). -/
def State.ctxAnchored (s : State) (c : Nat) : Bool := s.getF (FOLD_CTX_CFG_OP c) == 8 && s.getB (FOLD_CTX_ANCHOR_ASRC c)

/-- The bytes of the next `n` flits of a transmit stream (R153). -/
def State.flitsAhead (s : State) (id n : Nat) : Nat :=
  let len := s.descBytes id
  let per := max 1 ((len + 239) / 240)
  let first := match s.curPos true with
    | some (k, p) => streamCount ((s.roundRuns true k).map (fun r => { r with len := min r.len (p.off - r.off) })) id
    | none => 0
  ((List.range n).map (fun i => if (first + i) % per + 1 = per && len % 240 != 0 then len % 240 else 240)).sum

/-- The window that a key reads, the bytes it may hold ahead, and the VI of its requests. -/
def State.keyWindow (s : State) (key : Nat) : Option (Nat × Nat × Nat) :=
  if key < 0x10000 then
    let w := s.descPort key % 32
    if s.portKind key = 1 && s.winEn w && !s.winRx w then some (w, s.flitsAhead key 64, s.descVi key) else none
  else
    let c := key % 0x10000 % 32
    let vi := bitsOf (s.rd (FOLD_CTX_CFG c)) 0 8
    if key < 0x20000 then
      let w := s.getF (FOLD_CTX_SRC_OPSEL c) % 32
      if s.run && s.getB (FOLD_CTX_CFG_EN c) && s.getB (FOLD_CTX_STATUS_OK c) && s.getF (FOLD_CTX_SRC_OPSRC c) == 1 && s.winEn w then some (w, max 1 (s.getF (FOLD_CTX_CFG_SEGS c)) * 4096, vi) else none
    else
      let w := s.getF (FOLD_CTX_ANCHOR_AWIN c)
      if s.run && s.getB (FOLD_CTX_CFG_EN c) && s.getB (FOLD_CTX_STATUS_OK c) && s.ctxAnchored c && s.winEn w then some (w, 128, vi) else none

/-- A Fold context. -/
def State.ctx (s : State) (c : Nat) : Ctx := s.fold.ctx.getD c Ctx.empty

/-- Replace a Fold context. -/
def State.setCtx (s : State) (c : Nat) (x : Ctx) : State := { s with fold := { s.fold with ctx := listSet s.fold.ctx c x } }

/-- Bytes of a stream supplied and not yet sent. -/
def State.readyOf (s : State) (id : Nat) : List Byte := ((s.trn.ready.find? (fun p => p.1 == id)).map (·.2)).getD []

/-- Replace the supplied bytes of a stream. -/
def State.setReady (s : State) (id : Nat) (l : List Byte) : State :=
  { s with trn := { s.trn with ready := s.trn.ready.filter (fun p => p.1 != id) ++ (if l.isEmpty then [] else [(id, l)]) } }

/-- The bytes that a key holds staged. -/
def State.stagedOf (s : State) (key : Nat) : Nat :=
  if key < 0x10000 then (s.readyOf key).length
  else if key < 0x20000 then (s.ctx (key % 0x10000)).opQ.length else (s.ctx (key % 0x10000)).ancQ.length

/-- Append bytes to what a key holds staged. -/
def State.stage_ (s : State) (key : Nat) (l : List Byte) : State :=
  if key < 0x10000 then s.setReady key (s.readyOf key ++ l)
  else
    let c := key % 0x10000
    let x := s.ctx c
    if key < 0x20000 then s.setCtx c { x with opQ := x.opQ ++ l } else s.setCtx c { x with ancQ := x.ancQ ++ l }

/-- Bytes of a key's accesses that have not taken effect. -/
def State.aheadOf (s : State) (key : Nat) : Nat := ((s.trn.ahead.filter (fun a => a.key == key)).map (·.len)).sum

/-- Bytes of staging that a context uses. -/
def Ctx.used (x : Ctx) : Nat := (x.inQ.filter Option.isSome).length + x.opQ.length + x.ancQ.length + x.outQ.length + 8 * x.held.length

/-- Segments that a context claims: at least one (R217). -/
def State.ctxSegs (s : State) (c : Nat) : Nat := max 1 (s.getF (FOLD_CTX_CFG_SEGS c))

/-- Bytes of a context's segments (R217). -/
def State.ctxCap (s : State) (c : Nat) : Nat := s.ctxSegs c * 8192

/-- Room left in a context's segments. -/
def State.ctxRoom (s : State) (c : Nat) : Nat := s.ctxCap c - (s.ctx c).used

/-- Bytes that are being read for a context. -/
def State.ctxReads (s : State) (c : Nat) : Nat := s.aheadOf (0x10000 + c) + s.aheadOf (0x20000 + c)

/-- Room left beside what is being read for a context. -/
def State.ctxFree (s : State) (c : Nat) : Nat := s.ctxRoom c - s.ctxReads c

/-- Read ahead for a key, as far as its window holds bytes and its limit leaves room (R182, R217). -/
def State.refill (s : State) (key : Nat) : State :=
  match s.keyWindow key with
  | none => s
  | some (w, limit, vi) =>
    let out := s.aheadOf key
    -- an anchor stays in the window until its block takes it (R204)
    let lead := if key < 0x20000 then out else out + s.stagedOf key
    let room := if key < 0x10000 then limit else s.ctxFree (key % 0x10000)
    let want := min (min (s.winHeld w - lead) (limit - (s.stagedOf key + out))) room
    let kind := if key < 0x10000 then 12 else if key < 0x20000 then 13 else 14
    let one (p : Nat × Nat) (t : State) : Option State :=
      (t.issue kind key 64 p.2 vi p.1 (msgRead p.1)).map (fun u =>
        let tag := (u.mov.tags.getLast?.map (·.tag)).getD 0
        { u with trn := { u.trn with ahead := u.trn.ahead ++ [⟨key, tag, p.1 % 128, p.2, 0, 0, none⟩] } })
    (issueList s ((winPieces (s.getW (MOV_SWIN_BASE w)) (s.winSize w) ((s.winCons w + lead) % 2 ^ 32) want).map one)).1

/-- Let the answered accesses at the front of a key's order take effect: reads move their bytes to staging and advance
`CONS`, writes advance `PROD`. -/
def State.settleAhead (s : State) (key : Nat) : Nat → State
  | 0 => s
  | fuel + 1 =>
    match s.trn.ahead.find? (fun a => a.key == key) with
    | none => s
    | some a =>
      match a.data with
      | none => s
      | some l =>
        let s := { s with trn := { s.trn with ahead := s.trn.ahead.erase a } }
        if key < 0x30000 then
          match s.keyWindow key with
          | none => s.settleAhead key fuel
          | some (w, _, _) =>
            let s := s.stage_ key (l.drop a.cut)
            (if key < 0x20000 then s.setF (MOV_SWIN_CONS_CONS w) (s.winCons w + a.len) else s).settleAhead key fuel
        else (s.setF (MOV_SWIN_PROD_PROD (key % 0x10000)) (s.winProd (key % 0x10000) + a.len)).settleAhead key fuel

/-- An access with this tag is answered with bytes. -/
def State.aheadAnswer (s : State) (tag : Nat) (line : List Byte) : State :=
  match s.trn.ahead.find? (fun a => a.tag == tag && a.data.isNone) with
  | none => s
  | some a =>
    let l := s.trn.ahead.map (fun x => if x == a then { x with data := some ((line.drop a.skip).take a.len) } else x)
    let s := { s with trn := { s.trn with ahead := l } }
    (s.settleAhead a.key s.trn.ahead.length).refill a.key

/-- The free bytes of a window that the instance writes. -/
def State.winRoom (s : State) (w : Nat) : Nat := s.winSize w - (s.winHeld w + s.aheadOf (0x30000 + w))

/-- The first access of a key that waits for a tag takes it. -/
def tagFirst (key tag : Nat) : List Ahead → List Ahead
  | [] => []
  | a :: l => if a.key == key && a.tag == 0 then { a with tag := tag } :: l else a :: tagFirst key tag l

/-- The window writes that wait are issued in order, as far as tags are free (R177). -/
def State.pumpWrites (s : State) : Nat → State
  | 0 => s
  | fuel + 1 =>
    match s.trn.writes with
    | [] => s
    | (w, vi, ga, data) :: r =>
      match s.issue 9 w 64 data.length vi ga (msgWriteBytes ga data) with
      | none => s
      | some u =>
        let tag := (u.mov.tags.getLast?.map (·.tag)).getD 0
        ({ u with trn := { u.trn with writes := r, ahead := tagFirst (0x30000 + w) tag u.trn.ahead } }).pumpWrites fuel

/-- Write bytes of Round `n` at a window's `PROD`, in order (R182, R200): a line for which no tag is free waits for one (R177). -/
def State.winWrite (s : State) (w vi n : Nat) (data : List Byte) : State :=
  let key := 0x30000 + w
  let ps := winPieces (s.getW (MOV_SWIN_BASE w)) (s.winSize w) ((s.winProd w + s.aheadOf key) % 2 ^ 32) data.length
  let ws := (ps.foldl (fun (a : List (Nat × Nat × Nat × List Byte) × Nat) p =>
    (a.1 ++ [(w, vi, p.1, (data.drop a.2).take p.2)], a.2 + p.2)) ([], 0)).1
  ({ s with trn := { s.trn with writes := s.trn.writes ++ ws, ahead := s.trn.ahead ++ ps.map (fun (p : Nat × Nat) => (⟨key, 0, 0, p.2, 0, n, none⟩ : Ahead)) } }).pumpWrites ps.length

/-! ### Contexts -/

def State.ctxEn (s : State) (c : Nat) : Bool := s.getB (FOLD_CTX_CFG_EN c)
def State.ctxOk (s : State) (c : Nat) : Bool := s.ctxEn c && s.getB (FOLD_CTX_STATUS_OK c)
def State.ctxVi (s : State) (c : Nat) : Nat := s.getF (FOLD_CTX_CFG_VI c)
def State.ctxOp (s : State) (c : Nat) : Nat := s.getF (FOLD_CTX_CFG_OP c)
def State.ctxIf (s : State) (c : Nat) : Nat := s.getF (FOLD_CTX_CFG_IFMT c)
def State.ctxOf (s : State) (c : Nat) : Nat := s.getF (FOLD_CTX_CFG_OFMT c)
/-- The format that travels into the context's IN: the partial format, or IFMT for XCODE (R196). -/
def State.ctxIn (s : State) (c : Nat) : Nat := (partialOf (s.ctxOp c) (s.ctxIf c)).getD (s.ctxIf c)
/-- Elements of a Round as they travel in partial format: one for each block with EXP input (R200). -/
def State.ctxUnits (s : State) (c : Nat) : Nat :=
  let n := s.getF (FOLD_CTX_COUNT_COUNT c)
  if s.ctxIf c = 9 then (n + 4095) / 4096 else n

/-- Segments claimed by the enabled contexts but `c` (R217). One whose claim did not fit holds none (DESIGN CHOICE, log entry 167). -/
def State.claimed (s : State) (c : Nat) : Nat :=
  (((List.range 32).filter (fun i => i != c && s.ctxEn i && s.getF (FOLD_CTX_STATUS_WHY i) != 5)).map
    s.ctxSegs).sum

/-- Unclaimed staging segments. -/
def State.segFree (s : State) : Nat := 32 - s.claimed 32

/-- A relay selector names a context of another instance of the same die (R198; log entry 22). -/
def State.relayOk (s : State) (sel : Nat) : Bool := decide (sel / 32 < 114) && sel / 32 != s.place && dieOf (sel / 32) == dieOf s.place

/-- A stream of the context is VALID, has the right DIR, names it back, and carries `n` elements of a format for its VI. -/
def State.ctxStream (s : State) (c id : Nat) (rx : Bool) (fmt n : Nat) : Bool :=
  s.descValid id && s.descRx id == rx && s.portKind id == 2 && s.descPort id % 2 ^ 28 == c && s.descBytes id == elemBytes fmt n
    && s.descVi id == s.ctxVi c

/-- The context has a relay (R198). -/
def State.ctxRelays (s : State) (c : Nat) : Bool :=
  s.getF (FOLD_CTX_SRC_INSRC c) == 2 || s.getF (FOLD_CTX_SRC_OPSRC c) == 2 || s.getF (FOLD_CTX_DST_OUTDST c) == 2

/-- The reason for which a context is not valid, R199; 0 when it is, and the first by its code where several hold (DESIGN CHOICE, log entry 164). `named`:
its relay partners name it. One of a VI that the guest owns has no valid stream (R226; log entry 145). -/
def State.ctxWhy (s : State) (c : Nat) (named : Bool) : Nat :=
  let op := s.ctxOp c
  let i := s.ctxIf c
  let o := s.ctxOf c
  let n := s.getF (FOLD_CTX_COUNT_COUNT c)
  let isrc := s.getF (FOLD_CTX_SRC_INSRC c)
  let osrc := s.getF (FOLD_CTX_SRC_OPSRC c)
  let odst := s.getF (FOLD_CTX_DST_OUTDST c)
  let isel := s.getF (FOLD_CTX_SRC_INSEL c)
  let osel := s.getF (FOLD_CTX_SRC_OPSEL c)
  let dsel := s.getF (FOLD_CTX_DST_OUTSEL c)
  let pf := partialOf op i
  let fmtOk := match pf with
    | none => op == 0 && xcodePair i o
    | some p => if odst = 1 then (if p = 8 then o == 0 || o == 1 || o == 8 else xcodePair p o) else o == p
  if !fmtOk || n == 0 || ((isMx i || isMx o) && n % 32 != 0) then 1
  else if isrc = 3 || osrc == 3 || odst == 3 || (if op = 0 then (isrc == 0) == (osrc == 0) else isrc == 0 && osrc == 0) then 2
  else if osrc = 1 && !(s.winEn (osel % 32) && !s.winRx (osel % 32)) then 2
  else if odst = 1 && !(s.winEn (dsel % 32) && s.winRx (dsel % 32)) then 2
  else if op = 8 && s.getB (FOLD_CTX_ANCHOR_ASRC c)
      && !(s.winEn (s.getF (FOLD_CTX_ANCHOR_AWIN c)) && !s.winRx (s.getF (FOLD_CTX_ANCHOR_AWIN c))) then 2
  else if s.getB (VI_ENT_GUEST (s.ctxVi c)) then 3
  else if isrc = 1 && !s.ctxStream c (isel % 1024) true (s.ctxIn c) (s.ctxUnits c) then 3
  else if odst = 0 && !s.ctxStream c (dsel % 1024) false o (s.ctxUnits c) then 3
  else if (isrc = 2 && !s.relayOk isel) || (osrc = 2 && !s.relayOk osel) || (odst = 2 && !s.relayOk dsel) || (s.ctxRelays c && !named) then 4
  else if 32 < s.claimed c + s.ctxSegs c then 5
  else 0

/-- Validate a context (R199): `OK` and `WHY` are set. Whether its relay partners, contexts of other instances, name it is a free value (log
entry 147). -/
def State.validate (s : State) (c : Nat) : State :=
  let y := s.ctxWhy c (s.freeNow.toNat % 2 == 1)
  let s := if s.ctxRelays c then s.takeFree else s
  (s.setF (FOLD_CTX_STATUS_WHY c) y).setB (FOLD_CTX_STATUS_OK c) (y == 0)

/-- Validate every enabled context, at a fit check. -/
def State.validateAll (s : State) : State := ((List.range 32).filter s.ctxEn).foldl State.validate s

/-- Raise a context's sticky flags, and the events of R216. -/
def State.ctxFlag (s : State) (c f : Nat) : State :=
  let old := s.getF (FOLD_CTX_STATUS_FLAGS c)
  let s := s.setF (FOLD_CTX_STATUS_FLAGS c) (old ||| f)
  let s := s.setF FOLD_FLAGS_FLAGS (s.getF FOLD_FLAGS_FLAGS ||| f)
  let new := f &&& (63 - old)
  let s := if new &&& (fNV ||| fOF ||| fAX) != 0 then s.raise 0x0501 else s
  if new &&& fLOST != 0 then s.raise 0x0502 else s

/-- Released or relayed IN data enters a context; without room it is an overrun (R219). -/
def State.feedIn (s : State) (c : Nat) (data : List Byte) : State :=
  let x := s.ctx c
  if data.length ≤ s.ctxFree c then s.setCtx c { x with inQ := x.inQ ++ data.map some }
  else (s.setCtx c { x with inQ := x.inQ ++ data.map (fun _ => none) }).ctxFlag c fLOST

/-- The context takes poison for `n` bytes of IN (R219, R267). -/
def State.feedPoison (s : State) (c n : Nat) : State :=
  let x := s.ctx c
  (s.setCtx c { x with inQ := x.inQ ++ List.replicate n none }).ctxFlag c fLOST

/-- The data of Round `n` has come to a context's IN. -/
def State.noteRound (s : State) (c n : Nat) : State :=
  let x := s.ctx c
  if x.rounds.contains n then s else s.setCtx c { x with rounds := x.rounds ++ [n] }

/-- Stream data of Round `n` enters a context; `none` for poison. -/
def State.intoFold (s : State) (c n : Nat) (data : List (Option Byte)) : State :=
  ((if data.all Option.isNone then s.feedPoison c data.length else s.feedIn c (data.filterMap id))).noteRound c n

/-- Stream data goes to a context through crossing 3, where it waits while that is closed. -/
def State.toFold (s : State) (c n : Nat) (data : List (Option Byte)) : State :=
  if s.xOpen 3 then s.intoFold c n data else s.hold 3 (.fold c n data)

/-- The window is the OUT of a context. -/
def State.ctxWindow (s : State) (w : Nat) : Bool :=
  (List.range 32).any (fun c => s.ctxEn c && s.getF (FOLD_CTX_DST_OUTDST c) == 1 && s.getF (FOLD_CTX_DST_OUTSEL c) % 32 == w)

/-- Every context abandons its Round: staged data is discarded and window counters stay (R200). -/
def State.abandon (s : State) : State :=
  { s with fold := { s.fold with ctx := s.fold.ctx.map (fun x => { Ctx.empty with rc := x.rc }) }
           trn := { s.trn with ahead := s.trn.ahead.filter (fun a => decide (a.key < 0x10000)
                                 || (decide (0x30000 ≤ a.key) && !s.ctxWindow (a.key % 0x10000)))
                               writes := s.trn.writes.filter (fun p => !s.ctxWindow p.1) } }

/-! ### One element -/

/-- The bytes of a unit of IN, or none where an overrun discarded any of them. -/
def unitOf (l : List (Option Byte)) (n : Nat) : Option (List Byte) :=
  let u := l.take n
  if u.all Option.isSome then some (u.filterMap id) else none

/-- Operand bits in partial format: converted from IFMT when they come from a window (exact, R201), as they are from a
relay. -/
def toPartial (i p b : Nat) : Nat := (convElem i p false .even b).val

/-- A partial result leaves the context: converted to OFMT at a window (R201, R208), in 32s for an MX format. -/
def State.ctxOut (s : State) (c p b : Nat) : State :=
  let x := s.ctx c
  let o := s.ctxOf c
  let j := x.rc * 2 ^ 32 + x.elem
  let sat := s.getB (FOLD_CTX_CFG_SAT c)
  let sr := s.getB (FOLD_CTX_CFG_SR c)
  let seed := s.getW (FOLD_CTX_SEED c)
  let put (s : State) (l : List Byte) (f n : Nat) : State :=
    ((s.setCtx c { s.ctx c with outQ := (s.ctx c).outQ ++ l }).ctxFlag c f).count CNT_FOLD_ELEMS n
  if isMx o then
    let l := x.held ++ [b]
    if l.length < 32 then s.setCtx c { x with held := l }
    else
      let r := mxEncode o (fun k => rndFor sr o seed (x.rc * 2 ^ 32 + (x.elem - 31) + k))
        (l.map (fun v => ((ffmt p).map (fun f => f.decode v)).getD (.fin false 0 0)))
      put (s.setCtx c { x with held := [] }) r.val r.flags 32
  else if p = 8 && o != 8 then
    match ffmt o with
    | some f => let r := apOut f x.anchor (apOf b); put s (beBytes (elemBits o / 8) r.val) r.flags 1
    | none => s
  else
    let r := convElem p o sat (rndFor sr o seed j) b
    put s (beBytes (elemBits o / 8) r.val) r.flags 1

/-- Elements `n` of the Round are done; after the last the context starts the next Round (R200). The Round done is that of the stream data
that it took; without any, the current one. -/
def State.ctxNext (s : State) (c n : Nat) : State :=
  let x := s.ctx c
  let last : Ctx :=
    { x with elem := 0, rc := x.rc + 1, emax := -1075, bad := false, rounds := x.rounds.drop 1, made := x.made + 1
             owed := if s.getF (FOLD_CTX_DST_OUTDST c) = 1 then x.owed ++ [(x.rounds.headD s.tim.round, x.outQ.length)] else [] }
  s.setCtx c (if s.getF (FOLD_CTX_COUNT_COUNT c) ≤ x.elem + n then last else { x with elem := x.elem + n })

/-- The combination of IN and OPND partials by operation `op` in partial format `p`, with its flags. -/
def combine (op p : Nat) (a b : Option Nat) : Fl Nat :=
  match a, b with
  | none, none => ⟨0, 0⟩
  | some x, none => ⟨x, 0⟩
  | none, some y =>
    if op = 4 then
      match ffmt p with
      | some f => (match fsquare (f.decode y) with
        | ⟨.nan .., g⟩ => ⟨f.canonical, g⟩
        | ⟨v, g⟩ => let r := f.encode false .even v; ⟨r.val, r.flags ||| g⟩)
      | none => foldInt (elemBits p) 4 0 y
    else ⟨y, 0⟩
  | some x, some y =>
    match ffmt p with
    | some f => foldFloat f op (f.decode x) (f.decode y)
    | none => if p = 8 then (let r := apAdd (apOf x) (apOf y); ⟨r.val.bits, r.flags⟩) else foldInt (elemBits p) op x y

/-- The anchor of the element's block: taken at its first element, when the window advances past it (R204). `none` while it has not come. -/
def State.takeAnchor (s : State) (c : Nat) : Option State :=
  let x := s.ctx c
  if s.ctxOp c != 8 then some s
  else if !s.getB (FOLD_CTX_ANCHOR_ASRC c) then some (s.setCtx c { x with anchor := anchorOf (signed 16 (s.getF (FOLD_CTX_ANCHOR_A c))) })
  else if x.elem % 4096 != 0 then some s
  else if x.ancQ.length < 4 then none
  else
    let w := s.getF (FOLD_CTX_ANCHOR_AWIN c)
    let s := s.setCtx c { x with anchor := anchorOf (signed 32 (bytesAt x.ancQ 0 4)), ancQ := x.ancQ.drop 4 }
    some (s.setF (MOV_SWIN_CONS_CONS w) (s.winCons w + 4))

/-- Which of `n` elements of a format overruns have discarded, in whole or in part (R219): with its scale all of an MX block is lost. -/
def lostElems (i n : Nat) (u : List (Option Byte)) : List Bool :=
  let gone (b : Nat) : Bool := (u.getD b none).isNone
  let w := elemBits i
  (List.range n).map (fun k =>
    if isMx i then
      let b := elemBytes i 32 * (k / 32)
      gone b || gone (b + 1 + k % 32 * w / 8) || gone (b + 1 + ((k % 32 + 1) * w - 1) / 8)
    else (List.range (w / 8)).any (fun j => gone (w / 8 * k + j)))

/-- An XCODE of elements of which some are lost: each lost one is poison in its place, and an MX block that it falls in has NaN (R212, R219). -/
def convLost (o : Nat) (conv : List Byte → Fl (List Byte)) (lost : List Bool) (u : List (Option Byte)) : Fl (List Byte) :=
  let r := conv (u.map (·.getD 0))
  let r := if lost.all id then { r with flags := 0 } else r
  if isMx o then ⟨beBytes 1 0xFF ++ List.replicate (elemBytes o 32 - 1) 0, r.flags⟩
  else
    let w := elemBits o / 8
    ⟨lost.zipIdx.flatMap (fun p => if p.1 then beBytes w (poisonOf o) else (r.val.drop (w * p.2)).take w), r.flags⟩

/-- Combine the next element of a context (R219): none while an input or its anchor has not come. An XCODE to or from
an MX format takes its 32 elements at once; EXP takes one operand, or one block without them. -/
def State.combineOne (s : State) (c : Nat) : Option State :=
  let op := s.ctxOp c
  let i := s.ctxIf c
  let o := s.ctxOf c
  let hasIn := s.getF (FOLD_CTX_SRC_INSRC c) != 0
  let osrc := s.getF (FOLD_CTX_SRC_OPSRC c)
  let x := s.ctx c
  if op = 0 then
    let n := if isMx i || isMx o then 32 else 1
    let bytes := elemBytes i n
    let j := x.rc * 2 ^ 32 + x.elem
    let conv (l : List Byte) := convRange i o (s.getB (FOLD_CTX_CFG_SAT c)) (s.getB (FOLD_CTX_CFG_SR c)) (s.getW (FOLD_CTX_SEED c)) j n l
    if (if hasIn then x.inQ.length else x.opQ.length) < bytes then none else
    let src := if hasIn then x.inQ.take bytes else (x.opQ.take bytes).map some
    let x' := if hasIn then { x with inQ := x.inQ.drop bytes } else { x with opQ := x.opQ.drop bytes }
    let lost := lostElems i n src
    let r := if lost.contains true then convLost o conv lost src else conv (src.map (·.getD 0))
    let s := ((s.setCtx c { x' with outQ := x'.outQ ++ r.val }).ctxFlag c r.flags).count CNT_FOLD_LOST (lost.filter id).length
    some ((s.count CNT_FOLD_ELEMS n).ctxNext c n)
  else if i = 9 && osrc == 1 then
    let last := x.elem % 4096 == 4095 || x.elem + 1 == s.getF (FOLD_CTX_COUNT_COUNT c)
    if x.opQ.length < 8 || (last && hasIn && decide (x.inQ.length < 4)) then none else
    let e := match ffmt 0 with | some f => expOf (f.decode (bytesAt x.opQ 0 8)) | none => -1075
    let m := max x.emax e
    let x := { x with opQ := x.opQ.drop 8, emax := m }
    if !last then some ((s.setCtx c x).ctxNext c 1) else
    let s := s.setCtx c { x with inQ := if hasIn then x.inQ.drop 4 else x.inQ, emax := -1075 }
    if !hasIn then some ((s.ctxOut c 6 (unsigned 32 m)).ctxNext c 1) else
    match unitOf x.inQ 4 with
    | some l => some ((s.ctxOut c 6 (unsigned 32 (max m (signed 32 (ofBytes l))))).ctxNext c 1)
    | none => some (((s.count CNT_FOLD_LOST).ctxOut c 6 (poisonOf 6)).ctxNext c 1)
  else
    match partialOf op i, s.takeAnchor c with
    | some p, some s =>
      let x := s.ctx c
      let pb := elemBits p / 8
      let fromWin := osrc == 1
      let ob := if fromWin then elemBits i / 8 else pb
      let hasOp := osrc != 0
      if (hasIn && decide (x.inQ.length < pb)) || (hasOp && decide (x.opQ.length < ob)) then none else
      let n := if i = 9 then min 4096 (s.getF (FOLD_CTX_COUNT_COUNT c) - x.elem) else 1
      let raw := bytesAt x.opQ 0 ob
      let opv : Option (Fl Nat) :=
        if !hasOp then none
        else if !fromWin then some ⟨raw, 0⟩
        else if op = 8 then
          (ffmt 0).map (fun f => let r := apConvert x.anchor (f.decode raw); ⟨r.val.bits, r.flags⟩)
        else some ⟨toPartial i p raw, 0⟩
      let unit := unitOf x.inQ pb
      let s := s.setCtx c { x with inQ := if hasIn then x.inQ.drop pb else x.inQ, opQ := x.opQ.drop (if hasOp then ob else 0) }
      if hasIn && unit.isNone then some (((s.count CNT_FOLD_LOST).ctxOut c p (poisonOf p)).ctxNext c n) else
      let inv := if hasIn then unit.map ofBytes else none
      let r := combine op p inv (opv.map (·.val))
      let f := r.flags ||| ((opv.map (·.flags)).getD 0)
      let made := (if p = 8 && r.val == 2 ^ 191 && inv != some (2 ^ 191) && (opv.map (·.val)) != some (2 ^ 191) then 1 else 0)
        + (if p = 8 && fromWin && (opv.map (·.val)) == some (2 ^ 191) then 1 else 0)
      some ((((s.ctxFlag c f).count CNT_FOLD_NAR made).ctxOut c p r.val).ctxNext c n)
    | _, _ => none

/-- A context has a stream. -/
def State.ctxStreams (s : State) (c : Nat) : Bool := s.getF (FOLD_CTX_SRC_INSRC c) == 1 || s.getF (FOLD_CTX_DST_OUTDST c) == 0

/-- The Rounds before Round `n` of the running schedule in which a stream of a context has runs (R200). -/
def State.roundsWith (s : State) (c n : Nat) : Nat :=
  let has (m : Nat) : Bool :=
    (s.getF (FOLD_CTX_SRC_INSRC c) == 1 && streamCount (s.roundRuns false m) (s.getF (FOLD_CTX_SRC_INSEL c) % 1024) != 0)
      || (s.getF (FOLD_CTX_DST_OUTDST c) == 0 && streamCount (s.roundRuns true m) (s.getF (FOLD_CTX_DST_OUTSEL c) % 1024) != 0)
  let cyc := s.getF TURN_LEN_CYCLE + 1
  let total := n - s.trn.first
  total / cyc * ((List.range cyc).filter (fun i => has (s.trn.first + i))).length + ((List.range (total % cyc)).filter (fun i => has (s.trn.first + i))).length

/-- The context has a Round to work on: one in progress, one whose IN data comes, or one that has begun in which its OUT stream has runs and
that is not done (R200). One with no stream works as its data comes. -/
def State.ctxMay (s : State) (c : Nat) : Bool :=
  (s.ctx c).elem != 0 || s.getF (FOLD_CTX_SRC_INSRC c) == 1 || s.getF (FOLD_CTX_DST_OUTDST c) != 0
    || decide ((s.ctx c).made < s.roundsWith c (s.tim.round + 1))

/-- Combine the next element of a context of a Round that it works on, where its result finds room beside what is held and being read (R200, R217,
R219). -/
def State.combineNext (s : State) (c : Nat) : Option State :=
  if !s.ctxMay c then none else
  match s.combineOne c with
  | some t => if (t.ctx c).used + s.ctxReads c ≤ max (s.ctxCap c) ((s.ctx c).used + s.ctxReads c) then some t else none
  | none => none

/-- A held IN element waits for its operand or its anchor (R219). -/
def State.opWait (s : State) (c : Nat) : Bool :=
  let x := s.ctx c
  s.run && s.ctxOk c && s.getF (FOLD_CTX_SRC_INSRC c) != 0 && s.ctxOp c != 0 && decide (elemBits (s.ctxIn c) / 8 ≤ x.inQ.length)
    && (s.combineOne c).isNone

/-! ### Slots, R192 and R218 -/

/-- Eighths of a slot for one element's conversion between two formats (R192); none between equal ones. -/
def convSlots (i o : Nat) : Nat :=
  let side (p : Nat → Bool) : Bool := p i || p o
  if i = o then 0
  else if side (fun f => f == 4 || f == 5 || isMx f) then 1
  else if side (fun f => f == 2 || f == 3) then 2
  else 4

/-- Eighths of a slot for one operation in a partial format (R192). -/
def opSlots (p : Nat) : Nat := if p = 8 then 16 else if p = 0 || p = 7 then 8 else 4

/-- Eighths of a slot for the next element of a context, its steps added (R192). The conversion of a narrow operand is part of an operation in FP32. -/
def State.slotCost (s : State) (c : Nat) : Nat :=
  let op := s.ctxOp c
  let i := s.ctxIf c
  let o := s.ctxOf c
  let hasIn := s.getF (FOLD_CTX_SRC_INSRC c) != 0
  let osrc := s.getF (FOLD_CTX_SRC_OPSRC c)
  let x := s.ctx c
  if op = 0 then (if isMx i || isMx o then 32 else 1) * convSlots i o
  else if i = 9 && osrc == 1 then
    2 + (if hasIn && (x.elem % 4096 == 4095 || x.elem + 1 == s.getF (FOLD_CTX_COUNT_COUNT c)) then opSlots 6 else 0)
  else
    let p := s.ctxIn c
    let work := (hasIn && osrc != 0) || (op == 4 && !hasIn)
    (if osrc != 1 then 0 else if op = 8 then 4 else if work then 0 else convSlots i p) + (if work then opSlots p else 0)
      + (if s.getF (FOLD_CTX_DST_OUTDST c) = 1 then convSlots p o else 0)

/-- The arithmetic cycle that a tick lies in: 940 MHz against ticks of 320 ps (R192, R353). -/
def cycleOf (t : Nat) : Nat := t * 188 / 625

/-- The first tick of an arithmetic cycle. -/
def cycleStart (k : Nat) : Nat := (k * 625 + 187) / 188

/-- Eighths of a slot spent in the arithmetic cycle that runs. -/
def State.slotsSpent (s : State) : Nat := if s.fold.cycle = cycleOf s.now then s.fold.slots else 0

/-- Slots are spent in the arithmetic cycle that runs. -/
def State.spendSlots (s : State) (q : Nat) : State := { s with fold := { s.fold with cycle := cycleOf s.now, slots := s.slotsSpent + q } }

end Sys2Proof.Machine
end

