-- ==== Sys2Proof/Machine/Flit.lean ====
section
/-! DEFINITION. The codes of the wire: the flit and its header (R53, R54), CRC-64 (R59), CRC-16 of SB frames (R32),
RS(136,128) (R36), interleaving (R37), striping (R38) and the scrambler (R35). -/

namespace Sys2Proof.Machine

/-! ### Cyclic redundancy checks -/

/-- One bit of an unreflected CRC of width `w`. -/
def crcBit (w poly c : Nat) : Nat := if 2 ^ (w - 1) ≤ c then (2 * c - 2 ^ w) ^^^ poly else 2 * c

/-- One byte of an unreflected CRC, most significant bit first. -/
def crcByte (w poly c : Nat) (b : Byte) : Nat :=
  (List.range 8).foldl (fun c _ => crcBit w poly c) (c ^^^ (b.toNat * 2 ^ (w - 8)))

/-- CRC-64/ECMA-182, R59. -/
def crc64 (l : List Byte) : Nat := l.foldl (crcByte 64 0x42F0E1EBA9EA3693) 0

/-- CRC-16/IBM-3740 of SB frames, R32. -/
def crc16 (l : List Byte) : Nat := l.foldl (crcByte 16 0x1021) 0xFFFF

/-- One byte of the reflected CRC-32. -/
def crc32Byte (c : Nat) (b : Byte) : Nat :=
  (List.range 8).foldl (fun c _ => if c % 2 = 1 then (c / 2) ^^^ 0xEDB88320 else c / 2) (c ^^^ b.toNat)

/-- CRC-32 (IEEE 802.3), R156. -/
def crc32 (l : List Byte) : Nat := l.foldl crc32Byte 0xFFFFFFFF ^^^ 0xFFFFFFFF

/-! ### GF(2^8) and RS(136,128), R36 -/

/-- Multiplication by α. -/
def gfDouble (a : Nat) : Nat := if 128 ≤ a then (2 * a) ^^^ 0x11D else 2 * a

/-- The product of two field elements. -/
def gfMul (a b : Nat) : Nat :=
  ((List.range 8).foldl (fun (p : Nat × Nat) i => (gfDouble p.1, if bitOf b i then p.2 ^^^ p.1 else p.2)) (a, 0)).2

/-- α^n. -/
def gfAlpha (n : Nat) : Nat := (List.range (n % 255)).foldl (fun a _ => gfDouble a) 1

/-- The inverse of a non-zero element: its power 254. -/
def gfInv (a : Nat) : Nat :=
  ((List.range 7).foldl (fun (p : Nat × Nat) _ => let q := gfMul p.1 p.1; (q, gfMul p.2 q)) (a, 1)).2

/-- The coefficients of g(x) below its leading one, highest degree first. -/
def rsGen : List Nat :=
  ((List.range 8).foldl (fun g i => List.zipWith (· ^^^ ·) (g ++ [0]) (0 :: g.map (gfMul (gfAlpha i)))) [1]).drop 1

/-- The eight parity symbols of 128 message symbols. -/
def rsParity (msg : List Nat) : List Nat :=
  msg.foldl (fun p m => let fb := m ^^^ p.headD 0; List.zipWith (· ^^^ ·) (p.drop 1 ++ [0]) (rsGen.map (gfMul fb)))
    (List.replicate 8 0)

/-- The eight syndromes of 136 symbols. -/
def rsSyndromes (r : List Nat) : List Nat :=
  (List.range 8).map (fun i => let a := gfAlpha i; r.foldl (fun acc x => gfMul acc a ^^^ x) 0)

/-- A polynomial at a point; coefficients lowest degree first. -/
def gfEval (p : List Nat) (x : Nat) : Nat := p.foldr (fun c acc => gfMul acc x ^^^ c) 0

/-- The sum of two polynomials. -/
def gfAdd : List Nat → List Nat → List Nat
  | [], q => q
  | p, [] => p
  | a :: p, b :: q => (a ^^^ b) :: gfAdd p q

/-- What the locator search carries: locator, previous locator, length, gap and previous discrepancy. -/
structure RsSearch where
  loc : List Nat
  prev : List Nat
  len : Nat
  gap : Nat
  disc : Nat
  deriving DecidableEq, Repr

/-- One step of the search for the error locator (Berlekamp–Massey). -/
def rsSearchStep (syn : List Nat) (q : RsSearch) (n : Nat) : RsSearch :=
  let d := (List.range (q.len + 1)).foldl (fun a i => a ^^^ gfMul (q.loc.getD i 0) (if i ≤ n then syn.getD (n - i) 0 else 0)) 0
  if d = 0 then { q with gap := q.gap + 1 } else
  let next := gfAdd q.loc (List.replicate q.gap 0 ++ q.prev.map (gfMul (gfMul d (gfInv q.disc))))
  if 2 * q.len ≤ n then ⟨next, q.loc, n + 1 - q.len, 1, d⟩ else { q with loc := next, gap := q.gap + 1 }

/-- The errors of a word of 136 symbols: (symbol index, value to add), at most four; none when no codeword lies within
four symbols of it (R36: each codeword corrects up to 4 symbol errors). -/
def rsErrors (r : List Nat) : Option (List (Nat × Nat)) :=
  let syn := rsSyndromes r
  if syn.all (· == 0) then some [] else
  let q := (List.range 8).foldl (rsSearchStep syn) ⟨[1], [1], 0, 1, 1⟩
  let omega := (List.range 8).map (fun k =>
    (List.range (k + 1)).foldl (fun a i => a ^^^ gfMul (q.loc.getD i 0) (syn.getD (k - i) 0)) 0)
  let deriv := (List.range (q.loc.length - 1)).map (fun i => if i % 2 = 0 then q.loc.getD (i + 1) 0 else 0)
  let at_ := (List.range 136).filter (fun j => gfEval q.loc (gfAlpha (255 - (135 - j))) == 0)
  let errs := at_.map (fun j =>
    let xi := gfAlpha (255 - (135 - j))
    (j, gfMul (gfAlpha (135 - j)) (gfMul (gfEval omega xi) (gfInv (gfEval deriv xi)))))
  let fixed := errs.foldl (fun l e => l.set e.1 (l.getD e.1 0 ^^^ e.2)) r
  if q.len ≤ 4 && at_.length == q.len && (rsSyndromes fixed).all (· == 0) then some errs else none

/-! ### The wire flit -/

/-- The 272 bytes w[0]–w[271] of a wire flit, w[0] most significant. -/
def wireBytes (w : BitVec 2176) : List Byte := beBytes 272 w.toNat

/-- 272 bytes as a wire flit. -/
def wireOf (l : List Byte) : BitVec 2176 := BitVec.ofNat 2176 (ofBytes l)

/-- Elements with an even (`0`) or odd (`1`) index: codewords A and B of R37. -/
def codeword (p : Nat) (l : List Byte) : List Nat := (List.range 136).map (fun i => (l.getD (2 * i + p) 0).toNat)

/-- The scrambler's next eight bits and its next register, R35: the output is the stage of x^31, the register moves
toward it, and the stages of x^31 and x^28 feed the first (log entry 10). Eight steps depend only on bits already held. -/
def scramByte (r : Nat) : Nat × Nat := (r / 2 ^ 23, (r * 256 + (r / 2 ^ 23 ^^^ r / 2 ^ 20) % 256) % 2 ^ 31)

/-- The seed of a lane for a flit group, R35. -/
def scramSeed (lane g : Nat) : Nat := 0x7FFFFFFF ^^^ (lane * 0x10000) ^^^ (g % 0x10000)

/-- The first `n` scrambler bytes from a register. -/
def scramBytes : Nat → Nat → List Nat
  | 0, _ => []
  | n + 1, r => (scramByte r).1 :: scramBytes n (scramByte r).2

/-- Flits in a group, R38. -/
def groupSize (w : Nat) : Nat := if w = 12 then 3 else 1

/-- Position that carries wire byte `j` of flit `f` of a group, R38. -/
def wirePos (w f j : Nat) : Nat := (272 * f + j) % w

/-- The scrambler byte for each of the 272 wire bytes of flit `f` of group `g`, given the lane of each position. -/
def scramMask (map : List Nat) (g f : Nat) : List Nat :=
  let w := max 1 map.length
  let streams := map.map (fun lane => scramBytes ((272 * (f + 1) + w - 1) / w) (scramSeed lane g))
  (List.range 272).map (fun j => (streams.getD (wirePos w f j) []).getD ((272 * f + j) / w) 0)

/-- Apply the scrambler to wire bytes; the same operation undoes it. -/
def scramble (map : List Nat) (g f : Nat) (l : List Byte) : List Byte :=
  List.zipWith (fun b m => b ^^^ BitVec.ofNat 8 m) l (scramMask map g f)

/-- The wire bytes of 256 flit bytes before scrambling: two codewords interleaved (R36, R37). -/
def encodeFlit (flit : List Byte) : List Byte :=
  let m := flit.map (·.toNat)
  let a := m.take 128 ++ rsParity (m.take 128)
  let b := (m.drop 128).take 128 ++ rsParity ((m.drop 128).take 128)
  (List.range 272).map (fun i => BitVec.ofNat 8 ((if i % 2 = 0 then a else b).getD (i / 2) 0))

/-- The header of a flit, R54. -/
structure Hdr where
  seq : Nat
  ack : Nat
  cch : Nat
  cpips : Nat
  kind : Nat
  beat : Bool
  strm : Bool
  nak : Bool
  firsthead : Nat
  deriving DecidableEq, Repr

/-- Read a header. -/
def hdrOf (h : Nat) : Hdr :=
  { seq := bitsOf h 48 16, ack := bitsOf h 32 16, cch := bitsOf h 28 4, cpips := bitsOf h 18 10, kind := bitsOf h 16 2,
    beat := bitOf h 15, strm := bitOf h 14, nak := bitOf h 13, firsthead := bitsOf h 9 4 }

/-- Write a header; reserved bits are zero (R5). -/
def Hdr.bits (h : Hdr) : Nat :=
  h.seq % 2 ^ 16 * 2 ^ 48 + h.ack % 2 ^ 16 * 2 ^ 32 + h.cch % 16 * 2 ^ 28 + h.cpips % 1024 * 2 ^ 18 + h.kind % 4 * 2 ^ 16
    + (if h.beat then 2 ^ 15 else 0) + (if h.strm then 2 ^ 14 else 0) + (if h.nak then 2 ^ 13 else 0) + h.firsthead % 16 * 2 ^ 9

/-- The 256 bytes of a flit (R53). -/
def flitBytes (hdr : Nat) (slots : List Pip) : List Byte :=
  let l := beBytes 8 hdr ++ padTo 240 (pipsBytes slots)
  l ++ beBytes 8 (crc64 l)

/-- The 15 slots of 256 flit bytes. -/
def flitSlots (l : List Byte) : List Pip := bytesPips (padTo 240 (l.drop 8))

/-- What decoding a wire flit finds: the corrected wire indices, the decoded codewords by number of corrections, the
uncorrectable ones, and the flit bytes where both decoded. -/
structure Decoded where
  fixed : List Nat
  hist : List Nat
  uncorr : Nat
  flit : Option (List Byte)
  deriving DecidableEq, Repr

/-- Decode descrambled wire bytes (R39). -/
def decodeFlit (l : List Byte) : Decoded :=
  let one (p : Nat) : List Nat × Option (List (Nat × Nat)) := let r := codeword p l; (r, rsErrors r)
  let a := one 0
  let b := one 1
  let data (c : List Nat × Option (List (Nat × Nat))) : Option (List Byte) :=
    c.2.map (fun es => ((es.foldl (fun l e => l.set e.1 (l.getD e.1 0 ^^^ e.2)) c.1).take 128).map (BitVec.ofNat 8))
  let at_ (p : Nat) (c : List Nat × Option (List (Nat × Nat))) : List Nat := (c.2.getD []).map (fun e => 2 * e.1 + p)
  { fixed := at_ 0 a ++ at_ 1 b
    hist := (a.2.map List.length).toList ++ (b.2.map List.length).toList
    uncorr := (if a.2.isNone then 1 else 0) + (if b.2.isNone then 1 else 0)
    flit := (data a).bind (fun x => (data b).map (fun y => x ++ y)) }

/-! ### Symbols on the wire, R33 -/

/-- A bit pair as its Gray-mapped level, 0 the most negative (R33). -/
def grayLevel (pair : Nat) : Nat := if pair % 4 = 0 then 0 else if pair % 4 = 1 then 1 else if pair % 4 = 3 then 2 else 3

/-- The bit pair of a level. -/
def grayPair (level : Nat) : Nat := if level = 0 then 0 else if level = 1 then 1 else if level = 2 then 3 else 2

/-- The four PAM4 symbols of a byte, from bit pairs [7:6], [5:4], [3:2] and [1:0] (R33). -/
def pam4Symbols (b : Byte) : List Nat := (List.range 4).map (fun i => grayLevel (bitsOf b.toNat (6 - 2 * i) 2))

/-- The eight NRZ symbols of a byte, most significant bit first: 1 is the positive level, 0 the negative (R33). -/
def nrzSymbols (b : Byte) : List Nat := (List.range 8).map (fun i => bitsOf b.toNat (7 - i) 1)

/-- The symbols of a byte in a mode: NRZ in guest-low, PAM4 in the others (R25, R33). -/
def byteSymbols (mode : Nat) (b : Byte) : List Nat := if mode = 2 then nrzSymbols b else pam4Symbols b

/-- The byte that four PAM4 symbols spell. -/
def pam4Byte (l : List Nat) : Byte := BitVec.ofNat 8 (l.foldl (fun a x => 4 * a + grayPair x) 0)

/-- The bytes that the lane at position `p` of width `w` carries of flit `f` of a group, in order (R38). -/
def laneBytes (w f p : Nat) (wire : List Byte) : List Byte :=
  ((List.range 272).filter (fun j => wirePos w f j == p)).map (fun j => wire.getD j 0)

/-- What each lane of a map sends of a wire flit: the lane and its symbols in order (R33, R38). -/
def laneSymbols (map : List Nat) (mode f : Nat) (wire : List Byte) : List (Nat × List Nat) :=
  (List.range map.length).map (fun p => (map.getD p 0, (laneBytes map.length f p wire).flatMap (byteSymbols mode)))

/-- The start marker as every mapped lane sends it: 8 bytes of 0x5A and 8 bytes of 0xA5 (R122). -/
def markerBytes : List Byte := List.replicate 8 0x5A ++ List.replicate 8 0xA5

/-! ### Test patterns, R52 -/

/-- `n` bits of a shift register of `w` bits whose feedback is the exclusive or of the bits of a mask: a bit sent is the bit fed back. -/
def lfsrBits (w taps : Nat) : Nat → Nat → List Bool
  | 0, _ => []
  | n + 1, r =>
    let b := popCount (r &&& taps) % 2
    (b == 1) :: lfsrBits w taps n ((2 * r + b) % 2 ^ w)

/-- PRBS31: x^31 + x^28 + 1. -/
def prbs31Bits (n r : Nat) : List Bool := lfsrBits 31 (2 ^ 30 + 2 ^ 27) n r

/-- PRBS13: x^13 + x^12 + x^2 + x + 1. -/
def prbs13Bits (n r : Nat) : List Bool := lfsrBits 13 (2 ^ 12 + 2 ^ 11 + 2 + 1) n r

/-- A square wave of 8 UI period, as levels of one UI each. -/
def squareBits (n : Nat) : List Bool := (List.range n).map (fun i => decide (i % 8 < 4))

/-- A repeated 32-bit user pattern, most significant bit first. -/
def userBits (n v : Nat) : List Bool := (List.range n).map (fun i => bitOf v (31 - i % 32))

/-- The first `n` bits that a generator sends for a code of `LANE_PAT.PATTERN` (R52, R341), from a register value or a user word. -/
def patternBits (pat n r : Nat) : List Bool :=
  if pat = 0 then prbs31Bits n r else if pat = 1 then prbs13Bits n r else if pat = 2 then squareBits n else userBits n r

/-- What a checker makes of the bits received, each with whether it is in error: whether it has locked after 64 bits in a row without
error, how long the present run without error is, and how many errors it has counted since it locked (R52, R341). -/
def checkBits (l : List Bool) : Bool × Nat × Nat :=
  l.foldl (fun (a : Bool × Nat × Nat) e =>
    if a.1 then (true, a.2.1, if e then a.2.2 + 1 else a.2.2)
    else let run := if e then 0 else a.2.1 + 1; (decide (64 ≤ run), run, a.2.2)) (false, 0, 0)

/-- The bits that differ between what was sent and what came. -/
def errorBits (sent came : List Bool) : List Bool := List.zipWith (· != ·) sent came

/-! ### SB characters and frames, R32, and training blocks, R110 -/

/-- K28.5, which SB sends between frames. -/
def sbComma : SbChar := ⟨true, 0xBC⟩
/-- K27.7, the start of a frame. -/
def sbStart : SbChar := ⟨true, 0xFB⟩
/-- K29.7, the end of a frame. -/
def sbEnd : SbChar := ⟨true, 0xFD⟩

/-- The bytes of a frame over which its CRC runs: type, length, payload. -/
def sbHead (ty : Nat) (payload : List Byte) : List Byte := beBytes 1 ty ++ beBytes 2 payload.length ++ payload

/-- A frame as it leaves on SB (R32). -/
def sbFrame (ty : Nat) (payload : List Byte) : List SbChar :=
  let h := sbHead ty payload
  [sbStart] ++ (h ++ beBytes 2 (crc16 h)).map (fun b => ⟨false, b⟩) ++ [sbEnd]

/-- The payload of a training message on SB: `TCODE`, a zero byte, the body (R110). -/
def trainPayload (tcode : Nat) (body : List Byte) : List Byte := beBytes 1 tcode ++ [0] ++ body

/-- The training block of a message on a lane (R110). -/
def trainBlock (tcode lane : Nat) (body : List Byte) : BitVec 512 :=
  let c := beBytes 1 tcode ++ beBytes 1 lane ++ beBytes 2 body.length ++ padTo 52 body
  BitVec.ofNat 512 (ofBytes (beBytes 4 0xBC4ABC4A ++ c ++ beBytes 2 (crc16 c) ++ [0, 0]))

end Sys2Proof.Machine
end

