-- ==== Sys2Proof/Machine/Reply.lean ====
section
/-! DEFINITION. Replies of Wilvel commands (R317–R320, R326, R327) and the end of commands that run on after they start (R323, R328). -/

namespace Sys2Proof.Machine

/-- A list cut into pieces of `n`; one empty piece when it is empty. -/
def chunks {α : Type} (n : Nat) (l : List α) : List (List α) :=
  (List.range (max 1 ((l.length + n - 1) / n))).map (fun i => (l.drop (n * i)).take n)

/-- One packet (R317). -/
def wvPacket (opc flags target origin tag status offset : Nat) (data : List Byte) : List Byte :=
  beBytes 1 opc ++ beBytes 1 flags ++ beBytes 1 target ++ beBytes 1 origin ++ beBytes 2 tag ++ beBytes 2 (16 + data.length) ++ beBytes 1 status
    ++ beBytes 3 0 ++ beBytes 4 offset ++ data

/-- The packets of a command or reply: `flags` without `MORE` (R318). -/
def wvPackets (opc flags target origin tag status : Nat) (data : List Byte) : List (List Byte) :=
  let d := padTo ((data.length + 3) / 4 * 4) data
  let cs := chunks 1004 d
  (List.range cs.length).map (fun i =>
    wvPacket opc (flags + (if i + 1 < cs.length then 64 else 0)) target origin tag status (1004 * i) (cs.getD i []))

/-- The last 16 replies are logged (R327). -/
def State.wvLog (s : State) (e : WvLog) : State :=
  { s with lme := { s.lme with log := (s.lme.log ++ [e]).drop ((s.lme.log ++ [e]).length - 16) } }

/-- The log entry of a packet that leaves by a path: none but for the last packet of a reply of this instance that is not one from the log
(R317, R322, R327). -/
def State.logOf (s : State) (path : WvPath) (p : List Byte) : Option WvLog :=
  let f := byteAt p 1
  if bitOf f 7 && !bitOf f 6 && !bitOf f 4 && byteAt p 3 == s.place then
    some ⟨byteAt p 0, ⟨path, p.getD 2 0, BitVec.ofNat 16 (bytesAt p 4 2)⟩, byteAt p 8, s.die⟩
  else none

/-- A packet leaves by a path now: the last of a reply is logged with the tick (R308, R327). -/
def State.packetLeaves (s : State) (path : WvPath) (p : List Byte) : State :=
  match s.logOf path p with | some e => s.wvLog e | none => s

/-- The first reply packet of the mailbox stands in `MBX_RPL`: it has left (R321, R327; log entry 153). -/
def State.mbxShows (s : State) : State := match s.lme.rpl with | p :: _ => s.packetLeaves .mailbox p | [] => s

/-- A packet goes to the core side: it has left once crossing 2 passes it (R253, R319). -/
def State.packetToCore (s : State) (p : List Byte) : State :=
  let t := s.emit (.packet .core p)
  if s.xOpen 2 then t.packetLeaves .core p else t

/-- A packet is sent by a path (R319): a message of MGT on the link (`rpl`: WILVEL-RPL), an SB frame of type 0x02, the mailbox's queue of
replies, or the core side. What waits in a queue leaves, and is logged, later. -/
def State.sendPacket (s : State) (path : WvPath) (rpl : Bool) (p : List Byte) : State :=
  match path with
  | .mailbox =>
    let t := { s with lme := { s.lme with rpl := s.lme.rpl ++ [p] } }
    if s.lme.rpl.isEmpty then t.mbxShows else t
  | .core => s.packetToCore p
  | .mgt => s.queueMsg (mkLong 5 (if rpl then 2 else 1) p) false
  | .sb => (s.emit (.sb (sbFrame 2 p))).packetLeaves .sb p

/-- The packets of a reply are sent in order. -/
def State.sendPackets (s : State) (path : WvPath) (l : List (List Byte)) : State := l.foldl (fun s p => s.sendPacket path true p) s

/-- A reply whose status is not 0 is counted (R326). -/
def State.wvCounted (s : State) (status : Nat) : State := if status = 0 then s else s.count CNT_WV_REFUSED

/-- A command is answered: the reply goes by the command's path and is counted (R320, R326); it is logged as its last packet leaves (R327). `again`:
from the log (R322). -/
def State.wvReply (s : State) (h : CmdHdr) (opc status : Nat) (data : List Byte) (again : Bool) : State :=
  (s.sendPackets h.path (wvPackets opc (128 + (if again then 16 else 0)) h.origin.toNat s.place h.tag.toNat status data)).wvCounted status

/-- The commands in progress that satisfy `p` end with a status and data. -/
def State.runsEnd (s : State) (p : WvRun → Bool) (status : Nat) (data : List Byte) : State :=
  let l := s.lme.runs.filter p
  let s := { s with lme := { s.lme with runs := s.lme.runs.filter (fun r => !p r) } }
  l.foldl (fun s r => s.wvReply r.h r.opc status data false) s

/-- The commands in progress with an opcode end. -/
def State.runEnds (s : State) (opc status : Nat) (data : List Byte) : State := s.runsEnd (fun r => r.opc == opc) status data

/-- A command begins to run. -/
def State.runStart (s : State) (h : CmdHdr) (opc arg : Nat) : State :=
  { s with lme := { s.lme with runs := s.lme.runs ++ [⟨h, opc, arg⟩] } }

end Sys2Proof.Machine
end

