-- ==== Sys2Proof/Machine/Streams.lean ====
section
/-! DEFINITION. Stream flits at the two ends of a link: binding to positions (R65), release (R153, R181–R183, R235), lateness,
void positions (R267, R358), and the data of the next position to be sent (R148). -/

namespace Sys2Proof.Machine

/-- The VI of a stream was reset at a Round after `n`: the position's data is of the old generation (R235). -/
def State.oldPosition (s : State) (id n : Nat) : Bool := s.trn.zeroTo.any (fun p => p.1 == s.descVi id && decide (n < p.2))

/-- A stream's port is valid in the given direction (R183, R199). One that names a valid context is, whether or not the context names it back (DESIGN
CHOICE, log entry 166). -/
def State.portOk (s : State) (id : Nat) (rx : Bool) : Bool :=
  let p := s.descPort id
  let k := s.portKind id
  if k = 1 then s.winEn (p % 32) && s.winRx (p % 32) == rx
  else if k = 2 then s.ctxOk (p % 32)
  else if k = 3 then dieOf (p % 128) == dieOf s.place && p % 128 != s.place && !s.trn.relayBad.contains id
  else false

/-- A flit at an invalid port is counted, and reported once per Round (R183). -/
def State.portBad (s : State) (id : Nat) : State :=
  let s := s.count CNT_PORT_BAD
  if s.trn.badIn == some s.tim.round then s
  else ({ s with trn := { s.trn with badIn := some s.tim.round } }).raiseD 0x0402 id false

/-- Stream data finds no window room (R182). -/
def State.swinOvf (s : State) : State :=
  let s := s.count CNT_SWIN_OVF
  if s.trn.ovfIn == some s.tim.round then s
  else ({ s with trn := { s.trn with ovfIn := some s.tim.round } }).raise 0x0401

/-- Release the bytes of a position of Round `n` to the stream's port (R153). -/
def State.release (s : State) (n id : Nat) (data : List Byte) (late : Bool) : State :=
  let s := { s with trn := { s.trn with released := s.trn.released + 1 } }
  let p := s.descPort id
  if s.guestEdge && s.getB FW_CTRL_QUAR then s.count CNT_FW_QDROP
  else if s.oldPosition id n then s.count CNT_VI_STALE_STR
  else if !s.portOk id true then s.portBad id
  else
    let s := s.emit (.stream id late data)
    if s.portKind id = 1 then
      let w := p % 32
      if s.winRoom w < data.length then s.swinOvf else
      let t := s.winWrite w (s.descVi id) n data
      if t.mov.pub.contains (w, n) then t else { t with mov := { t.mov with pub := t.mov.pub ++ [(w, n)] } }
    else if s.portKind id = 2 then s.toFold (p % 32) n (data.map some)
    else s.emit (.relayStream (p % 128) (bitsOf p 16 10) data)

/-- What a void receive position of `len` bytes feeds a context, where its stream's port is one (R219, R267). -/
def State.feedVoid (s : State) (n id len : Nat) : State :=
  if s.portKind id = 2 && s.portOk id true then s.toFold (s.descPort id % 32) n (List.replicate len none) else s

/-- One void receive position is acted on (R267). -/
def State.voidRx (s : State) (n : Nat) (p : Pos) : State :=
  let id := p.run.stream
  let s := (s.count CNT_HOLD_VOID).feedVoid n id (s.posBytes (s.roundRuns false n) p)
  { s with trn := { s.trn with rxRound := n, rxIdx := p.idx + 1, judged := s.trn.judged - 1 } }

/-- Void receive positions before `lim` ticks past their due tick are acted on, in order (`lim` none: every one before the next
position that is not void). -/
def State.settleVoidRx (s : State) (all : Bool) : Nat → State
  | 0 => s
  | fuel + 1 =>
    match s.curPos false with
    | none => s
    | some (n, p) =>
      let past := match s.dueOf n p.off with | some d => decide (d ≤ s.tick) | none => false
      if s.isVoid n && (all || past) then (s.voidRx n p).settleVoidRx all fuel else s

/-- `n` bytes of a key are passed over among its accesses in progress, front first: the accesses, and how many bytes no access holds. -/
def cutAhead (key : Nat) : List Ahead → Nat → List Ahead × Nat
  | [], n => ([], n)
  | a :: l, n =>
    if a.key = key then
      let k := min n (a.len - a.cut)
      let r := cutAhead key l (n - k)
      ({ a with cut := a.cut + k } :: r.1, r.2)
    else (let r := cutAhead key l n; (a :: r.1, r.2))

/-- A transmit stream passes over `n` bytes that are not sent (R235, R267): supplied ones are dropped, those being read are dropped when they come,
and `CONS` of its window passes the rest. -/
def State.passTx (s : State) (id n : Nat) : State :=
  let q := s.readyOf id
  let s := s.setReady id (q.drop n)
  if s.portKind id = 1 then
    let w := s.descPort id % 32
    let r := cutAhead id s.trn.ahead (n - q.length)
    (({ s with trn := { s.trn with ahead := r.1 } }).setF (MOV_SWIN_CONS_CONS w) (s.winCons w + r.2)).refill id
  else s

/-- One void transmit position is acted on (R267): nothing is sent; a window's `CONS` passes its bytes, a context's output for
it is discarded. -/
def State.voidTx (s : State) (n : Nat) (p : Pos) : State :=
  let id := p.run.stream
  let len := s.posBytes (s.roundRuns true n) p
  let s := s.count CNT_HOLD_VOID
  let s :=
    if !s.portOk id false then s
    else if s.portKind id = 2 then
      let c := s.descPort id % 32
      let x := s.ctx c
      s.setCtx c { x with outQ := x.outQ.drop len, void := x.void + (len - x.outQ.length) }
    else s.passTx id len
  { s with trn := { s.trn with txRound := n, txIdx := p.idx + 1 } }

/-- Void transmit positions whose scheduled tick has come are acted on, in order. -/
def State.settleVoidTx (s : State) : Nat → State
  | 0 => s
  | fuel + 1 =>
    match s.curPos true with
    | none => s
    | some (n, p) =>
      let past := match s.sigma n p.off with | some d => decide (d ≤ s.tick) | none => false
      if s.isVoid n && past then (s.voidTx n p).settleVoidTx fuel else s

/-- Void positions that have come are acted on (R267). -/
def State.settleVoid (s : State) : State := if s.trn.void then (s.settleVoidTx 65536).settleVoidRx false 65536 else s

/-- The trace record of a late flit (R347): made when it is counted, `late` ticks after `due` (log entry 23). -/
def State.traceLate (s : State) (id late due : Nat) : State :=
  if s.getB TRACE_CTRL_LATE then s.trace 6 (beBytes 2 id ++ beBytes 2 0 ++ beBytes 4 late ++ beBytes 8 due) else s

/-- A stream flit is accepted in sequence: bound to the next unbound position and held for its due tick, or released at once
with the late flag (R65, R153, R154). While no schedule runs it is discarded (R165). -/
def State.bindStream (s : State) (payload : List Byte) : State :=
  if !s.run then s.count CNT_STR_DROP else
  let s := if s.trn.void then s.settleVoidRx true 65536 else s
  match s.curPos false with
  | none => s
  | some (n, p) =>
    let data := payload.take (s.posBytes (s.roundRuns false n) p)
    let id := p.run.stream
    let due := s.dueOf n p.off
    let s := { s with trn := { s.trn with rxRound := n, rxIdx := p.idx + 1, acceptedStr := s.trn.acceptedStr + 1 } }
    if 0 < s.trn.judged then
      let s := { s with trn := { s.trn with judged := s.trn.judged - 1 } }
      s.release n id data true
    else
      let s := if due = some s.tick then s.count CNT_NEAR_MISS else s
      { s with trn := { s.trn with sbuf := s.trn.sbuf ++ [⟨n, p.off, id, data⟩] } }

/-- What falls due next on the receive side: a held flit, or the first position not judged yet, with its due tick. -/
def State.nextDue (s : State) : Option (Nat × Option SbEntry × Nat × Pos) :=
  match s.trn.sbuf with
  | e :: _ => (s.dueOf e.round e.off).map (fun d => (d, some e, e.round, ⟨⟨0, e.stream, 0, 0⟩, e.off, 0⟩))
  | [] =>
    if s.run then
      match s.nextPos false 34 s.trn.rxRound (s.trn.rxIdx + s.trn.judged) with
      | some (n, p) => (s.dueOf n p.off).map (fun d => (d, none, n, p))
      | none => none
    else none

/-- A position's due tick comes (R153): the held flit is released, a void position is acted on, or the missing flit is counted
late, traced, and reported once for its Round; one of a reset VI raises no event (R235, R347). -/
def State.dueNow (s : State) : State :=
  match s.nextDue with
  | none => s
  | some (_, some e, n, _) =>
    ({ s with trn := { s.trn with sbuf := s.trn.sbuf.drop 1 } }).release n e.stream e.data false
  | some (due, none, n, p) =>
    if s.isVoid n then s.settleVoidRx false 65536 else
    let s := { s.count CNT_LATE with trn := { s.trn with judged := s.trn.judged + 1 } }
    let s := s.traceLate p.run.stream (s.tick - due) due
    if s.trn.lateIn == some n || s.oldPosition p.run.stream n then s
    else ({ s with trn := { s.trn with lateIn := some n } }).raiseD 0x0305 p.run.stream false

/-- The link's unsettled stream positions become void (R265, R358): at an entry to Hold until the Round in `ISL_VOID_END`, at an entry to Down (`down`)
until a new activation, for which stands a Round that the register cannot hold. -/
def State.voidPositions (s : State) (down : Bool) : State :=
  let s := s.putW ISL_VOID_END (2 ^ 64 - 1)
  { s with trn := { s.trn with void := true, voidEnd := if down then 2 ^ 64 else 2 ^ 64 - 1, judged := 0 } }

/-- At an entry to Down the stream buffer is emptied; its flits are void positions, and a context takes poison for them (R267, R358). -/
def State.emptyBuffer (s : State) : State :=
  let l := s.trn.sbuf
  let s := { s.count CNT_HOLD_VOID l.length with trn := { s.trn with sbuf := [], released := s.trn.released + l.length } }
  l.foldl (fun s e => s.feedVoid e.round e.stream e.data.length) s

/-- Bytes of poison for a position whose data is of a reset VI, in the format that the OUT stream carries and in step with its elements; in an MX format
blocks whose scale is NaN (R212, R235). -/
def State.poisonBytes (s : State) (c skip len : Nat) : List Byte :=
  let o := s.ctxOf c
  let e := if isMx o then beBytes 1 0xFF ++ List.replicate (elemBytes o 32 - 1) 0 else beBytes (elemBits o / 8) (poisonOf o)
  (List.range len).map (fun i => e.getD ((skip + i) % max 1 e.length) 0)

/-- The data of a transmit position, where it is ready (R148), and the state with it taken. A position with an invalid port or of
a reset VI is always ready. -/
def State.takeData (s : State) (n : Nat) (p : Pos) : Option (List Byte × State) :=
  let id := p.run.stream
  let l := s.roundRuns true n
  let len := s.posBytes l p
  if !s.portOk id false then some (List.replicate len 0, s.portBad id)
  else if s.oldPosition id n then
    if s.portKind id = 2 then
      let c := s.descPort id % 32
      some (s.poisonBytes c (240 * posOrdinal l p) len, s.ctxFlag c fLOST)
    else some (List.replicate len 0, s.passTx id len)
  else if s.portKind id = 2 then
    let c := s.descPort id % 32
    let x := s.ctx c
    let q := x.outQ.drop x.void
    if q.length < len || !s.xOpen 3 then none
    else some (q.take len, s.setCtx c { x with outQ := q.drop len, void := 0 })
  else
    let q := s.readyOf id
    if q.length < len then none else some (q.take len, (s.setReady id (q.drop len)).refill id)

/-- `RUN` clears (R165, R200): unbound positions lapse, contexts abandon their Round. Held flits keep their due ticks. A HALT command
ends (R328). -/
def State.clearRun (s : State) : State :=
  let s := ((s.setB TURN_CTRL_RUN false).abandon).runEnds 0x32 0 []
  { s with trn := { s.trn with judged := 0, halt := false, deckFetch := none, deckReady := false, deckMiss := false } }

end Sys2Proof.Machine
end

