-- ==== Sys2Proof/Machine/Movers.lean ====
section
/-! DEFINITION. The movers (chapter 7): descriptors (R174), starting (R176), requests (R177, R178), releases and acquires (R185,
R187), scope stamps (R189) and completion (R179, R180). -/

namespace Sys2Proof.Machine

/-! ### Descriptors, R174 -/

/-- A field of a descriptor: `len` bytes from byte `at_`. -/
def dField (d : BitVec 512) (at_ len : Nat) : Nat := bitsOf d.toNat (512 - 8 * (at_ + len)) (8 * len)
def dOp (d : BitVec 512) : Nat := bitsOf (dField d 0 4) 28 4
def dScope (d : BitVec 512) : Nat := bitsOf (dField d 0 4) 26 2
def dIrq (d : BitVec 512) : Bool := bitOf (dField d 0 4) 25
def dWinadv (d : BitVec 512) : Bool := bitOf (dField d 0 4) 24
def dRoute (d : BitVec 512) : Nat := bitsOf (dField d 0 4) 22 2
def dCmp (d : BitVec 512) : Nat := bitsOf (dField d 0 4) 20 2
def dWin (d : BitVec 512) : Nat := bitsOf (dField d 0 4) 15 5
def dLength (d : BitVec 512) : Nat := dField d 4 4
def dSrc (d : BitVec 512) : Nat := dField d 8 8
def dDst (d : BitVec 512) : Nat := dField d 16 8
def dValue (d : BitVec 512) : Nat := dField d 24 8
def dMask (d : BitVec 512) : Nat := dField d 32 8
def dTimeout (d : BitVec 512) : Nat := dField d 40 4
def dStatus (d : BitVec 512) : Nat := dField d 60 4

/-- Two byte ranges overlap in one space on one die (R178). -/
def rangesOverlap (src dst nSrc nDst : Nat) : Bool :=
  src / 2 ^ 48 == dst / 2 ^ 48 && decide (src % 2 ^ 48 < dst % 2 ^ 48 + nDst ∧ dst % 2 ^ 48 < src % 2 ^ 48 + nSrc)

/-- The descriptor is malformed: status `BADDESC` (R179). -/
def State.badDesc (s : State) (d : BitVec 512) : Bool :=
  let op := dOp d
  if dStatus d != 0 || op == 0 || decide (4 < op) || (dWinadv d && !(s.winEn (dWin d) && !s.winRx (dWin d))) then true
  else if op = 1 then
    dLength d == 0 || decide (2 ^ 30 < dLength d) || rangesOverlap (dSrc d) (dDst d) (dLength d) (dLength d)
  else dLength d != 0 || (op == 2 && dDst d % 16 != 0) || (op == 3 && dSrc d % 16 != 0)

/-! ### Engines -/

/-- A mover. -/
def State.eng (s : State) (m : Nat) : Eng := s.mov.eng.getD m Eng.idle
/-- Replace a mover. -/
def State.setEng (s : State) (m : Nat) (e : Eng) : State := { s with mov := { s.mov with eng := listSet s.mov.eng m e } }

/-- Tags that a mover's descriptor waits for. -/
def State.engTags (s : State) (m : Nat) : List Tag :=
  s.mov.tags.filter (fun t => t.owner == m && !t.dead && (decide (t.kind ≤ 4) || t.kind == 6))

/-- Some mover runs a descriptor of the ring. -/
def State.ringBusy (s : State) (ring : Nat) : Bool := s.mov.eng.any (fun e => e.active && e.ring == ring)
/-- A barrier of the ring is in progress (R176). A malformed descriptor holds back later ones too while it ends (DEDUCED, log entry 18). -/
def State.ringBarrier (s : State) (ring : Nat) : Bool := s.mov.eng.any (fun e => e.active && e.ring == ring && dOp e.desc != 1)

/-- The VI of a ring. -/
def State.ringVi (s : State) (ring : Nat) : Nat := s.getF (MOV_RING_CFG_VI ring)
/-- The VI of a ring's status write-back: the system VI's register once the binding is lost (R177). -/
def State.statusVi (s : State) (ring : Nat) : Nat :=
  if s.getB (MOV_RING_CFG_BOUND ring) then s.ringVi ring else s.getF MOV_SYS_VI

/-- Descriptors of the ring may start (R176, R180, R190, R229). -/
def State.ringStarts (s : State) (ring : Nat) : Bool :=
  s.getB MOV_CTRL_EN && !s.getB MOV_CTRL_PAUSE && !s.tagBad && s.getB (MOV_RING_CFG_EN ring) && !s.getB (MOV_RING_CFG_STOPPED ring)
    && s.getF (VI_SHR_SHARE (s.ringVi ring)) != 0 && !s.ringBarrier ring

/-- The next descriptor of a ring, once fetched: the status of its fetch and its content. -/
def State.nextDesc (s : State) (ring : Nat) : Option (Nat × BitVec 512) :=
  let i := s.getF (MOV_RING_TAIL_TAIL ring)
  if i = s.getF (MOV_RING_HEAD_HEAD ring) then none
  else (s.mov.fetched.find? (fun f => f.1 == ring && f.2.1 == i)).map (fun f => f.2.2)

/-- A descriptor that no operation carries out: one of a reserved `OP` (R174). -/
def opBad (d : BitVec 512) : Bool := dOp d == 0 || decide (4 < dOp d)

/-- The next descriptor of a ring may start: a COPY beside others, a barrier only when the ring has none running (R176). -/
def State.ringReady (s : State) (ring : Nat) : Bool :=
  match s.nextDesc ring with
  | none => false
  | some (code, d) => s.ringStarts ring && (code != 0 || opBad d || dOp d == 1 || !s.ringBusy ring)

/-- The least number of an ascending list above `x`, or else its first. -/
def nextAfter (x : Nat) (l : List Nat) : Option Nat := match l.find? (fun y => decide (x < y)) with | some y => some y | none => l.head?

/-- The ring that a free mover serves next (R176, R229): weighted round robin over the VIs, each for `SHARE` descriptors in its turn, and over
the rings of a VI one after the other (log entry 146). -/
def State.nextRing (s : State) : Option Nat :=
  let l := (List.range 64).filter s.ringReady
  let vis := (List.range 256).filter (fun v => l.any (fun r => s.ringVi r == v))
  (if s.mov.rrLeft != 0 && vis.contains s.mov.rrVi then some s.mov.rrVi else nextAfter s.mov.rrVi vis).bind (fun v =>
    let mine := l.filter (fun r => s.ringVi r == v)
    match s.mov.rrRing.find? (fun e => e.1 == v) with
    | some e => nextAfter e.2.toNat mine
    | none => mine.head?)

/-- A descriptor of a ring has been served: its VI has one less left in its turn. -/
def State.served (s : State) (ring : Nat) : State :=
  let v := s.ringVi ring
  let left := if s.mov.rrVi = v && s.mov.rrLeft != 0 then s.mov.rrLeft else s.getF (VI_SHR_SHARE v)
  { s with mov := { s.mov with rrVi := v, rrLeft := left - 1, rrRing := s.mov.rrRing.filter (fun e => e.1 != v) ++ [(v, BitVec.ofNat 32 ring)] } }

/-- The address of a descriptor of a ring (R173). -/
def State.descGa (s : State) (ring i : Nat) : Nat :=
  s.getW (MOV_RING_BASE ring) + 64 * (i % 2 ^ s.getF (MOV_RING_CFG_LOG2SIZE ring))

/-- A mover's descriptor fails: the first failure is reported and nothing further is issued (R179). -/
def State.engFail (s : State) (m code : Nat) : State :=
  let e := s.eng m
  if !e.active then s else s.setEng m { e with code := if e.code = 0 then code else e.code, stop := true }

/-- The stamp of R189. -/
def State.stamp (s : State) (scope ring : Nat) : Nat :=
  scope * 2 ^ 62 + s.pod_ * 2 ^ 53 + dieOf s.place * 2 ^ 48 + s.place * 2 ^ 41 + ring * 2 ^ 35

/-- The containment test of R188 on two stamps: the narrower scope contains both agents. -/
def stampsMeet (w a : Nat) : Bool :=
  let sc := min (bitsOf w 62 2) (bitsOf a 62 2)
  if sc = 0 then w % 2 ^ 62 == a % 2 ^ 62
  else if sc = 1 then bitsOf w 48 14 == bitsOf a 48 14
  else if sc = 2 then bitsOf w 53 9 == bitsOf a 53 9
  else true

/-- Windows that a key reads may read further: every stream, operand and anchor that the window feeds. -/
def State.refillWindow (s : State) (w : Nat) : State :=
  let ids := (s.trn.descs.filter (fun e => e.1 % 4 == 2 && e.2.toNat / 2 ^ 28 == 1 && e.2.toNat % 32 == w)).map (fun e => e.1 / 4)
  let keys := (ids.filter (fun i => s.descValid i && !s.descRx i))
    ++ ((List.range 32).filter (fun c => s.ctxEn c && s.getF (FOLD_CTX_SRC_OPSRC c) == 1
          && s.getF (FOLD_CTX_SRC_OPSEL c) % 32 == w)).map (0x10000 + ·)
    ++ ((List.range 32).filter (fun c => s.ctxEn c && s.ctxOp c == 8 && s.getB (FOLD_CTX_ANCHOR_ASRC c)
          && s.getF (FOLD_CTX_ANCHOR_AWIN c) == w)).map (0x20000 + ·)
  keys.foldl State.refill s

/-! ### Releases, R185 -/

/-- The write set of a ring. -/
def State.wsetOf (s : State) (ring : Nat) : List (Nat × Nat × Nat) := (s.mov.wset.filter (fun e => e.1 == ring)).map (·.2)

/-- Begin a release over the ring's write set. -/
def State.startRelease (s : State) (m : Nat) : State :=
  let e := s.eng m
  s.setEng m { e with relOn := true, fences := s.wsetOf e.ring }

/-- All FENCE-DONEs have arrived: the write set empties and the ring's release count advances. -/
def State.releaseDone (s : State) (m : Nat) : State :=
  let e := s.eng m
  let s := s.setEng m { e with relOn := false }
  { s with mov := { s.mov with wset := s.mov.wset.filter (fun w => w.1 != e.ring)
                               releases := s.mov.releases.set e.ring (s.mov.releases.get e.ring + 1) } }

/-- A write to a home on a route joins the ring's write set; none when that would be a 17th entry. -/
def State.joinWset (s : State) (ring ga route : Nat) : Option State :=
  let e := (ring, gaPod ga, gaDie ga, route)
  if s.mov.wset.contains e then some s
  else if 16 ≤ (s.wsetOf ring).length then none
  else some { s with mov := { s.mov with wset := s.mov.wset ++ [e] } }

/-! ### One action of a mover -/

/-- Lines that a byte range touches. -/
def lineCount (ga len : Nat) : Nat := (ga % 128 + len + 127) / 128

/-- Piece `i` of a byte range: its address and length within one line. -/
def pieceAt (ga len i : Nat) : Nat × Nat :=
  let a := if i = 0 then ga else lineOf ga + 128 * i
  (a, min (ga + len) (lineOf ga + 128 * (i + 1)) - a)

/-- The bytes of the source range [o, o + n) of a COPY from `src`, from the lines read; none while one is missing. -/
def copyBytes (src : Nat) (lines : List (Nat × BitVec 1024)) (o n : Nat) : Option (List Byte) :=
  let l0 := (src % 128 + o) / 128
  let l1 := (src % 128 + o + n - 1) / 128
  let line (i : Nat) : Option (List Byte) := ((lines.find? (fun p => p.1 == i)).map (fun p => beBytes 128 p.2.toNat))
  match line l0, line l1 with
  | some a, some b => some ((((if l0 = l1 then a else a ++ b).drop ((src + o) % 128)).take n))
  | _, _ => none

/-- The data of a COPY is complete: `WINADV` advances the window (R182), bytes are counted. -/
def State.copyDone (s : State) (e : Eng) : State :=
  let s := s.count CNT_MOV_BYTES (dLength e.desc)
  if dWinadv e.desc then
    (s.setF (MOV_SWIN_PROD_PROD (dWin e.desc)) (s.winProd (dWin e.desc) + dLength e.desc)).refillWindow (dWin e.desc)
  else s

/-- The next request of a COPY (R178): a line whose bytes have come is written, otherwise the next source line is read. -/
def State.copyStep (s : State) (m : Nat) : Option State :=
  let e := s.eng m
  let d := e.desc
  let len := dLength d
  let vi := s.ringVi e.ring
  if e.phase = 0 then
    if dWinadv d && decide (s.winSize (dWin d) - s.winHeld (dWin d) < len) then none
    else some (s.setEng m { e with phase := 1 })
  else
    let p := pieceAt (dDst d) len e.wnext
    let o := p.1 - dDst d
    match (if e.wnext < lineCount (dDst d) len then copyBytes (dSrc d) e.lines o p.2 else none) with
    | some bytes =>
      if 1024 ≤ (s.engTags m).length then none
      else if s.mov.eng.any (fun x => x.active && x.ring == e.ring && x.relOn) then none else
      match s.joinWset e.ring (dDst d) (dRoute d) with
      | none =>
        let s := s.count CNT_MOV_WSET_FULL
        let s := if s.getB MOV_CTRL_TRACE then
            s.trace 2 (beBytes 1 9 ++ beBytes 1 m ++ beBytes 1 e.ring ++ beBytes 1 0 ++ beBytes 4 e.idx ++ beBytes 8 s.tick) else s
        some (s.startRelease m)
      | some s =>
        (s.issue 1 m e.ring 0 vi p.1 (msgWriteBytes p.1 bytes) (dRoute d)).map (fun t =>
          t.setEng m { e with wnext := e.wnext + 1
                              lines := e.lines.filter (fun l => decide ((dSrc d % 128 + o + p.2) / 128 ≤ l.1)) })
    | none =>
      if e.next < lineCount (dSrc d) len then
        if 1024 ≤ (s.engTags m).length then none else
        let a := lineOf (dSrc d) + 128 * e.next
        (s.issue 0 m e.ring e.next vi a (msgRead a) (dRoute d)).map (fun t => t.setEng m { e with next := e.next + 1 })
      else if e.wnext = lineCount (dDst d) len && (s.engTags m).isEmpty then
        some ((s.copyDone e).setEng m { e with phase := 4 })
      else none

/-- One action of a mover: the next request of its descriptor, or the next stage of it; none when it must wait. -/
def State.engStep (s : State) (m : Nat) : Option State :=
  let e := s.eng m
  let d := e.desc
  let vi := s.ringVi e.ring
  if !e.active then none
  else if e.phase = 5 then none
  else if e.phase = 4 then
    let a := e.ga + 60
    (s.issue 4 m e.ring 0 (s.statusVi e.ring) a (msgWriteBytes a (beBytes 4 (2 ^ 31 + e.code)))).map (fun t => t.setEng m { e with phase := 5 })
  else if e.stop then
    if (s.engTags m).isEmpty then some (s.setEng m { e with phase := 4, relOn := false, fences := [] }) else none
  else if e.relOn then
    match e.fences with
    | [] => if (s.engTags m).any (fun t => t.kind == 2) then none else some (s.releaseDone m)
    | f :: r =>
      if 1024 ≤ (s.engTags m).length then none else
      let scope := if dOp d = 1 then 3 else dScope d
      let ga := f.1 * 2 ^ 53 + f.2.1 * 2 ^ 48
      (s.issue 2 m e.ring 0 vi ga (msgFence scope (s.mov.releases.get e.ring).toNat) f.2.2).map (fun t => t.setEng m { e with fences := r })
  else if dOp d = 1 then s.copyStep m
  else if dOp d = 2 then
    if e.phase = 0 then some ((s.setEng m { e with phase := 1 }).startRelease m)
    else if e.phase = 1 then
      match s.joinWset e.ring (dDst d) (dRoute d) with
      | none => none
      | some s =>
        let data := beBytes 8 (dValue d) ++ (if s.getB MOV_CTRL_TRACE then beBytes 8 (s.stamp (dScope d) e.ring) else [])
        (s.issue 3 m e.ring 0 vi (dDst d) (msgWriteSome (dDst d) (dDst d % 128) data) (dRoute d)).map (fun t => t.setEng m { e with phase := 2 })
    else none
  else if dOp d = 3 then
    if e.phase = 0 then
      (s.issue 6 m e.ring 0 vi (dSrc d) (msgRead (dSrc d)) (dRoute d)).map (fun t => (t.count CNT_MOV_WAIT_READ).setEng m { e with phase := 2 })
    else none
  else if e.phase = 0 then some ((s.setEng m { e with phase := 1 }).startRelease m)
  else some (s.setEng m { e with phase := 4 })

/-- A mover has a request to make (R177). -/
def State.engWants (s : State) (m : Nat) : Bool :=
  let e := s.eng m
  let d := e.desc
  if !e.active then false
  else if e.phase = 4 then true
  else if e.phase = 5 || e.stop then false
  else if e.relOn then !e.fences.isEmpty && decide ((s.engTags m).length < 1024)
  else if dOp d = 1 then
    let p := pieceAt (dDst d) (dLength d) e.wnext
    let line := decide (e.wnext < lineCount (dDst d) (dLength d)) && (copyBytes (dSrc d) e.lines (p.1 - dDst d) p.2).isSome
    e.phase == 1 && decide ((s.engTags m).length < 1024)
      && (if line then !s.mov.eng.any (fun x => x.active && x.ring == e.ring && x.relOn) && (s.joinWset e.ring (dDst d) (dRoute d)).isSome
          else decide (e.next < lineCount (dSrc d) (dLength d)))
  else if dOp d = 2 then e.phase == 1
  else dOp d == 3 && e.phase == 0

/-- A mover does everything it can do now, but for the data requests of a COPY, which `MOVER_REQUEST_ISSUE` issues. -/
def State.engRun (s : State) (m : Nat) : Nat → State
  | 0 => s
  | fuel + 1 =>
    let e := s.eng m
    if e.active && dOp e.desc == 1 && e.phase == 1 && !e.relOn && !e.stop
        && !(e.wnext == lineCount (dDst e.desc) (dLength e.desc) && (s.engTags m).isEmpty) then s else
    match s.engStep m with
    | none => s
    | some t => t.engRun m fuel

/-- Start the next descriptor of a ring on a mover (R176). -/
def State.startOn (s : State) (m ring code : Nat) (d : BitVec 512) : State :=
  let i := s.getF (MOV_RING_TAIL_TAIL ring)
  let s := { s with mov := { s.mov with fetched := s.mov.fetched.filter (fun f => !(f.1 == ring && f.2.1 == i)) } }
  let s := (s.served ring).setF (MOV_RING_TAIL_TAIL ring) (i + 1)
  let c := if code != 0 then code else if s.badDesc d then 7 else 0
  s.setEng m { Eng.idle with active := true, ring := ring, idx := i, ga := s.descGa ring i, desc := d, code := c, stop := c != 0
                             startAt := s.now, readAt := s.now }

/-- The descriptors next in turn that no operation can start (a reserved `OP`, or a fetch that failed) complete with their status on a free
mover. -/
def State.startBad (s : State) : Nat → State
  | 0 => s
  | fuel + 1 =>
    match s.nextRing, s.mov.eng.findIdx? (fun e => !e.active) with
    | some ring, some m =>
      match s.nextDesc ring with
      | some (code, d) => if code != 0 || opBad d then ((s.startOn m ring code d).engRun m 4).startBad fuel else s
      | none => s
    | _, _ => s

/-- The descriptor of a mover is done: its status is written (R179, R180). -/
def State.descDone (s : State) (m : Nat) : State :=
  let e := s.eng m
  let ring := e.ring
  let s := s.setEng m Eng.idle
  let s := (s.setF (MOV_RING_DONE_DONE ring) (s.getF (MOV_RING_DONE_DONE ring) + 1)).count CNT_MOV_DESC
  let s := if e.code = 0 then s else
    let s := ((s.count CNT_MOV_ERR).setF (MOV_RING_ERR_CODE ring) e.code).setF (MOV_RING_ERR_INDEX ring) e.idx
    if s.getB (MOV_RING_CFG_STOPERR ring) then s.setB (MOV_RING_CFG_STOPPED ring) true else s
  let s := if dIrq e.desc then
      s.emit (.core (msgInterrupt (s.getF (MOV_RING_IRQ_VECTOR ring)) (s.getF (MOV_RING_IRQ_HOST ring)) (s.owFor (s.ringVi ring)))) else s
  s.startBad 4

/-- A WAIT's acquire is complete (R187): the stamp is tested (R189), and the descriptor ends. -/
def State.acquired (s : State) (m : Nat) : State :=
  let e := s.eng m
  let line := match e.lines with | [] => [] | p :: _ => beBytes 128 p.2.toNat
  let w := bytesAt line (dSrc e.desc % 128 + 8) 8
  let a := s.stamp (dScope e.desc) e.ring
  let s := if s.getB MOV_CTRL_TRACE && w != 0 && !stampsMeet w a then
      (s.count CNT_SCOPE_MISMATCH).trace 3 (beBytes 8 w ++ beBytes 8 a ++ beBytes 8 s.tick) else s
  (s.setEng m { e with phase := 4 }).engRun m 4

/-- The comparison of a WAIT (R174): `flag` against `VALUE` under `MASK`. -/
def waitMeets (d : BitVec 512) (flag : Nat) : Bool :=
  let f := flag &&& dMask d
  let v := dValue d &&& dMask d
  if dCmp d = 0 then f == v else if dCmp d = 1 then f != v else if dCmp d = 2 then decide (v ≤ f) else f != 0

/-- A mover's request is answered: `err` the status of a REQ-ERR (0 none), `poison` an RD-DATA with `POISON`, `line` the line read. -/
def State.engAnswer (s : State) (t : Tag) (err : Nat) (poison : Bool) (line : BitVec 1024) : State :=
  let m := t.owner
  let e := s.eng m
  if t.kind = 4 then
    (if err = 0 || e.code != 0 then s else s.setEng m { e with code := err }).descDone m
  else if err != 0 then (s.engFail m err).engRun m 64
  else if t.kind = 0 then
    (s.setEng m { e with lines := e.lines ++ [(t.arg, line)], code := if poison && e.code == 0 then 3 else e.code }).engRun m 64
  else if t.kind = 3 then ((if e.stop then s else s.setEng m { e with phase := 4 })).engRun m 64
  else if t.kind = 6 then
    if e.stop then s.engRun m 64
    else if poison then (s.engFail m 3).engRun m 64
    else
      let flag := bytesAt (beBytes 128 line.toNat) (dSrc e.desc % 128) 8
      let e := { e with lines := [(0, line)], readAt := s.now }
      if waitMeets e.desc flag then
        if dScope e.desc ≤ 1 then (s.setEng m e).acquired m
        else (s.setEng m { e with phase := 3 }).emit (.dropCopies m)
      else s.setEng m { e with phase := 1 }
  else s.engRun m 64

/-! ### Descriptor fetches -/

/-- Line reads of descriptors outstanding, those of a ring that dropped its descriptors too. -/
def State.fetching (s : State) : Nat := (s.mov.tags.filter (fun t => t.kind == 5 && !t.timedOut)).length

/-- Fetch the next line of posted descriptors of a ring (R176). -/
def State.fetchLine (s : State) (ring : Nat) : Option State :=
  let i := (s.mov.fetchAt.get ring).toNat
  let head := s.getF (MOV_RING_HEAD_HEAD ring)
  if !s.getB (MOV_RING_CFG_EN ring) || i == head || decide (16 ≤ s.fetching) then none else
  let two := s.descGa ring i % 128 == 0 && (i + 1) % 2 ^ 16 != head
  let n := if two then 2 else 1
  (s.issue 5 ring n i (s.getF MOV_SYS_VI) (s.descGa ring i) (msgRead (s.descGa ring i))).map (fun t =>
    { t with mov := { t.mov with fetchAt := t.mov.fetchAt.set ring (BitVec.ofNat 32 ((i + n) % 2 ^ 16)) } })

/-- A descriptor line has come, or its read failed with a status. -/
def State.fetchAnswer (s : State) (t : Tag) (err : Nat) (line : BitVec 1024) : State :=
  let one (k : Nat) : Nat × Nat × Nat × BitVec 512 :=
    let i := (t.arg + k) % 2 ^ 16
    let o := (s.descGa t.owner i) % 128
    (t.owner, i, err, if err != 0 then 0 else BitVec.ofNat 512 (bytesAt (beBytes 128 line.toNat) o 64))
  let s := { s with mov := { s.mov with fetched := s.mov.fetched ++ (List.range t.ring).map one } }
  s.startBad 4

/-- Descriptors posted and not started are dropped: `TAIL` and `DONE` take `HEAD` (R173, R234). -/
def State.dropPosted (s : State) (ring : Nat) : State :=
  let h := s.getF (MOV_RING_HEAD_HEAD ring)
  let s := (s.setF (MOV_RING_TAIL_TAIL ring) h).setF (MOV_RING_DONE_DONE ring) h
  let l := s.mov.tags.map (fun t => if t.kind == 5 && t.owner == ring then { t with dead := true } else t)
  { s with mov := { s.mov with fetched := s.mov.fetched.filter (fun f => f.1 != ring), tags := l
                               fetchAt := s.mov.fetchAt.set ring (BitVec.ofNat 32 h) } }

end Sys2Proof.Machine
end

