-- ==== Sys2Proof/Machine/Jobs.lean ====
section
/-! DEFINITION. Transcode jobs (R221): starting, reading, converting, writing and ending. -/

namespace Sys2Proof.Machine

/-- A job. -/
def State.job (s : State) (j : Nat) : Job := s.fold.jobs.getD j Job.empty
/-- Replace a job. -/
def State.setJob (s : State) (j : Nat) (x : Job) : State := { s with fold := { s.fold with jobs := listSet s.fold.jobs j x } }

def State.jobIf (s : State) (j : Nat) : Nat := s.getF (FOLD_XJ_CFG_IFMT j)
def State.jobOf (s : State) (j : Nat) : Nat := s.getF (FOLD_XJ_CFG_OFMT j)
def State.jobCount (s : State) (j : Nat) : Nat := s.getF (FOLD_XJ_COUNT_COUNT j)
/-- Bytes that a job reads. -/
def State.jobIn (s : State) (j : Nat) : Nat := elemBytes (s.jobIf j) (s.jobCount j)
/-- Bytes that a job writes. -/
def State.jobOut (s : State) (j : Nat) : Nat := elemBytes (s.jobOf j) (s.jobCount j)
/-- The ring that a job acts for. -/
def State.jobRing (s : State) (j : Nat) : Nat := s.getF (FOLD_XJ_CFG_RING j)

/-- Outstanding tags of a job. -/
def State.jobTags (s : State) (j : Nat) : List Tag := s.mov.tags.filter (fun t => t.owner == j && !t.dead && (t.kind == 7 || t.kind == 8))

/-- The staging that `n` source bytes of a job may come to need: that of what they are converted to, where that is more (R217). -/
def State.jobNeed (s : State) (j n : Nat) : Nat :=
  let a := elemBytes (s.jobIf j) 32
  max n ((n * elemBytes (s.jobOf j) 32 + a - 1) / max 1 a)

/-- Bytes of staging that a job uses or has asked for: its source bytes as converted, converted bytes, and writes in flight. -/
def State.jobStaged (s : State) (j : Nat) : Nat :=
  let x := s.job j
  let reads := ((s.jobTags j).filter (fun t => t.kind == 7)).length
  s.jobNeed j (128 * (x.src.length + reads) + x.inB.length) + x.out.length + 128 * ((s.jobTags j).length - reads)

/-- Unclaimed staging has room for another line of a job and for what it is converted to (R217). -/
def State.jobRoom (s : State) (j : Nat) : Bool :=
  decide (((List.range 8).map s.jobStaged).sum + s.jobNeed j 128 ≤ 8192 * s.segFree)

/-- The job cannot run at all: not an allowed pair, an MX count that is not a multiple of 32, or an overlap (R221). -/
def State.jobBad (s : State) (j : Nat) : Bool :=
  !xcodePair (s.jobIf j) (s.jobOf j) || ((isMx (s.jobIf j) || isMx (s.jobOf j)) && s.jobCount j % 32 != 0)
    || rangesOverlap (s.getW (FOLD_XJ_SRC j)) (s.getW (FOLD_XJ_DST j)) (s.jobIn j) (s.jobOut j)

/-- A job ends with a status (R221). -/
def State.jobEnd (s : State) (j code : Nat) : State :=
  let s := (s.setJob j Job.empty).count CNT_XJ_DONE
  let s := ((s.setB (FOLD_XJ_STATUS_DONE j) true).setF (FOLD_XJ_STATUS_CODE j) code).setB (FOLD_XJ_CFG_GO j) false
  let ring := s.jobRing j
  if s.getB (FOLD_XJ_CFG_IRQ j) then
    s.emit (.core (msgInterrupt (s.getF (MOV_RING_IRQ_VECTOR ring)) (s.getF (MOV_RING_IRQ_HOST ring)) (s.owFor (s.ringVi ring))))
  else s

/-- A started job has done all it can: every write has its answer, or a failed one waits for nothing more. -/
def State.jobFinished (s : State) (j : Nat) : Bool :=
  let x := s.job j
  s.getB (FOLD_XJ_CFG_GO j) && x.started && (s.jobTags j).isEmpty
    && (x.stop || x.wr == lineCount (s.getW (FOLD_XJ_DST j)) (s.jobOut j))

/-- Move the lines that have come in order to the staged bytes and convert every whole unit. -/
def State.jobConvert (s : State) (j : Nat) : Nat → State
  | 0 => s
  | fuel + 1 =>
    let x := s.job j
    let src := s.getW (FOLD_XJ_SRC j)
    match x.src.find? (fun p => p.1 == x.app) with
    | some p =>
      let q := pieceAt src (s.jobIn j) x.app
      let l := ((beBytes 128 p.2.toNat).drop (q.1 % 128)).take q.2
      (s.setJob j { x with src := x.src.erase p, app := x.app + 1, inB := x.inB ++ l }).jobConvert j fuel
    | none =>
      let i := s.jobIf j
      let o := s.jobOf j
      let mx := isMx i || isMx o
      let per := if mx then elemBytes i 32 else elemBytes i 1
      let n := x.inB.length / max 1 per * (if mx then 32 else 1)
      if n = 0 then s else
      let r := convRange i o (s.getB (FOLD_XJ_CFG_SAT j)) (s.getB (FOLD_XJ_CFG_SR j)) (s.getF (FOLD_XJ_SEED_SEED j)) x.elem n x.inB
      let s := s.setF (FOLD_XJ_STATUS_FLAGS j) (s.getF (FOLD_XJ_STATUS_FLAGS j) ||| r.flags)
      let s := s.setF FOLD_FLAGS_FLAGS (s.getF FOLD_FLAGS_FLAGS ||| r.flags)
      s.setJob j { x with inB := x.inB.drop (elemBytes i n), elem := x.elem + n, out := x.out ++ r.val }

/-- The next request of a job: a destination piece whose bytes are converted is written, otherwise a source line is read; both
through crossing 3. -/
def State.jobStep (s : State) (j : Nat) : Option State :=
  let x := s.job j
  let src := s.getW (FOLD_XJ_SRC j)
  let dst := s.getW (FOLD_XJ_DST j)
  let vi := s.ringVi (s.jobRing j)
  if !s.getB (FOLD_XJ_CFG_GO j) || x.stop || !s.xOpen 3 then none
  else if !x.started then
    if s.getB FOLD_CTRL_JOBPAUSE || s.getF (VI_SHR_SHARE vi) == 0 then none else some (s.setJob j { x with started := true })
  else
    let p := pieceAt dst (s.jobOut j) x.wr
    if x.wr < lineCount dst (s.jobOut j) ∧ p.2 ≤ x.out.length then
      (s.issue 8 j 64 0 vi p.1 (msgWriteBytes p.1 (x.out.take p.2))).map (fun t =>
        t.setJob j { x with wr := x.wr + 1, out := x.out.drop p.2 })
    else if x.next < lineCount src (s.jobIn j) ∧ s.jobRoom j then
      let a := lineOf src + 128 * x.next
      (s.issue 7 j 64 x.next vi a (msgRead a)).map (fun t => t.setJob j { x with next := x.next + 1 })
    else none

/-- A job does all it can. -/
def State.jobRun (s : State) (j : Nat) : Nat → State
  | 0 => s
  | fuel + 1 =>
    match s.jobStep j with
    | none => s
    | some t => t.jobRun j fuel

/-- Every running job does all it can, in order. -/
def State.jobsRun (s : State) : State :=
  ((List.range 8).filter (fun j => s.getB (FOLD_XJ_CFG_GO j))).foldl (fun s j => s.jobRun j 4096) s

/-- A job's request is answered. -/
def State.jobAnswer (s : State) (t : Tag) (err : Nat) (poison : Bool) (line : BitVec 1024) : State :=
  let j := t.owner
  let x := s.job j
  let s :=
    if err != 0 then s.setJob j { x with code := if x.code = 0 then err else x.code, stop := true }
    else if t.kind = 7 then
      (s.setJob j { x with src := x.src ++ [(t.arg, line)], code := if poison && x.code == 0 then 3 else x.code }).jobConvert j 4096
    else s
  s.jobsRun

/-- A job waits for staging (R223). -/
def State.jobWaits (s : State) : Bool :=
  (List.range 8).any (fun j =>
    s.getB (FOLD_XJ_CFG_GO j) && (s.job j).started && !(s.job j).stop && decide ((s.job j).next < lineCount (s.getW (FOLD_XJ_SRC j)) (s.jobIn j)) && !s.jobRoom j)

/-- `GO` is written (R221). -/
def State.jobGo (s : State) (j : Nat) : State :=
  if s.getB (FOLD_XJ_CFG_GO j) then s
  else if !s.getB (MOV_RING_CFG_BOUND (s.jobRing j)) then s.refused (FOLD_XJ_CFG j)
  else
    let s := ((s.setB (FOLD_XJ_CFG_GO j) true).setB (FOLD_XJ_STATUS_DONE j) false).setF (FOLD_XJ_STATUS_FLAGS j) 0
    let s := s.setJob j Job.empty
    if s.jobBad j then s.jobEnd j 7
    else if s.jobCount j = 0 then s.jobEnd j 0
    else s.jobRun j 4096

end Sys2Proof.Machine
end

