-- ==== Sys2Proof/Machine/Clock.lean ====
section
/-! DEFINITION. Time passing: the ticks between commands, and what each tick counts (R139, R87, R95, R148, R176, R177, R219, R221,
R243). A command that covers several ticks counts them all by the conditions at their start (log entry 3). -/

namespace Sys2Proof.Machine

/-- Count `d` ticks where a condition holds. -/
def State.countIf (s : State) (b : Bool) (c : Cnt) (d : Nat) : State := if b then s.count c d else s

/-- The next stream position's scheduled tick has come, and whether its data is ready; none while no such flit is due. -/
def State.streamDue (s : State) : Option Bool :=
  match s.curPos true with
  | none => none
  | some (n, p) =>
    match s.sigma n p.off with
    | none => none
    | some t => if s.isVoid n || s.tick < t then none else some (s.takeData n p).isSome

/-- A first-time payload flit would leave if the Bank had room: in a UNS flit time, with no link-control message waiting, a message in progress or one
that qualifies, outside QUI a stream flit that is due and ready (R87, R148); none after the notices of R264, before an urgent message, or in the gap of
R126. -/
def State.wouldSend (s : State) : Bool :=
  !s.dlv.idleOnly && !s.lnk.gap && s.dlv.urgent.isEmpty && ((s.classAt s.tick != 3 && s.streamDue == some true)
    || (s.classAt s.tick == 2 && s.dlv.lc.isEmpty && (!s.dlv.cur.isEmpty || (List.range 6).any s.qualifies)))

/-- The flits of the link pass: the link is in Up or Shift. -/
def State.linkRuns (s : State) : Bool := s.link == 4 || s.link == 5

/-- A rate cap holds back owed credit (R243). -/
def State.paced (s : State) : Bool :=
  s.guestEdge && s.linkRuns && s.getB DLV_STATUS_INITDONE && (List.range 6).any (fun c =>
    s.getF (FW_RATE_RATE c) != 0 && s.getF (DLV_RXBUF_OWED c) != 0 && s.dlv.buckets.getD c 0 == 0)

/-- A mover with a request to make finds no free tag (R177). -/
def State.tagStalled (s : State) : Bool :=
  s.freeTag.isNone && (List.range 4).any s.engWants

/-- A mover is idle while an enabled ring has posted descriptors not yet fetched (R176). -/
def State.fetchStalled (s : State) : Bool :=
  s.mov.eng.any (fun e => !e.active) && (List.range 64).any (fun n =>
    s.getB (MOV_RING_CFG_EN n)
      && decide ((s.mov.fetched.filter (fun f => f.1 == n)).length < (s.getF (MOV_RING_HEAD_HEAD n) + 2 ^ 16 - s.getF (MOV_RING_TAIL_TAIL n)) % 2 ^ 16))

/-- What `d` ticks count. -/
def State.tickCounts (s : State) (d : Nat) : State :=
  let t := (List.range 6).foldl (fun t c => t.countIf (s.crStalled c) (CNT_CRSTALL c) d) s
  let t := t.countIf (s.linkRuns && decide (bankCap s.place ≤ s.dlv.bank.length) && s.dlv.replay.isNone && s.wouldSend) CNT_BANK_FULL d
  let t := t.countIf (s.run && s.streamDue == some false) CNT_STR_STARVE d
  let t := t.countIf s.fetchStalled CNT_MOV_FETCH_STALL d
  let t := t.countIf s.tagStalled CNT_MOV_TAG_STALL d
  let t := t.countIf ((List.range 32).any s.opWait) CNT_FOLD_OPWAIT d
  let t := t.countIf s.jobWaits CNT_XJ_WAIT d
  t.countIf s.paced CNT_FW_PACE d

/-- The checkers that have not locked may lock while ticks pass: no command tells the bits they receive, so that each is a free value (R341; log entry
37). -/
def State.patLocks (s : State) : State :=
  ((List.range 18).filter (fun l => s.getB (LANE_PAT_RUN l) && !s.getB (LANE_PAT_LOCK l))).foldl
    (fun s l => (s.setF (LANE_PAT_LOCK l) (s.freeNow.toNat % 2)).takeFree) s

/-- `d` ticks pass on the die counter, and with it on the clock that times intervals (R6, R139). While the die's clock stands, or its reset
holds, the counter stands and no interval goes on (R261; log entry 137). -/
def State.elapse (s : State) (d : Nat) : State :=
  if d = 0 || !s.isl.clkOn || s.isl.inReset then s else
  { (s.tickCounts d).patLocks with now := s.now + d, die := s.die + BitVec.ofNat 64 d }

/-- Time passes up to a tick of the model's clock that is due (nothing when it has come already). -/
def State.advanceTo (s : State) (t : Nat) : State := s.elapse (t - s.now)

/-- Time passes up to a value of the die counter (nothing when it has come already). -/
def State.advanceDie (s : State) (t : Nat) : State := s.elapse (t - s.tick)

end Sys2Proof.Machine
end

