-- ==== Sys2Proof/Machine/Load.lean ====
section
/-! DEFINITION. Loading a schedule (R163, R228, R329): writes of frames and descriptors, the lines of LOAD-TURNS, and the start of the fit check. -/

namespace Sys2Proof.Machine

/-! ### Writes, R163 -/

/-- A write that R163 governs: a check must be made again. -/
def State.uncheck (s : State) : State := s.setFs [(TURN_CHECK_DONE, 0), (TURN_CHECK_PASS, 0)]

/-- A `PORT` is on HG0 or HG1: a relay's is at the instance that it names, any other at this one. A guest's is no window and no context
either (R226, R228). -/
def State.guestPort (s : State) (port : Nat) : Bool :=
  let k := bitsOf port 28 4
  if k = 3 then isGuestEdge (port % 128) else s.guestEdge && k != 1 && k != 2

/-- A descriptor with a `PORT` may become VALID for its VI (R228). -/
def State.streamAllowed (s : State) (id vi port : Nat) : Bool :=
  s.viActive vi && decide (4 * s.getF (VI_SHR_SBASE4 vi) ≤ id ∧ id < 4 * (s.getF (VI_SHR_SBASE4 vi) + s.getF (VI_SHR_SCNT4 vi)))
    && (!s.getB (VI_ENT_GUEST vi) || s.guestPort port)

/-- The bits of a descriptor's word that are not Zero (R150, R5). -/
def descMask (w : Nat) : Word := if w = 0 then 0xC0FF0000 else if w = 3 then 0 else 0xFFFFFFFF

/-- Words of a descriptor are replaced; what the stream held supplied or was reading ahead is dropped. Whether the other
end of a relay, a stream of another instance, names this one is a free value (log entry 147). -/
def State.putDesc (s : State) (id : Nat) (ws : List (Nat × Word)) : State :=
  let s := { s with trn := { s.trn with descs := s.trn.descs.setAll (ws.map (fun (p : Nat × Word) => (4 * id + p.1, p.2 &&& descMask p.1)))
                                        ahead := s.trn.ahead.filter (fun a => a.key != id) } }
  let s := { s with trn := { s.trn with relayBad := s.trn.relayBad.filter (· != id) } }
  let s := if s.portKind id = 3 then
      { s.takeFree with trn := { s.trn with relayBad := s.trn.relayBad ++ (if s.freeNow.toNat % 2 = 1 then [id] else []) } }
    else s
  let s := s.setReady id []
  if s.descValid id && !s.descRx id then s.refill id else s

/-- A descriptor write of the words `ws`: one that leaves the entry `VALID` for a VI that may not have it is refused (R228). A check must be
made again after any other (R163). -/
def State.writeDesc (s : State) (id off : Nat) (ws : List (Nat × Word)) : State :=
  let now_ (k : Nat) : Nat := match ws.find? (fun p => p.1 == k) with | some p => p.2.toNat | none => s.desc id k
  if bitOf (now_ 0) 31 && !s.streamAllowed id (bitsOf (now_ 0) 16 8) (now_ 2) then s.refused off else s.uncheck.putDesc id ws

/-- STREAM_DESCRIPTOR_WRITE: a word of a descriptor through page 0x10 of the window (R150, R163, R228). -/
def execStreamDescriptorWrite (id : BitVec 10) (word : Fin 4) (v : Word) (s : State) : Host.Outcome State Fault Refusal :=
  let off := 0x8000 + 16 * id.toNat + 4 * word.val
  done s (s.regCmd off v.toNat (fun s => if s.run then s.refused off else s.writeDesc id.toNat off [(word.val, v)]))

/-- A word of a Turn frame is written (R163). -/
def State.writeFrame (s : State) (frame word off : Nat) (v : Word) : State :=
  if s.run then s.refused off
  else { s.uncheck with trn := { s.uncheck.trn with frames := s.trn.frames.set (8192 * frame + word) v } }

/-! ### The start of the fit check, R163 -/

/-- Values of R25 and R120 that a what-if check may take. -/
def State.whatifOk (s : State) (k w m : Nat) : Bool := decide (k ≤ 16) && (allowedWidths s.place).contains w && decide (m < 3) && bitOf (ownModes s.place) m

/-- The fit check starts, and contexts are validated (R163, R199): refused while `RUN` is 1 or with what-if values that are not evaluated. -/
def State.startCheck (s : State) : State :=
  let s' := s.validateAll
  if s.run || (s.getB TURN_WHATIF_EN && !s.whatifOk (s.getF TURN_WHATIF_K) (s.getF TURN_WHATIF_WIDTH) (s.getF TURN_WHATIF_MODE)) then
    s.refused TURN_CTRL
  else { s'.uncheck with trn := { s'.trn with checking := true } }

/-- TURN_CTRL_CHECK (R163). -/
def execTurnCtrlCheck (s : State) : Host.Outcome State Fault Refusal := done s (s.regCmd TURN_CTRL 2 State.startCheck)

/-! ### LOAD-TURNS, R329 -/

/-- Lines of a page. -/
def pageLines (place : Nat) : Nat := pageEntries place / 32

/-- The address of line `i` of a load: the resident pages, then the 16 KiB of descriptors. -/
def State.loadGa (s : State) (l : Load) (i : Nat) : Nat :=
  let n := l.pages * pageLines s.place
  if i < n then l.ga + 128 * i else l.dga + 128 * (i - n)

/-- Lines of a load. -/
def State.loadLines (s : State) (l : Load) : Nat := l.pages * pageLines s.place + 128

/-- Ask for the lines that are left, as far as tags are free. -/
def State.loadIssue (s : State) : State :=
  match s.trn.load with
  | none => s
  | some l =>
    let one (i : Nat) (t : State) : Option State := t.issue 16 0 64 i (s.getF MOV_SYS_VI) (s.loadGa l i) (msgRead (s.loadGa l i))
    let r := issueList s (((List.range (s.loadLines l)).drop l.next).map one)
    { r.1 with trn := { r.1.trn with load := some { l with next := l.next + r.2 } } }

/-- The words of a line. -/
def lineWords (line : BitVec 1024) : List Word := (List.range 32).map (fun i => BitVec.ofNat 32 (bitsOf line.toNat (992 - 32 * i) 32))

/-- A load ends without a check. -/
def State.loadFails (s : State) : State :=
  let tags := s.mov.tags.map (fun t => if t.kind == 16 then { t with dead := true } else t)
  ({ s with trn := { s.trn with load := none }, mov := { s.mov with tags := tags } }).runEnds 0x30 0x0D []

/-- Line `i` of a load has come: it is written, and the check starts after the last (R329). -/
def State.loadAnswer (s : State) (i err : Nat) (line : BitVec 1024) : State :=
  match s.trn.load with
  | none => s
  | some l =>
    if err != 0 then s.loadFails else
    let ws := lineWords line
    let n := l.pages * pageLines s.place
    let s := { s with trn := { s.trn with load := some { l with got := l.got + 1 } } }
    let s :=
      if i < n then
        let f := i / pageLines s.place
        let o := 32 * (i % pageLines s.place)
        { s.uncheck with trn := { s.uncheck.trn with frames := s.trn.frames.setAll ((List.range 32).map (fun j => (8192 * f + o + j, ws.getD j 0))) } }
      else
        (List.range 8).foldl (fun s e =>
          s.writeDesc (8 * (i - n) + e) (0x8000 + 16 * (8 * (i - n) + e)) ((List.range 4).map (fun j => (j, ws.getD (4 * e + j) 0)))) s.uncheck
    if l.got + 1 = s.loadLines l then ({ s with trn := { s.trn with load := none } }).startCheck else s.loadIssue

end Sys2Proof.Machine
end

