-- ==== Sys2Proof/Machine/Answers.lean ====
section
/-! DEFINITION. Answers to the instance's own requests (R177, R180, R231): the generation test, the match of a tag, and what the answer
does to whom it serves; failures without an answer; publication of receive windows (R182). -/

namespace Sys2Proof.Machine

/-- A tag is free again: a window write that waits for one takes it (R177, R182). -/
def State.dropTag (s : State) (t : Tag) : State :=
  ({ s with mov := { s.mov with tags := s.mov.tags.filter (fun x => x.tag != t.tag) } }).pumpWrites 1

/-- The window publication of Round `n` has been written: it is no longer due. -/
def State.pubDone (s : State) (w n : Nat) : State :=
  { s with mov := { s.mov with pub := s.mov.pub.filter (fun p => !(p.1 == w && p.2 == n)) } }

/-- The VI of a window's publication: that of the stream or the context that feeds it. -/
def State.winVi (s : State) (w : Nat) : Nat :=
  match s.trn.descs.find? (fun e => e.1 % 4 == 2 && e.2.toNat / 2 ^ 28 == 1 && e.2.toNat % 32 == w) with
  | some e => s.descVi (e.1 / 4)
  | none =>
    match (List.range 32).find? (fun c => s.ctxEn c && s.getF (FOLD_CTX_DST_OUTDST c) == 1 && s.getF (FOLD_CTX_DST_OUTSEL c) % 32 == w) with
    | some c => s.ctxVi c
    | none => s.getF MOV_SYS_VI

/-- The flag write of a publication: the Round number, with a stamp under trace whose ring field the spec does not give (R182,
R189). -/
def State.pubFlag (s : State) (w n : Nat) : Option State :=
  let a := s.getW (MOV_SWIN_FLAG w)
  let st := s.stamp (s.getF (MOV_SWIN_CFG_SCOPE w)) (s.freeNow.toNat % 64)
  let data := beBytes 8 n ++ (if s.getB MOV_CTRL_TRACE then beBytes 8 st else [])
  s.takeFree.issue 11 w 64 n (s.winVi w) a (msgWriteSome a (a % 128) data)

/-- The release of a window's publication is complete: the window's release count advances (R68, R185). -/
def State.winReleased (s : State) (w : Nat) : State := { s with mov := { s.mov with winRel := s.mov.winRel.set w (s.mov.winRel.get w + 1) } }

/-- An answer reaches what it serves: `err` the status of a failure (0 none). A failed window or read-ahead access has no status of
its own: its bytes are free values (log entry 24), and a failed write of a window or publication counts as done (DESIGN CHOICE, log entry 136).
A descriptor line is taken as it was read, `POISON` or not (DESIGN CHOICE, log entry 134). -/
def State.serve (s : State) (t : Tag) (err : Nat) (poison : Bool) (line : BitVec 1024) : State :=
  if t.kind ≤ 4 || t.kind = 6 then (s.engAnswer t err poison line).jobsRun
  else if t.kind = 5 then s.fetchAnswer t err line
  else if t.kind = 7 || t.kind = 8 then s.jobAnswer t err poison line
  else if t.kind = 9 then s.aheadAnswer t.tag []
  else if t.kind = 10 then (let u := s.winReleased t.owner; (u.pubFlag t.owner t.arg).getD u)
  else if t.kind = 11 then s.pubDone t.owner t.arg
  else if t.kind = 16 then s.loadAnswer t.arg (if poison && err == 0 then 3 else err) line
  else if t.kind = 15 then (if err = 0 then s else { s with trn := { s.trn with deckMiss := true } })
  else if err = 0 then s.aheadAnswer t.tag (beBytes 128 line.toNat)
  else
    let l := (List.range 32).flatMap (fun i => beBytes 4 (Config.freeWord (s.free + i)).toNat)
    ({ s with free := s.free + 32 }).aheadAnswer t.tag l

/-- An answer to a request of the instance: tested for staleness, matched to its tag, and applied (R231, R177). -/
def State.answer (s : State) (m : List Pip) : State :=
  let h := msgHead m
  if s.staleOw (msgOw m) then s.count CNT_VI_STALE
  else match s.mov.tags.find? (fun t => t.tag == h.tag) with
    | none => s
    | some t =>
      let s := s.dropTag t
      if t.dead then s.jobsRun else
      let st := bitsOf (msgWord m) 24 8
      let err := if h.op = 0x0F then (if st = 0 then 4 else st) else 0
      s.serve t err (h.op == 1 && st == 3) (BitVec.ofNat 1024 (ofBytes (pipsBytes ((m.drop 1).take 8))))

/-- The message is an answer to one of the instance's own requests (R177). -/
def State.ownAnswer (s : State) (m : List Pip) : Bool :=
  let h := msgHead m
  let ow := msgOw m
  h.chan == 1 && owPod ow == s.pod_ && owDie ow == dieOf s.place && s.mov.tags.any (fun t => t.tag == h.tag)

/-- A request ends without an answer, as failed with a status; `keep` leaves its tag unavailable (R177, R180). -/
def State.failTag (s : State) (t : Tag) (code : Nat) (keep : Bool) : State :=
  let s := if keep then { s with mov := { s.mov with tags := s.mov.tags.map (fun x => if x.tag == t.tag then { x with dead := true, timedOut := true } else x) } }
    else s.dropTag t
  if t.dead then s else s.serve t code false 0

/-- Every request outstanding on the instance's own link ends as failed (R180), and the tags whose answers are late are free again (R177). -/
def State.failLinkTags (s : State) : State :=
  let s := (s.mov.tags.filter (·.link)).foldl (fun s t => s.failTag t 5 false) s
  (s.mov.tags.filter (·.timedOut)).foldl State.dropTag s

/-- A release is due for a window's Round: every position of a stream that feeds it in the Round is settled, and every byte of the Round applied
(R182, R200). -/
def State.pubReady (s : State) (w n : Nat) : Bool :=
  s.mov.pub.contains (w, n) && !s.trn.ahead.any (fun a => a.key == 0x30000 + w && a.round == n) && !s.mov.tags.any (fun t => (t.kind == 10 || t.kind == 11) && t.owner == w && !t.dead)
    && !s.trn.sbuf.any (fun e => e.round == n && s.portKind e.stream == 1 && s.descPort e.stream % 32 == w)
    && (match s.curPos false with
        | none => true
        | some (k, p) => decide (n < k) || !((s.roundRuns false n).any (fun r =>
            r.isStream && (decide (k < n) || decide (p.off < r.off + r.len)) && s.portKind r.stream == 1 && s.descPort r.stream % 32 == w)))

/-! ### The commands -/

/-- DESCRIPTOR_FETCH_ISSUE: the next line of posted descriptors is read (R176). -/
def execDescriptorFetchIssue (ring : Fin 64) (s : State) : Host.Outcome State Fault Refusal := done s ((s.fetchLine ring).getD s)

/-- The crossings that the answer to a request comes through: none for one that went over the instance's own link, else that of the on-die network
(R178, R252). -/
def State.answerWay (s : State) (tag : Nat) : List Nat := if s.mov.tags.any (fun t => t.tag == tag && t.link) then [] else [2]

/-- A descriptor line, or the status of a failed read, is taken (R176). -/
def State.fetchReturns (s : State) (tag status : Nat) (line : BitVec 1024) : State :=
  match s.mov.tags.find? (fun t => t.tag == tag && t.kind == 5) with
  | none => s
  | some t => if t.dead then s.dropTag t else (s.dropTag t).fetchAnswer t (if status = 3 then 0 else status) line

/-- DESCRIPTOR_FETCH_RETURN: a descriptor line, or the status of a failed read, comes back under its tag; a line marked `POISON` is taken as it
was read (R174; log entry 134). -/
def execDescriptorFetchReturn (tag : BitVec 16) (status : Byte) (line : BitVec 1024) (s : State) : Host.Outcome State Fault Refusal :=
  done s (s.through (s.answerWay tag.toNat) (.descriptorFetchReturn tag status line) (State.fetchReturns · tag.toNat status.toNat line))

/-- Start the next descriptor of the ring in turn on a free mover when its operation is `op` (R176, R229). -/
def State.startDesc (s : State) (m ring op : Nat) : State :=
  let s := s.startBad 4
  match s.nextDesc ring with
  | none => s
  | some (code, d) =>
    if (s.eng m).active || code != 0 || dOp d != op || s.nextRing != some ring then s
    else ((s.startOn m ring code d).engRun m 64).startBad 4

/-- COPY_DESCRIPTOR (R175, R178). -/
def execCopyDescriptor (m : Fin 4) (ring : Fin 64) (s : State) : Host.Outcome State Fault Refusal := done s (s.startDesc m ring 1)
/-- SIGNAL_DESCRIPTOR (R175, R185). -/
def execSignalDescriptor (m : Fin 4) (ring : Fin 64) (s : State) : Host.Outcome State Fault Refusal := done s (s.startDesc m ring 2)
/-- WAIT_DESCRIPTOR (R175). -/
def execWaitDescriptor (m : Fin 4) (ring : Fin 64) (s : State) : Host.Outcome State Fault Refusal := done s (s.startDesc m ring 3)
/-- FENCE_DESCRIPTOR (R175, R185). -/
def execFenceDescriptor (m : Fin 4) (ring : Fin 64) (s : State) : Host.Outcome State Fault Refusal := done s (s.startDesc m ring 4)

/-- MOVER_REQUEST_ISSUE: a mover issues its next request when a tag is free (R177). -/
def execMoverRequestIssue (m : Fin 4) (s : State) : Host.Outcome State Fault Refusal :=
  done s (match s.engStep m with | none => s | some t => t.engRun m 64)

/-- MOVER_RESPONSE_RECEIVE: an answer to a request of the instance (R177, R231), one from the on-die network through crossing 2 (R253). -/
def execMoverResponseReceive (msg : List Pip) (s : State) : Host.Outcome State Fault Refusal :=
  done s (s.through (s.answerWay (msgHead msg).tag) (.moverResponseReceive msg) (State.answer · msg))

/-- WAIT_POLL: once every `POLL` × 64 ticks from the answer to its last read, a WAIT reads its flag again (R175). -/
def execWaitPoll (m : Fin 4) (s : State) : Host.Outcome State Fault Refusal :=
  let e := s.eng m
  done s (if e.active && dOp e.desc == 3 && e.phase == 1 && !e.stop then
      let s := s.advanceTo (e.readAt + 64 * max 1 (s.getF MOV_CTRL_POLL))
      (s.setEng m { e with phase := 0 }).engRun m 4
    else s)

/-- WAIT_TIMEOUT: the limit of a WAIT passes before its comparison holds (R175). It counts from the start of the WAIT on its mover (DESIGN CHOICE, log
entry 135). -/
def execWaitTimeout (m : Fin 4) (s : State) : Host.Outcome State Fault Refusal :=
  let e := s.eng m
  done s (if e.active && dOp e.desc == 3 && decide (e.phase < 3) && !e.stop && dTimeout e.desc != 0 then
      ((s.advanceTo (e.startAt + dTimeout e.desc * 2 ^ 16)).engFail m 6).engRun m 4
    else s)

/-- RESPONSE_TIMEOUT: a request has had no answer for `RSPTO` × 2^16 ticks (R177). -/
def execResponseTimeout (tag : BitVec 16) (s : State) : Host.Outcome State Fault Refusal :=
  done s (match s.mov.tags.find? (fun t => t.tag == tag.toNat && !t.dead) with
    | none => s
    | some t => (s.advanceTo (t.at_ + 2 ^ 16 * max 1 (s.getF MOV_CTRL_RSPTO))).failTag t 8 true)

/-- The request's path is down (R180). A tag whose answer is late stays unavailable (R177). -/
def State.pathDown (s : State) (tag : Nat) : State :=
  match s.mov.tags.find? (fun t => t.tag == tag && !t.link && !t.timedOut) with
  | none => s
  | some t => s.failTag t 5 false

/-- PATH_DOWN_REPORT: the core side reports that a request's path is down (R180). -/
def execPathDownReport (tag : BitVec 16) (s : State) : Host.Outcome State Fault Refusal :=
  done s (s.through [2] (.pathDownReport tag) (State.pathDown · tag.toNat))

/-- The core side has dropped the die's copies for a mover (R187). -/
def State.confirmed (s : State) (m : Nat) : State :=
  let e := s.eng m
  if e.active && dOp e.desc == 3 && e.phase == 3 then s.acquired m else s

/-- ACQUIRE_CONFIRM (R187). -/
def execAcquireConfirm (m : Fin 4) (s : State) : Host.Outcome State Fault Refusal :=
  done s (s.through [2] (.acquireConfirm m) (State.confirmed · m))

/-- WINDOW_PUBLISH: a Round whose released bytes are all applied is published: a release, whose FENCE carries the window's release count as its number
as a ring's does (R182, R185; log entry 116), and then the flag write. -/
def execWindowPublish (w : Fin 32) (s : State) : Host.Outcome State Fault Refusal :=
  done s (match s.mov.pub.find? (fun p => p.1 == w.val) with
    | none => s
    | some (_, n) =>
      if !s.pubReady w n then s
      else if s.getW (MOV_SWIN_FLAG w) = 0 then s.pubDone w n
      else
        let base := s.getW (MOV_SWIN_BASE w)
        let ga := base / 2 ^ 48 % 2 ^ 14 * 2 ^ 48
        (s.issue 10 w 64 n (s.winVi w) ga (msgFence (s.getF (MOV_SWIN_CFG_SCOPE w)) (s.mov.winRel.get w).toNat)).getD s)

/-- XJ_END: every write of a job has its answer (R221). -/
def execXjEnd (j : Fin 8) (s : State) : Host.Outcome State Fault Refusal :=
  done s (if s.jobFinished j then (s.jobEnd j (s.job j).code).jobsRun else s)

end Sys2Proof.Machine
end

