-- ==== Sys2Proof/Machine/Ledger.lean ====
section
/-! DEFINITION. The record queue (R284–R290): records, their sizes, dropping, and the payloads of R286, R287, R288 and R314. -/

namespace Sys2Proof.Machine

/-- Bytes that a record of a payload takes in record space (R284). -/
def recSize (payload : Nat) : Nat := (16 + payload + 4 + 15) / 16 * 16

/-- A checkpoint record: CKPT-CNT or CKPT-HIST. -/
def Rec.isCkpt (r : Rec) : Bool := r.rtype == 8 || r.rtype == 9

/-- Bytes of the queue held by the records that satisfy `p`. -/
def State.recBytes (s : State) (p : Rec → Bool) : Nat := ((s.age.recs.filter p).map (fun r => recSize r.payload.length)).sum

/-- The next `ISEQ` is taken. -/
def State.takeIseq (s : State) : State := { s with age := { s.age with iseq := (s.age.iseq + 1) % 2 ^ 16 } }

/-- Queue an event record; without room it is dropped (R290). -/
def State.queueRecord (s : State) (rtype : Nat) (payload : List Byte) : State :=
  let r : Rec := ⟨rtype, s.age.iseq, payload, none, none⟩
  let fits := s.recBytes (fun _ => true) + recSize payload.length ≤ 16384
  let s := s.takeIseq
  if fits then { s with age := { s.age with recs := s.age.recs ++ [r] } }
  else ((s.count CNT_LQ_LOST).setB AGE_LQ_FULL true).raise 0x0702

/-- Queue a checkpoint pair in place of an unsent older one. A pair that finds no room is not queued (log entry 25). -/
def State.queueCkpt (s : State) (cnt hist : List Byte) : State :=
  let a : Rec := ⟨8, s.age.iseq, cnt, none, none⟩
  let b : Rec := ⟨9, s.takeIseq.age.iseq, hist, none, none⟩
  let s := { s.takeIseq.takeIseq with age := { s.takeIseq.takeIseq.age with recs := s.age.recs.filter (fun r => !(r.isCkpt && r.sentAt.isNone)) } }
  if s.recBytes (fun _ => true) + recSize cnt.length + recSize hist.length ≤ 16384 then
    { s with age := { s.age with recs := s.age.recs ++ [a, b] } }
  else s

/-- The bytes of a record as it leaves the instance: header, payload, CRC-32 (R284); `STAMP` is filled in by the agent. -/
def Rec.bytes (r : Rec) (inst : Nat) : List Byte :=
  let l := beBytes 2 r.rtype ++ beBytes 1 inst ++ beBytes 1 1 ++ beBytes 2 r.payload.length ++ beBytes 2 r.iseq ++ beBytes 8 0 ++ r.payload
  l ++ beBytes 4 (crc32 l)

/-! ### Histograms, R288: bins in `Age.hist`, 256 bytes apart per histogram -/

/-- Bins of a lane's eye-height histogram start here. -/
def histEye (lane : Nat) : Nat := 32 * lane
/-- Bins of a lane's CSR histogram. -/
def histCsr (lane : Nat) : Nat := 1024 + 32 * lane
def histTemp : Nat := 2048
def histReplay : Nat := 2080
def histDroop : Nat := 2096

/-- A histogram bin counts once more (R288). -/
def State.bin (s : State) (i : Nat) : State :=
  { s with age := { s.age with hist := s.age.hist.set i (BitVec.ofNat 32 (min (2 ^ 32 - 1) ((s.age.hist.get i).toNat + 1))) } }

/-- The bin of a rise: 0, or n for a rise in [2^(n−1), 2^n) (R288). -/
def riseBin (n : Nat) : Nat := if n = 0 then 0 else min 15 (Nat.log2 n + 1)

/-- Bytes of `n` bins from a first. -/
def State.binBytes (s : State) (i n : Nat) : List Byte := (List.range n).flatMap (fun k => beBytes 4 (s.age.hist.get (i + k)).toNat)

/-- A checkpoint is queued with its number (R287, R288). -/
def State.checkpoint (s : State) (number : Nat) : State :=
  let s := s.bin (histReplay + riseBin (s.cnt CNT_REPLAY - s.age.replayBase))
  let s := s.bin (histDroop + riseBin (s.cnt CNT_DROOP - s.age.droopBase))
  let s := { s with age := { s.age with replayBase := s.cnt CNT_REPLAY, droopBase := s.cnt CNT_DROOP } }
  let cnt := beBytes 4 number ++ beBytes 4 0 ++ (List.range 256).flatMap (fun i => beBytes 4 (s.rd (0x5000 + 4 * i)))
  let lanes := laneList s.place
  let hist := beBytes 4 number ++ beBytes 4 lanes.length ++ lanes.flatMap (fun l => s.binBytes (histEye l) 32)
    ++ lanes.flatMap (fun l => s.binBytes (histCsr l) 32) ++ s.binBytes histTemp 32 ++ s.binBytes histReplay 16 ++ s.binBytes histDroop 16
  s.queueCkpt cnt hist

/-! ### Payloads, R286 and R314 -/

/-- Queue a LANE record (R277, R286). -/
def State.recLane (s : State) (l old new why : Nat) : State :=
  s.queueRecord 3 (beBytes 1 l ++ beBytes 1 old ++ beBytes 1 new ++ beBytes 1 why ++ beBytes 2 (s.getF (AGE_LANE_STAT_EYE l))
    ++ beBytes 2 (s.getF (AGE_LANE_TREND_SLOPE l)) ++ beBytes 4 (s.getF (AGE_LANE_CSR_CORR l)) ++ beBytes 1 (s.getF (AGE_LANE_STAT_RETURNS l)) ++ beBytes 3 0)

/-- Queue a WIDTH record. -/
def State.recWidth (s : State) (old new tick : Nat) : State :=
  s.queueRecord 4 (beBytes 1 old ++ beBytes 1 new ++ beBytes 1 (s.getF LINK_STATUS_MODE) ++ beBytes 1 (s.getF LINK_STATUS_FREE)
    ++ beBytes 3 (s.getF LINK_EXCL_EXCL) ++ beBytes 1 0 ++ beBytes 8 tick)

/-- Queue an INSTRET record. -/
def State.recInstret (s : State) (reason usable : Nat) : State :=
  s.queueRecord 5 (beBytes 1 reason ++ beBytes 1 usable ++ beBytes 3 (s.getF LINK_EXCL_EXCL) ++ beBytes 3 0 ++ beBytes 8 s.tick)

/-- Queue a DBGUNLOCK record. -/
def State.recDbg (s : State) : State := s.queueRecord 7 (beBytes 4 (s.getF FW_VIOL_COUNT) ++ beBytes 4 0 ++ beBytes 8 s.tick)

/-- Queue an EPOCH record (R273, R286). -/
def State.recEpoch (s : State) : State :=
  s.queueRecord 10 (beBytes 2 s.age.nMeas ++ beBytes 1 s.age.nCastle ++ beBytes 1 s.age.nQui ++ beBytes 1 s.age.nSearch
    ++ beBytes 1 s.age.nSwing ++ beBytes 1 s.age.nVerdict ++ beBytes 1 (s.getF AGE_STATUS_BEHIND) ++ beBytes 8 s.tick)

/-- Queue a MICROCODE record (R314). -/
def State.recUcode (s : State) (update : Bool) (check version crc old : Nat) : State :=
  s.queueRecord 12 (beBytes 1 (if update then 2 else 1) ++ beBytes 1 check ++ beBytes 2 version ++ beBytes 4 crc
    ++ beBytes 4 (if update then old else 0) ++ beBytes 4 0)

/-- Queue a DIE-RESET record (R303). -/
def State.recDieReset (s : State) (clock warned : Bool) (link crc tick : Nat) : State :=
  s.queueRecord 13 (beBytes 1 (if clock then 2 else 1) ++ beBytes 1 (if warned then 1 else 0) ++ beBytes 1 link ++ beBytes 1 0 ++ beBytes 4 crc ++ beBytes 8 tick)

end Sys2Proof.Machine
end

