-- ==== Sys2Proof/Machine/Lanes.lean ====
section
/-! DEFINITION. Lanes (R29, R30), their equalisation (R43, R44), the lane map and its construction (R28, R121), widths (R120),
training messages (R110–R112) and the change of link state (R109). -/

namespace Sys2Proof.Machine

/-! ### Equalisation, R43 and R44 -/

/-- The main cursor that transmit codes leave, in 1/64. -/
def mainCursor (pre2 pre1 post1 : Nat) : Nat := 64 - (pre2 + pre1 + post1)

/-- Transmit codes that R43 allows: each in its range, and a main cursor of at least 32/64. -/
def eqAllowed (swing pre2 pre1 post1 : Nat) : Bool :=
  decide (swing ≤ 15 ∧ pre2 ≤ 6 ∧ pre1 ≤ 20 ∧ post1 ≤ 16 ∧ pre2 + pre1 + post1 ≤ 32)

/-- Transmit codes of a `LANE_TXEQ` word: swing, PRE2, PRE1, POST1. -/
def eqOfWord (v : Nat) : Nat × Nat × Nat × Nat := (bitsOf v 20 4, bitsOf v 16 3, bitsOf v 8 5, bitsOf v 0 5)

/-- A `LANE_TXEQ` word of transmit codes. -/
def eqWord (swing pre2 pre1 post1 : Nat) : Nat := swing % 16 * 2 ^ 20 + pre2 % 8 * 2 ^ 16 + pre1 % 32 * 2 ^ 8 + post1 % 32

/-- Transmit values take effect on a lane. -/
def State.applyTx (s : State) (l v : Nat) : State :=
  let e := eqOfWord v
  s.setFs [(LANE_TXEQ_SWING l, e.1), (LANE_TXEQ_PRE2 l, e.2.1), (LANE_TXEQ_PRE1 l, e.2.2.1), (LANE_TXEQ_POST1 l, e.2.2.2),
    (LANE_TXEQ_MAIN l, mainCursor e.2.1 e.2.2.1 e.2.2.2)]

/-- CTLE and gain take effect on a lane. -/
def State.applyRx (s : State) (l v : Nat) : State := s.setFs [(LANE_RXEQ_VGA l, bitsOf v 8 5), (LANE_RXEQ_CTLE l, bitsOf v 0 4)]

/-- Pending transmit and receive values of a lane take effect (R44). -/
def State.applyPending (s : State) (l : Nat) : State :=
  let s := match s.age.pendTx.find? (fun p => p.1 == l) with
    | none => s
    | some p => (s.applyTx l p.2.toNat).setB (LANE_STATUS_TXEQ_PEND l) false
  let s := match s.age.pendRx.find? (fun p => p.1 == l) with
    | none => s
    | some p => (s.applyRx l p.2.toNat).setB (LANE_RXEQ_RXEQ_PEND l) false
  { s with age := { s.age with pendTx := s.age.pendTx.filter (fun p => p.1 != l), pendRx := s.age.pendRx.filter (fun p => p.1 != l) } }

/-- A point of a sweep runs on a lane. -/
def State.sweepBusy (s : State) (l : Nat) : Bool := match s.age.sweep with | some w => w.lane == l && w.busy | none => false

/-- A sweep of a lane restarts from its first point after a change of equalisation (R47). -/
def State.sweepRestart (s : State) (l : Nat) : State :=
  match s.age.sweep with
  | some w => if w.lane = l then { s.count CNT_SWEEP_LOST with age := { s.age with sweep := some { w with pt := 0, busy := false } } } else s
  | none => s

/-- Values wait on an Active lane (R44, R341), and on any lane while a sweep point runs on it (R47). -/
def State.eqWaits (s : State) (l : Nat) : Bool := s.getF (LANE_STATUS_STATE l) == 3 || s.sweepBusy l

/-- Write transmit values to a lane (R43, R44). -/
def State.writeTx (s : State) (l v : Nat) : State :=
  let e := eqOfWord v
  if !eqAllowed e.1 e.2.1 e.2.2.1 e.2.2.2 then s.refused (LANE_TXEQ l)
  else if s.eqWaits l then
    let s := s.setB (LANE_STATUS_TXEQ_PEND l) true
    { s with age := { s.age with pendTx := s.age.pendTx.filter (fun p => p.1 != l) ++ [(l, BitVec.ofNat 32 v)] } }
  else (s.applyTx l v).sweepRestart l

/-- Write CTLE and gain to a lane (R43, R44). -/
def State.writeRx (s : State) (l v : Nat) : State :=
  if s.eqWaits l then
    let s := s.setB (LANE_RXEQ_RXEQ_PEND l) true
    { s with age := { s.age with pendRx := s.age.pendRx.filter (fun p => p.1 != l) ++ [(l, BitVec.ofNat 32 v)] } }
  else (s.applyRx l v).sweepRestart l

/-- A lane has a value waiting. -/
def State.eqPending (s : State) (l : Nat) : Bool := s.age.pendTx.any (fun p => p.1 == l) || s.age.pendRx.any (fun p => p.1 == l)

/-! ### Lane states -/

def State.laneState (s : State) (l : Nat) : Nat := s.getF (LANE_STATUS_STATE l)
/-- Data and spare lanes of the instance. -/
def State.lanes (s : State) : List Nat := laneList s.place
/-- The mode that lanes run in: the link's, or while none is in force the mode that training works at. -/
def State.laneMode (s : State) : Nat := if s.getF LINK_STATUS_MODE = 3 then s.lnk.eqMode else s.getF LINK_STATUS_MODE

/-- CTLE and gain of a lane stand where the receiver's adaptation left them: free values within their ranges (R43; log entry 30). -/
def State.adapted (s : State) (l : Nat) : State := (s.applyRx l s.freeNow.toNat).takeFree

/-- A pattern ends because its lane leaves Training and Measure (R341): what a locked checker found in error counts, a free value (log
entry 37). -/
def State.patEnds (s : State) (l : Nat) : State :=
  let t := if s.getB (LANE_PAT_LOCK l) then (s.bump (LANE_PRBS_ERR_COUNT l) s.freeNow.toNat).takeFree else s
  (t.setB (LANE_PAT_RUN l) false).setB (LANE_PAT_LOCK l) false

/-- A lane enters a state (R29): `MODE` is shown while it is Active or Training, CTLE and gain adapt in Training and Measure, a
pattern ends when it leaves them, and pending values take effect when it leaves Active. A lane that the instance does not have has no state. -/
def State.setLane (s : State) (l st : Nat) : State :=
  let old := s.laneState l
  if !(s.lanes.contains l || l == 18) || (old = 5 && st != 0) then s else
  let s := s.setF (LANE_STATUS_STATE l) st
  let s := s.setF (LANE_STATUS_MODE l) (if st = 2 || st == 3 then s.laneMode else 3)
  let s := if l = 18 then s else s.setB (LANE_RXEQ_ADAPT l) (st == 2 || st == 4)
  let s := if st = 2 || st == 4 || l == 18 then s else s.patEnds l
  let s := if (old == 2 || old == 4) && (st == 1 || st == 3) then s.adapted l else s
  let s := if st = 3 && old != 3 then s.setB (LANE_SNR_VALID l) false else s
  if old = 3 && st != 3 then s.applyPending l else s

/-- The checker of a lane has found `bytes` bytes with a bit in error: each bit counts where the checker has locked, so that the rise lies between that
number and eight times it, a free value within those bounds (R52, R341; log entry 37). -/
def State.prbsErrs (s : State) (l bytes : Nat) : State :=
  if bytes = 0 || !s.getB (LANE_PAT_LOCK l) then s else (s.bump (LANE_PRBS_ERR_COUNT l) (bytes + s.freeNow.toNat % (7 * bytes + 1))).takeFree

/-- Several lanes enter a state. -/
def State.setLanes (s : State) (ls : List Nat) (st : Nat) : State := ls.foldl (fun s l => s.setLane l st) s

/-! ### Exclusion, usable lanes, the map -/

def State.excl (s : State) : Nat := s.getF LINK_EXCL_EXCL
/-- Lanes found usable that are not excluded. -/
def State.usableLanes (s : State) : List Nat := s.lanes.filter (fun l => bitOf s.lnk.usable l && !bitOf s.excl l)
/-- The lane of each position in order. -/
def State.mapList (s : State) : List Nat := ((List.range 16).map (fun p => s.getF (LINK_MAP_POS p))).takeWhile (fun l => l != 31)

/-- `FREE`: usable lanes in Standby outside the map (R121). -/
def State.refree (s : State) : State :=
  let m := s.mapList
  s.setF LINK_STATUS_FREE ((s.usableLanes.filter (fun l => !m.contains l && s.laneState l == 1)).length)

/-- The checkers of the instance's lanes, in order, have found numbers of errored bytes. -/
def State.prbsAll (s : State) (errs : List Nat) : State := (s.lanes.zip errs).foldl (fun s p => s.prbsErrs p.1 p.2) s

/-- Add lanes to the exclusion set. -/
def State.exclude (s : State) (mask : Nat) : State := (s.setF LINK_EXCL_EXCL (s.excl ||| mask)).refree

/-- Place a map: the position of every lane and `LINK_MAP`. -/
def State.setMap (s : State) (m : List Nat) : State :=
  let s := (List.range 16).foldl (fun s p => s.setF (LINK_MAP_POS p) (m.getD p 31)) s
  s.lanes.foldl (fun s l => s.setF (LANE_STATUS_POS l) (if m.contains l then m.idxOf l else 31)) s

/-- Lanes with a position become Active; every other lane goes to Standby, but for one that is Retired, and with `keep` one that is in
preparation or measurement. -/
def State.placeLanes (s : State) (keep : Bool) : State :=
  let m := s.mapList
  let s := s.lanes.foldl (fun s l =>
    if m.contains l || s.lnk.rxMap.contains l then (if s.laneState l = 3 then s else s.setLane l 3)
    else if s.laneState l = 1 || (keep && (s.laneState l == 2 || s.laneState l == 4)) then s
    else s.setLane l 1) s
  s.refree

/-- Fill the missing positions of a map from the free lanes in order. -/
def fillMap : List (Option Nat) → List Nat → List (Option Nat)
  | [], _ => []
  | some l :: r, free => some l :: fillMap r free
  | none :: r, [] => none :: fillMap r []
  | none :: r, f :: free => some f :: fillMap r free

/-- `build_map(W, U, cur)` of R121 for an instance of place `i`; none where it fails. -/
def buildMap (i w : Nat) (usable cur : List Nat) : Option (List Nat) :=
  let free := usable.filter (fun l => !cur.contains l)
  let free := free.filter (fun l => decide (l < 16)) ++ free.filter (fun l => decide (16 ≤ l))
  let keep : List (Option Nat) := (List.range 16).map (fun p =>
    match cur[p]? with | some l => if usable.contains l then some l else none | none => none)
  let home (a : List (Option Nat) × List Nat) (d : Nat) : List (Option Nat) × List Nat :=
    match a.1.getD d none with
    | some k => if d < w && (spareLanes i).contains k then (a.1.set d (some d), a.2.filter (· != d) ++ [k]) else a
    | none => a
  let a := (free.filter (fun l => decide (l < 16))).foldl home (keep, free)
  let out := if w = cur.length then fillMap (a.1.take w) a.2
    else ((((a.1.filterMap id) ++ a.2).map some) ++ List.replicate w none).take w
  if out.all Option.isSome then some (out.filterMap id) else none

/-- The map at the widest width not above `w` among `ws` (widest first) that can be built (R121). -/
def buildWidest (i : Nat) (usable cur : List Nat) : List Nat → Option (List Nat)
  | [] => none
  | w :: ws => match buildMap i w usable cur with
    | some m => some m
    | none => buildWidest i usable cur ws

/-- Allowed widths in the used `WIDTHS`, widest first (R120). -/
def State.usedWidths (s : State) : List Nat := (allowedWidths s.place).filter (fun w => s.used 10 &&& widthBit w != 0)

/-- W(n) of R116: the widest allowed width that `n` lanes fill; 0 when none. -/
def widestFor (i n : Nat) : Nat := ((allowedWidths i).find? (fun w => decide (w ≤ n))).getD 0

/-! ### Training messages -/

/-- A mask of 24 bits as three bytes. -/
def mask3 (v : Nat) : List Byte := beBytes 3 v

/-- A training message as it leaves: a frame on SB, or a block on every lane in Training (R110). The spacing of blocks is timing (DESIGN CHOICE, log
entry 144). -/
def State.trainOut (s : State) (tcode : Nat) (body : List Byte) : Out :=
  if s.far then .blocks ((s.lanes.filter (fun l => s.laneState l == 2)).map (fun l => (l, trainBlock tcode l body)))
  else .sb (sbFrame 1 (trainPayload tcode body))

/-- Send a training message once (R110). -/
def State.say (s : State) (tcode : Nat) (body : List Byte) : State := s.emit (s.trainOut tcode body)

/-- Send a training message that is repeated until answered (R112). -/
def State.sayUntil (s : State) (tcode : Nat) (body : List Byte) : State :=
  let s := s.say tcode body
  { s with lnk := { s.lnk with msgs := s.lnk.msgs.filter (fun m => !(m.tcode == tcode && (tcode != 2 || m.body.take 2 == body.take 2)))
                                 ++ [⟨tcode, body, 1, s.now⟩] } }

/-- A repeated training message has been answered. -/
def State.answered (s : State) (p : TrainMsg → Bool) : State := { s with lnk := { s.lnk with msgs := s.lnk.msgs.filter (fun m => !p m) } }

/-- No training message is repeated any longer. -/
def State.hush (s : State) : State := { s with lnk := { s.lnk with msgs := [] } }

/-- The body of READY (R111). -/
def readyBody (mode width excl : Nat) (map : List Nat) : List Byte :=
  beBytes 1 mode ++ beBytes 1 width ++ mask3 excl ++ (List.range 16).map (fun p => BitVec.ofNat 8 (map.getD p 31))

/-- The body of EQ-SET and EQ-DONE (R111). -/
def eqBody (reqid lane mode swing pre2 pre1 post1 : Nat) : List Byte :=
  beBytes 1 reqid ++ beBytes 1 lane ++ beBytes 1 mode ++ beBytes 1 swing ++ beBytes 1 pre2 ++ beBytes 1 pre1 ++ beBytes 1 post1

/-! ### Link state -/

/-- The link enters a state (R109): `WIDTH` is shown in Up and Shift only; the change is traced with its cause (R347). -/
def State.setLink (s : State) (st cause : Nat) : State :=
  let old := s.link
  let s := s.setF LINK_STATUS_STATE st
  let w := if st = 4 || st == 5 then s.mapList.length else 0
  let s := s.setF LINK_STATUS_WIDTH w
  let s := { s with lnk := { s.lnk with since := s.now } }
  if s.getB TRACE_CTRL_LINK && old != st then
    s.trace 4 (beBytes 1 old ++ beBytes 1 st ++ beBytes 1 cause ++ beBytes 1 w ++ beBytes 4 0 ++ beBytes 8 s.tick)
  else s

/-- The die follows the instance's link: `ROLE` is 0b01 and no other instance of the die with that `ROLE` has a lower index (R140; ROLE 0b11
acts as 0b00). -/
def State.isParent (s : State) : Bool :=
  s.getF TIME_CTRL_ROLE == 1 && (match s.tim.rival with | some i => decide (s.place < i) | none => true)

/-- `ROLE` becomes 0b01. Whether another instance of the die has it too, and the lowest that has, is a free value (log entry 142); DEGR is
raised where one has (R140). -/
def State.roleTaken (s : State) : State :=
  let sibs := (List.range 114).filter (fun i => dieOf i == dieOf s.place && i != s.place)
  let r := sibs[s.freeNow.toNat % (sibs.length + 1)]?
  let s := { s.takeFree with tim := { s.tim with rival := r } }
  if r.isSome then s.raise 0x0303 else s

/-- The parent link enters Hold, Retrain or Down (R145). -/
def State.parentLost (s : State) : State :=
  if !s.isParent then s
  else if s.getB TIME_STATUS_PARENT_LOST then s
  else (s.setB TIME_STATUS_PARENT_LOST true).raise 0x0302

end Sys2Proof.Machine
end

