-- ==== Sys2Proof/Machine/Vi.lean ====
section
/-! DEFINITION. Virtual instances (chapter 9): the reset and destruction of a VI at its Round (R234, R235), shares (R229), the check of
core-side accesses (R227) and stream ranges (R228). -/

namespace Sys2Proof.Machine

/-- The rings of a VI. -/
def State.viRings (s : State) (v : Nat) : List Nat :=
  (List.range 64).filter (fun n => s.getB (MOV_RING_CFG_BOUND n) && s.ringVi n == v)

/-- A ring of a reset VI, or of a reset die, stops: `EN` clears, posted descriptors are dropped, running ones end without
status, release or interrupt (R234 step 2, R262). -/
def State.stopRing (s : State) (n : Nat) : State :=
  let s := (s.setB (MOV_RING_CFG_EN n) false).dropPosted n
  { s with mov := { s.mov with eng := s.mov.eng.map (fun e => if e.active && e.ring == n then Eng.idle else e)
                               wset := s.mov.wset.filter (fun w => w.1 != n) } }

/-- A job stops without ending: `GO` clears and `DONE` stays 0. -/
def State.stopJob (s : State) (j : Nat) : State := (s.setJob j Job.empty).setB (FOLD_XJ_CFG_GO j) false

/-- The accesses of a window's key are dropped with the tags that carried them; what was passed over among them `CONS` passes now, and the rest will be
read again. -/
def State.dropAhead (s : State) (key : Nat) : State :=
  let cut := ((s.trn.ahead.filter (fun a => a.key == key)).map (·.cut)).sum
  let t := { s with trn := { s.trn with ahead := s.trn.ahead.filter (fun a => a.key != key) } }
  match s.keyWindow key with
  | some (w, _, _) => if key < 0x10000 then t.setF (MOV_SWIN_CONS_CONS w) (s.winCons w + cut) else t
  | none => t

/-- Every tag of VI `v` is free again: the accesses that it carried are dropped, with those behind them in their order, and window writes of the VI
that wait for a tag (R234 step 4). Reads of streams and operands begin again at `CONS`. -/
def State.freeVi (s : State) (v : Nat) : State :=
  let gone (t : Tag) : Bool := t.vi == v
  let freed := (s.mov.tags.filter gone).map (·.tag)
  let hit := s.trn.ahead.filter (fun (a : Ahead) => a.data.isNone && freed.contains a.tag)
  let keys := (hit.map Ahead.key ++ (s.trn.writes.filter (fun (p : Nat × Nat × Nat × List Byte) => p.2.1 == v)).map (fun (p : Nat × Nat × Nat × List Byte) => 0x30000 + p.1)).eraseDups
  let s := { s with mov := { s.mov with tags := s.mov.tags.filter (fun t => !gone t) }
                    trn := { s.trn with writes := s.trn.writes.filter (fun (p : Nat × Nat × Nat × List Byte) => p.2.1 != v && !keys.contains (0x30000 + p.1)) } }
  let s := (keys.foldl State.dropAhead s).pumpWrites s.trn.writes.length
  (keys.filter (fun k => decide (k < 0x10000))).foldl State.refill s

/-- What a context of a VI holds after its reset at Round `n` (R235): staged data for earlier Rounds is discarded, and it starts Round `n` at element 0.
Operands read ahead beyond those of the earlier Rounds are kept; window counters stay as they stand. Without a stream, or with operands from a relay, which
Round operands are for is not told, and all are discarded (log entry 168). -/
def State.ctxAfterReset (s : State) (c n : Nat) : Ctx :=
  let x := s.ctx c
  let i := s.ctxIf c
  let before := s.roundsWith c n
  let left := (before - x.made) * s.getF (FOLD_CTX_COUNT_COUNT c) - x.elem
  let bytes := if i = 9 then 8 * left else elemBytes i left
  { Ctx.empty with rc := x.rc, made := if s.ctxStreams c then before else x.made
                   opQ := if s.ctxStreams c && s.getF (FOLD_CTX_SRC_OPSRC c) == 1 then x.opQ.drop bytes else [] }

/-- A pending reset or destroy of VI `v` is applied at Round `n` (R234, R235). -/
def State.viResetNow (s : State) (v n : Nat) : State :=
  let destroy := s.getF (VI_ENT_STATE v) == 3
  let rings := s.viRings v
  let jobs := (List.range 8).filter (fun j => s.getB (FOLD_XJ_CFG_GO j) && rings.contains (s.jobRing j))
  let s := (s.setF (VI_ENT_GEN v) (s.getF (VI_ENT_GEN v) + 1)).setF (VI_ENT_STATE v) (if destroy then 0 else 1)
  let s := rings.foldl (fun s r =>
    let s := (s.stopRing r).setB (MOV_RING_CFG_STOPPED r) false
    if destroy then s.setB (MOV_RING_CFG_BOUND r) false else s) s
  let s := jobs.foldl State.stopJob s
  let s := s.freeVi v
  let s := { s with trn := { s.trn with zeroTo := s.trn.zeroTo.filter (fun (p : Nat × Nat) => p.1 != v) ++ [(v, n)] } }
  let mine (m : List Pip) : Bool := carriesOw m && owVi (msgOw m) == v && owPod (msgOw m) == s.pod_
  let s := { s with dlv := s.dropTx (fun t => mine t.m) }
  let cs := (List.range 32).filter (fun c => s.ctxEn c && s.ctxVi c == v)
  let s := cs.foldl (fun s c => s.setCtx c (s.ctxAfterReset c n)) s
  let keys := cs.flatMap (fun c => [0x10000 + c, 0x20000 + c])
  let s := { s with trn := { s.trn with ahead := s.trn.ahead.filter (fun a => !keys.contains a.key) } }
  s.count CNT_VI_RESET

/-- The VIs whose reset or destroy is due at Round `n`. One that was pending when the counter was stepped back has a Round from `taken` on, and is not
due in an earlier one that only agrees with it modulo 256 (R356). -/
def State.visDue (s : State) (n : Nat) : List Nat :=
  (List.range 256).filter (fun v => decide (2 ≤ s.getF (VI_ENT_STATE v)) && s.getF (VI_ENT_E8 v) == n % 256
    && !(decide (n < s.tim.taken) && s.tim.later.contains v))

/-- Every reset and destroy due at Round `n` (R234). -/
def State.viResets (s : State) (n : Nat) : State := (s.visDue n).foldl (fun s v => s.viResetNow v n) s

/-- The number of VI resets and destroys due at Round `n`. -/
def State.viResetsDue (s : State) (n : Nat) : Nat := (s.visDue n).length

/-- Pending shares take force at a Round boundary (R229). -/
def State.shares (s : State) : State :=
  ((List.range 256).filter (fun v => s.getB (VI_ENT_SHARE_PEND v))).foldl
    (fun s v =>
      let t := (s.setF (VI_SHR_SHARE v) (s.getF (VI_SHR_SHARE_NEXT v))).setB (VI_ENT_SHARE_PEND v) false
      if s.mov.rrVi = v then { t with mov := { s.mov with rrLeft := min s.mov.rrLeft (s.getF (VI_SHR_SHARE_NEXT v)) } } else t) s

/-! ### Core-side accesses, R227 -/

/-- The VIs of the enabled contexts and VALID descriptors whose port names a window. -/
def State.windowOwners (s : State) (w : Nat) : List Nat :=
  let ds := (s.trn.descs.filter (fun e => e.1 % 4 == 2 && e.2.toNat / 2 ^ 28 == 1 && e.2.toNat % 32 == w && s.descValid (e.1 / 4))).map
    (fun e => s.descVi (e.1 / 4))
  let cs := ((List.range 32).filter (fun c => s.ctxEn c
      && ((s.getF (FOLD_CTX_SRC_OPSRC c) == 1 && s.getF (FOLD_CTX_SRC_OPSEL c) % 32 == w)
        || (s.getF (FOLD_CTX_DST_OUTDST c) == 1 && s.getF (FOLD_CTX_DST_OUTSEL c) % 32 == w)
        || (s.ctxOp c == 8 && s.getB (FOLD_CTX_ANCHOR_ASRC c) && s.getF (FOLD_CTX_ANCHOR_AWIN c) == w)))).map s.ctxVi
  ds ++ cs

/-- The VI that may reach the resource at an offset from the core side; none where the offset is no such resource, or it has
no VI. -/
def State.resourceVi (s : State) (off : Nat) : Option Nat :=
  if 0x2400 ≤ off ∧ off < 0x2C00 then
    let n := (off - 0x2400) / 0x20
    if (off - 0x2400) % 0x20 = 0xC && s.getB (MOV_RING_CFG_BOUND n) then some (s.ringVi n) else none
  else if 0x2C00 ≤ off ∧ off < 0x3000 then
    let w := (off - 0x2C00) / 0x20
    if (off - 0x2C00) % 0x20 = 0xC || (off - 0x2C00) % 0x20 == 0x10 then
      match s.windowOwners w with
      | [] => none
      | v :: r => if r.all (· == v) then some v else none
    else none
  else if 0x3500 ≤ off ∧ off < 0x3600 then
    let n := s.jobRing ((off - 0x3500) / 0x20)
    if s.getB (MOV_RING_CFG_BOUND n) then some (s.ringVi n) else none
  else none

/-- The offset is one that the core side reaches (R227, R173, R221). -/
def coreReaches (off : Nat) : Bool :=
  (decide (0x2400 ≤ off ∧ off < 0x2C00) && (off - 0x2400) % 0x20 == 0xC)
    || (decide (0x2C00 ≤ off ∧ off < 0x3000) && ((off - 0x2C00) % 0x20 == 0xC || (off - 0x2C00) % 0x20 == 0x10))
    || decide (0x3500 ≤ off ∧ off < 0x3600)

/-- A refused access is counted, and reported at most once per 2^20 ticks (R227). -/
def State.viDeny (s : State) (off : Nat) (core : Bool) : State :=
  let s := s.count CNT_VI_DENY
  match s.mov.denyAt with
  | some t => if s.now < t + 2 ^ 20 then s else ({ s with mov := { s.mov with denyAt := some s.now } }).raiseD 0x0403 off core
  | none => ({ s with mov := { s.mov with denyAt := some s.now } }).raiseD 0x0403 off core

end Sys2Proof.Machine
end

