-- ==== Sys2Proof/Machine/Link.lean ====
section
/-! DEFINITION. The life of a link and of a start: the START record (R297, R299), retirement (R301), Down (R131, R106, R180, R358), Hold
(R263–R266), Retrain (R128, R129), the credit reset (R101) and the entry to Up (R122). -/

namespace Sys2Proof.Machine

/-! ### The end of a start, R297–R301 -/

/-- Outcome `o` of stage `k` (R297). -/
def State.stageOut (s : State) (k o : Nat) : State := s.setF (START_OUT_OUT k) o

/-- `PATH` of R299. -/
def State.pathByte (s : State) : Nat :=
  s.getF START_STATUS_PATH + (if s.getB START_STATUS_SBABSENT then 16 else 0) + (if s.getB START_STATUS_UNSYNCED then 32 else 0)
    + (if s.strt.abandoned then 64 else 0) + (if s.getB START_STATUS_OVR then 128 else 0)

/-- Queue the START record of this start and report its result, once (R297, R299). -/
def State.endStart (s : State) (result run : Nat) : State :=
  if s.strt.recorded then s else
  let m := s.getF LINK_STATUS_MODE
  let s' := s.queueRecord 1 (beBytes 1 s.stage ++ beBytes 1 result
    ++ (List.range 11).map (fun k => BitVec.ofNat 8 (s.getF (START_OUT_OUT k))) ++ beBytes 1 (s.getF START_STATUS_FCODE) ++ beBytes 1 run
    ++ beBytes 1 s.pathByte ++ mask3 (s.getF START_T4FAIL_LANES) ++ beBytes 1 (s.getF LINK_STATUS_WIDTH) ++ mask3 s.excl
    ++ beBytes 1 (if m = 3 then 0xFF else m) ++ beBytes 4 (s.rd LME_IMGCRC) ++ beBytes 4 (min (2 ^ 32 - 1) ((s.now - s.strt.t0) / 1024)))
  let s' := s'.setF START_STATUS_RESULT result
  { s' with strt := { s'.strt with recorded := true, done := true } }

/-- Every lane Retired, SB down (R301). -/
def State.powerDown (s : State) : State := (s.setLanes s.lanes 5).setLane 18 0

/-- A start fails at the current stage with a code; the third failure in a row retires the instance (R297, R301). -/
def State.startFail (s : State) (code : Nat) : State :=
  let st := s.stage
  let same := s.getF START_MEM_LASTFAIL == st
  let third := same && s.getF START_MEM_RUN == 2
  let s := (s.stageOut st 2).setF START_STATUS_FCODE code
  if third then
    let s := (s.endStart 4 3).recInstret (if code < 0x80 then code else 0) s.usableLanes.length
    ((s.setB START_STATUS_RETIRED true).raise 0x0803).powerDown
  else (s.endStart 1 (if same then s.getF START_MEM_RUN + 1 else 1)).raise 0x0801

/-- A start is in progress: neither in Service nor ended. -/
def State.starting (s : State) : Bool := !s.strt.done && decide (s.stage < 10)

/-! ### What ends with a link -/

/-- A sweep in progress is abandoned (R47), and a SWEEP command fails (R328). -/
def State.abandonSweep (s : State) : State :=
  match s.age.sweep with
  | none => s
  | some w =>
    let s := s.count CNT_SWEEP_LOST
    let s := (if s.lanes.contains w.lane then s.setB (LANE_STATUS_SWEEP w.lane) false else s).runEnds 0x15 0x0D []
    { s with age := { s.age with sweep := none, order := if s.age.order.contains w.lane then s.age.order.filter (· != w.lane) ++ [w.lane] else s.age.order } }

/-- A Shift that has switched one direction is taken back there: map and mode are again those of the direction that has not switched (R129; log
entry 139). -/
def State.unswitch (s : State) : State :=
  if s.lnk.commit.isNone then s
  else if s.lnk.rxDone then { s with lnk := { s.lnk with rxMap := s.mapList, rxMode := s.getF LINK_STATUS_MODE } }
  else if s.getF LINK_SHIFT_PHASE = 3 then (s.setMap s.lnk.rxMap).setF LINK_STATUS_MODE s.lnk.rxMode
  else s

/-- A Shift in progress or proposed is cancelled; its exclusions stay (R129). A SHIFT command fails (R328). -/
def State.cancelShift (s : State) : State :=
  let m (o : Option ShiftMsg) : Nat := match o with | none => 0 | some x => x.excl.toNat
  let pend := m s.lnk.shiftOwn ||| m s.lnk.shiftWait ||| m s.lnk.commit
  let s := ((s.unswitch.exclude pend).setF LINK_SHIFT_PHASE 0).runEnds 0x12 0x0D []
  { s with lnk := { s.lnk with shiftOwn := none, shiftPeer := none, shiftWait := none, again := false, keep := none, effgDue := false, mergeOwn := none,
                               rxGap := false, peerOut := none, commit := none, rxDone := false, gap := false, shiftSends := 0 } }

/-- A lane in preparation that no Shift has placed returns to Standby. -/
def State.unprepare (s : State) (l : Nat) : State := if s.mapList.contains l then s else s.setLane l 1

/-- A remap, Castling or measurement in preparation is dropped; its lanes return to Standby (R129, R136). -/
def State.dropRepair (s : State) : State :=
  let s := s.setB LINK_STATUS_CASTLING false
  match s.lnk.repair with
  | none => { s with lnk := { s.lnk with eqs := [] } }
  | some r =>
    let s := { s with lnk := { s.lnk with eqs := [], repair := none } }
    r.more.foldl (fun s p => s.unprepare p.1) (s.unprepare r.s)

/-- A remap, Castling or measurement is abandoned: a CASTLE command fails (R328). -/
def State.cancelRepair (s : State) : State := s.dropRepair.runEnds 0x14 0x0D []

/-- The record of reliable delivery at an entry to Down (R106). -/
def State.dropDelivery (s : State) : State :=
  let s := s.setFs [(DLV_SEQ_TXSEQ, 0xFFFF), (DLV_SEQ_RXSEQ, 0xFFFF), (DLV_BANK_ACKED, 0xFFFF), (DLV_STATUS_RWAIT, 0), (DLV_STATUS_INITDONE, 0),
    (DLV_STATUS_CREDIT_OK, 0)]
  let s := match s.dlv.part with
    | [] => s
    | p :: _ => if s.dlv.skip then s else
      s.setF (DLV_RXBUF_HELD (headOf p).chan) (s.getF (DLV_RXBUF_HELD (headOf p).chan) - s.dlv.part.length)
  let s := (List.range 6).foldl (fun s c => (s.setF (DLV_WIN_WINDOW c) 0).setF (DLV_RXBUF_OWED c) 0) s
  { s with dlv := { s.dlv with bank := [], replay := none, fresh := false, nakDue := false, due := 0, part := [], skip := false, cur := [], urgent := [], lc := [],
                               exch := false, peerGot := false, probes := [], loopOn := false, firstAck := false, idleOnly := false } }

/-- Ticks a Hold has lasted, as `ELAPSED` shows them; `HOLDING` clears. The ack timer, which stood during the Hold, goes on (R88, R265). -/
def State.holdEnds (s : State) (resumed : Bool) : State :=
  { s with dlv := { s.dlv with ackAt := s.dlv.ackAt + (s.now - s.isl.holdAt) } }.setFs [(ISL_HOLD_STAT_HOLDING, 0), (ISL_HOLD_STAT_RESUMED, if resumed then 1 else 0),
    (ISL_HOLD_STAT_ELAPSED, min 0xFFFF ((s.now - s.isl.holdAt) / 1024))]

/-- ABORT can be sent: on SB while it is up, or in training blocks while the lanes train, in Hold too (R31, R110, R265). -/
def State.canAbort (s : State) : Bool :=
  if s.far then s.link == 1 || s.link == 2 || s.link == 3 || s.link == 6 || s.link == 7 else s.laneState 18 == 3

/-- What an entry to Down does to the link and to all that rests on it (R106, R131, R180, R358). -/
def State.enterDown (s : State) (reason : Nat) : State :=
  let old := s.link
  let s := if s.canAbort then s.hush.say 9 (beBytes 1 reason) else s.hush
  let s := s.setFs [(LINK_FAIL_FSTATE, old), (LINK_FAIL_REASON, reason)]
  let s := if 1 ≤ old ∧ old ≤ 3 then s.count CNT_TRAIN_FAIL else s
  let s := if old = 7 then s.holdEnds false else s
  let s := s.abandonSweep.cancelShift.cancelRepair
  let s := ({ s with age := { s.age with order := [] } }).setFs [(AGE_STATUS_ACTIVE, 0), (AGE_STATUS_LEFT, 0)]
  let s := s.dropDelivery
  let s := { s with lnk := { s.lnk with rxMap := [], rxMode := 3, wait := [] } }
  let s := (s.setMap []).setF LINK_STATUS_MODE 3
  let s := (s.setLanes s.lanes 1).refree
  let s := s.setLink 8 reason
  let s := if s.run then (s.voidPositions true).emptyBuffer else s
  let s := if 4 ≤ old then s.parentLost else s
  let s := s.failLinkTags
  let s := s.setFs [(ID_TWIN_TWINLESS, 0), (ID_TWIN_PEERPOD_VALID, 0), (ID_TWIN_PEERPOD, 0), (ID_TWIN_PEERPORT, 0)]
  ((s.runEnds 0x10 0x0D []).runEnds 0x16 0x0D []).runEnds 0x13 0 [0, 0, 0, 0]

/-- Entry to Down with a reason of R131; `retire` where the link is lost for want of lanes in Service (R280 step 4). Exactly one FAIL
event is raised (R344). -/
def State.linkDown (s : State) (reason : Nat) (retire : Bool := false) : State :=
  if s.link = 8 then s else
  let t := s.enterDown reason
  if t.starting then t.startFail reason
  else if retire then (t.recInstret reason s.usableLanes.length).raise 0x0803
  else t.raise 0x0103

/-- A start ends with `RESULT` 0x03 (R305), and with it the link, which enters Down with START_SCRAP as its one FAIL event (R344). No reason
of R131 fits: the one that `LINK_FAIL` and ABORT show is a free value (log entry 38). -/
def State.startScrap (s : State) (code : Nat) : State :=
  let s := (((s.stageOut s.stage 2).setF START_STATUS_FCODE code).endStart 3 0).raise 0x0802
  s.takeFree.enterDown (bitsOf s.freeNow.toNat 0 8)

/-! ### Retrain, R128–R130 -/

/-- Lanes whose verdict is Retired or Probation. -/
def State.badVerdicts (s : State) : Nat := maskOf (s.lanes.filter (fun l => decide (2 ≤ s.getF (AGE_LANE_STAT_VERDICT l))))

/-- A Retrain starts with a cause (R129): no lane sends flits, and every usable one trains. A Far instance sends four link-control flits first and training blocks after them. -/
def State.retrainStart (s : State) (cause : Nat) : State :=
  let s := s.abandonSweep.cancelShift.cancelRepair
  let s := (s.exclude s.badVerdicts).count CNT_RETRAIN
  let s := { s with lnk := { s.lnk with cause := cause, retrainAt := s.now, checkFail := 0, ownPass := 0, peerPass := none, passSent := false,
                                        ownReady := none, peerReady := none, msgs := [], wait := [] } }
  let s := if s.far then
      { s with dlv := { s.dlv with urgent := s.dlv.urgent ++ List.replicate 4 ⟨beBytes 1 0x23 ++ beBytes 1 cause, s.tick⟩ } } else s
  let s := (s.setLink 6 cause).setLanes s.usableLanes 2
  let s := s.setLanes (s.lanes.filter (fun l => s.laneState l == 3 && !s.usableLanes.contains l)) 1
  let s := if s.far then { s with lnk := { s.lnk with msgs := [⟨8, beBytes 1 cause, 0, s.now⟩] } } else s.sayUntil 8 (beBytes 1 cause)
  s.refree.parentLost

/-- A Retrain starts at once from Up or Shift. -/
def State.retrainNow (s : State) (cause : Nat) : State := if s.link = 4 || s.link == 5 then s.retrainStart cause else s

/-- What R128, R103, R105 and R280 place at the next QUI run: at once while no schedule runs, otherwise with the next QUI run or,
where the schedule has none, with the next Round boundary (R357). -/
def State.atQui (s : State) (d : Deferred) (now_ : State → State) : State :=
  if !s.run then now_ s
  else if s.lnk.wait.contains d then s
  else { s with lnk := { s.lnk with wait := s.lnk.wait ++ [d] } }

/-- A Retrain waits for the next QUI run. -/
def State.retrainAtQui (s : State) (cause : Nat) : State :=
  if s.link = 4 || s.link == 5 then s.atQui (.retrain cause) (fun s => s.retrainNow cause) else s

/-- The limit of a Retrain in ticks (R129). -/
def State.retrainLimit (s : State) : Nat :=
  2 ^ 17 * 2 ^ (s.getF LINK_STATUS_MODE) + (if s.far then 4 * s.getF DLV_LOOP_LOOP else 0)

/-- A Retrain fails: it starts again, or after the third failure in a row the link goes Down (R129). -/
def State.retrainFails (s : State) : State :=
  let s := (s.bump LINK_FAIL_RUN).setFs [(LINK_FAIL_FSTATE, 6), (LINK_FAIL_REASON, s.lnk.cause)]
  if 3 ≤ s.getF LINK_FAIL_RUN then s.linkDown 0x0A else s.retrainStart s.lnk.cause

/-! ### Hold, R263–R266 -/

/-- Entry to Hold from Up, Shift or Retrain, and on a returned die from Hold too (R262, R263, R265). -/
def State.enterHold (s : State) (cause : Nat) : State :=
  if !(s.link == 4 || s.link == 5 || s.link == 6 || (s.link == 7 && cause == 5)) then s
  else if !s.getB ISL_CTRL_HOLD_EN then s.linkDown 0x0B
  else
    let s := (s.abandonSweep.cancelShift.cancelRepair.hush).runEnds 0x16 0x0D []
    let s := s.setFs [(ISL_HOLD_STAT_HOLDING, 1), (ISL_HOLD_STAT_RESUMED, 0), (ISL_HOLD_STAT_CAUSE, cause)]
    let s := ((s.putW ISL_HOLD_AT s.tick).voidPositions false).count CNT_HOLD
    let s := { s with isl := { s.isl with holdAt := s.now }, lnk := { s.lnk with wait := [] } }
    let s := (s.setLink 7 0).setLanes s.mapList 2
    let s := if s.link = 7 then s.parentLost else s
    if cause = 5 || cause == 6 then s else s.raise 0x0601

/-- The tick at which a Hold expires has come (R266). -/
def State.holdLate (s : State) : Bool := decide (s.isl.holdAt + 1024 * max 1 (s.getF ISL_HOLD_HOLDTIME) ≤ s.now)

/-- The Hold ends by resume on the peer's RETRAIN (R266). -/
def State.holdResume (s : State) : State :=
  let s := s.countIf s.holdLate CNT_NEAR_MISS 1
  (((s.holdEnds true).count CNT_HOLD_RESUME).raise 0x0602).retrainStart 6

/-- The Hold ends by this instance's own Retrain (R266). -/
def State.holdOwn (s : State) : State := ((s.holdEnds true).count CNT_HOLD_RESUME).retrainStart 6

/-! ### Credit reset and Up, R101 and R122 -/

/-- The room left in the receive buffer of a channel. -/
def State.room (s : State) (c : Nat) : Nat := rxCap s.place c - s.getF (DLV_RXBUF_HELD c)

/-- The body of CREDIT-INIT (0x41) or TALLY (0x42) as the instance stands (R100). -/
def State.creditBody (s : State) (lctype : Nat) (got : Bool) : List Byte :=
  beBytes 1 lctype ++ beBytes 1 (if got then 1 else 0) ++ beBytes 1 (s.getF DLV_STATUS_TXEPOCH) ++ beBytes 1 0 ++ beBytes 2 (s.getF DLV_SEQ_RXSEQ)
    ++ beBytes 2 (s.getF DLV_SEQ_TXSEQ)
    ++ (List.range 6).flatMap (fun c => beBytes 2 (s.room c) ++ beBytes 2 (if lctype = 0x41 then 0 else s.getF (DLV_RXBUF_OWED c)))

/-- The owed counts are folded into `ROOM` (R101). -/
def State.foldOwed (s : State) : State := (List.range 6).foldl (fun s c => s.setF (DLV_RXBUF_OWED c) 0) s

/-- Send CREDIT-INIT: a fresh snapshot with the owed counts zeroed (R101). -/
def State.sendInit (s : State) (got : Bool) : State :=
  let s := s.foldOwed
  s.queueLc (s.creditBody 0x41 got)

/-- The credit reset at an entry to Up (R101). -/
def State.creditReset (s : State) : State :=
  let s := s.setFs [(DLV_STATUS_TXEPOCH, s.getF DLV_STATUS_TXEPOCH + 1), (DLV_STATUS_INITDONE, 0), (DLV_STATUS_CREDIT_OK, 0)]
  let s := { s with dlv := { s.dlv with exch := true, peerGot := false, initAt := s.dlv.flits } }
  s.sendInit false

/-- A change of width or mode takes effect: a change of capacity is reported, one of width recorded, and a width drop under R280 counted (R126,
R280, R286, R295). -/
def State.widthChanged (s : State) (loss : Bool) (old new oldMode newMode tick : Nat) : State :=
  let s := if new = old then s else (if loss && decide (new < old) then s.count CNT_WIDTH_DROP else s).recWidth old new tick
  if new * 2 ^ oldMode < old * 2 ^ newMode then s.raise 0x0104
  else if old * 2 ^ newMode < new * 2 ^ oldMode then s.raise 0x0105
  else s

/-- Entry to Up with a mode and map (R122): G restarts, the exchanges of R101 and R92 begin, replay-wait clears, baselines are taken
anew. -/
def State.enterUp (s : State) (mode : Nat) (map : List Nat) : State :=
  let again := s.link == 6
  let old := s.mapList.length
  let s := (s.setMap map).setF LINK_STATUS_MODE mode
  let s := { s with lnk := { s.lnk with gTx := 0, gRx := 0, fTx := 0, fRx := 0, rxMap := map, rxMode := mode, msgs := [], wait := [], eqs := [],
                                        eqMode := mode, copy := none, keep := none, effgDue := false, mergeOwn := none, rxGap := false }
                    dlv := { s.dlv with noProgress := 0, lastAckBad := none, upAt := s.now, replay := none, fresh := false, nakDue := false,
                                        firstAck := true, probes := [], probeSent := 0, echoes := 0, loopOn := false, urgent := [], lc := [],
                                        idleOnly := false }
                    tim := { s.tim with e0 := none, early := 0, lateB := 0, outTol := 0 }
                    violAt := none }
  let s := s.setFs [(LINK_FAIL_RUN, 0), (DLV_STATUS_RWAIT, 0), (DLV_LOOP_VALID, 0), (LME_STATUS_UPDATING, 0)]
  let s := ((s.setLink 4 0).setLanes map 3).placeLanes false
  let s := if again then s.widthChanged true old map.length mode mode s.tick else s
  s.creditReset.runEnds 0x10 0 []

end Sys2Proof.Machine
end

