-- ==== Sys2Proof/Machine/ShiftOps.lean ====
section
/-! DEFINITION. Shift (R124–R127), spare remap (R132, R133), Castling (R135), verdicts (R277) and the steps of R280, as operations that the
commands share. -/

namespace Sys2Proof.Machine

/-! ### Groups and time -/

/-- The time of one flit group at a width and mode as a fraction of ticks (R26, R38). -/
def groupTime (w m : Nat) : Nat × Nat := (16 * 2 ^ m * groupSize w, max 1 w)

/-- The time of `n` flit times at the link's width and mode, rounded up to whole ticks. -/
def State.flitTicks (s : State) (n : Nat) : Nat :=
  let f := flitTime s.mapList.length (s.getF LINK_STATUS_MODE)
  (n * f.1 + f.2 - 1) / f.2

/-- The number of the first group that starts at or after tick `t`, as the transmitter will count it. -/
def State.groupAt (s : State) (t : Nat) : Nat :=
  let f := groupTime s.mapList.length (s.getF LINK_STATUS_MODE)
  s.lnk.gTx + ((t - s.tick) * f.2 + f.1 - 1) / f.1

/-- The tick at which group `g` starts at the earliest. -/
def State.groupTick (s : State) (g : Nat) : Nat :=
  let f := groupTime s.mapList.length (s.getF LINK_STATUS_MODE)
  s.tick + ((g - s.lnk.gTx) * f.1 + f.2 - 1) / f.2

/-- The `EFFG` that this end gives a Shift of a reason: the earliest group that R125's bound and R126 (with R357) allow; none where a
rate-lower Shift finds no place. -/
def State.shiftEffg (s : State) (reason : Nat) : Option Nat :=
  let t := s.tick + s.getF DLV_LOOP_LOOP + 512
  if !s.run || reason == 3 || reason == 4 || reason == 5 then some (s.groupAt t)
  else if reason = 6 then
    (s.quiRuns.find? (fun p => decide (t ≤ p.1 ∧ s.groupTick (s.groupAt p.1) + 4096 ≤ p.2))).map (fun p => s.groupAt p.1)
  else
    match s.quiRuns.find? (fun p => decide (max t p.1 < p.2 ∧ s.groupTick (s.groupAt (max t p.1)) < p.2)) with
    | some p => some (s.groupAt (max t p.1))
    | none => some (s.groupAt (max t (s.b + s.lenNow)))

/-! ### Shift messages -/

/-- The body of SHIFT-REQ (0x21) or SHIFT-ACK (0x22), R124. -/
def shiftBody (lctype : Nat) (m : ShiftMsg) : List Byte :=
  [BitVec.ofNat 8 lctype, m.id, m.reason, m.width, m.mode, m.status, 0, 0] ++ beBytes 4 m.effg.toNat ++ beBytes 3 m.excl.toNat ++ [0]
    ++ (List.range 16).map (fun p => m.map.getD p 0x1F)

/-- A map as 16 message bytes. -/
def mapBytes (m : List Nat) : List Byte := (List.range 16).map (fun p => BitVec.ofNat 8 (m.getD p 31))
/-- The lanes of 16 message bytes. -/
def mapOf (l : List Byte) : List Nat := (l.map (·.toNat)).takeWhile (fun x => x != 31)

/-- Show a Shift in `LINK_SHIFT` and `LINK_EFFG` (R137). -/
def State.showShift (s : State) (m : ShiftMsg) (phase : Nat) : State :=
  (s.setFs [(LINK_SHIFT_SHIFTID, m.id.toNat), (LINK_SHIFT_REASON, m.reason.toNat), (LINK_SHIFT_WIDTH, m.width.toNat),
    (LINK_SHIFT_MODE, m.mode.toNat), (LINK_SHIFT_PHASE, phase)]).setF LINK_EFFG_EFFG m.effg.toNat

/-- A SHIFT-REQ or SHIFT-ACK of a Shift still in hand as it leaves: with the first of them the own `EFFG` is fixed, counted from this send (R125; a
rate-lower Shift that finds no later place keeps its group). -/
def State.fixEffg (s : State) (body : List Byte) : List Byte × State :=
  let id := byteAt body 1
  let own (o : Option ShiftMsg) : Bool := o.any (fun m => m.id.toNat == id)
  let mine := if byteAt body 0 = 0x21 then own s.lnk.shiftOwn || own s.lnk.shiftWait
    else s.lnk.commit.isSome && own s.lnk.shiftPeer && (byteAt body 5 == 0 || byteAt body 5 == 3)
  if !mine then (body, s) else
  let g := if s.lnk.effgDue then (s.shiftEffg (byteAt body 2)).getD (s.getF LINK_EFFG_EFFG) else s.getF LINK_EFFG_EFFG
  let fix (o : Option ShiftMsg) : Option ShiftMsg := o.map (fun m => { m with effg := BitVec.ofNat 32 g })
  (body.take 8 ++ beBytes 4 g ++ body.drop 12, { s.setF LINK_EFFG_EFFG g with lnk := { s.lnk with
    shiftOwn := fix s.lnk.shiftOwn
    shiftWait := fix s.lnk.shiftWait
    mergeOwn := fix s.lnk.mergeOwn
    commit := fix s.lnk.commit
    effgDue := false } })

/-- The next number of this proposer. -/
def State.nextShiftId (s : State) : Nat := (s.getF LINK_SHIFT_SHIFTID + 1) % 256

/-- A Shift may be proposed: Up, none committed or proposed (R125). -/
def State.mayPropose (s : State) : Bool := s.link == 4 && s.lnk.commit.isNone && s.lnk.shiftOwn.isNone

/-- QUAL and FAIL of the lanes that a SHIFT-REQ uses or excludes are repeated no longer (R133). -/
def State.hushShifted (s : State) (m : ShiftMsg) : State :=
  let l := mapOf m.map
  { s with lnk := { s.lnk with eqs := s.lnk.eqs.filter (fun e =>
      !((e.op == 3 || e.op == 4) && ((l.contains e.lane && !s.mapList.contains e.lane) || bitOf m.excl.toNat e.lane))) } }

/-- Propose a Shift (R125 step 1): SHIFT-REQ is sent until answered. Nothing is proposed where its group finds no place. -/
def State.propose (s : State) (reason width mode exclMask : Nat) (map : List Nat) : State :=
  if !s.mayPropose then s else
  match s.shiftEffg reason with
  | none => s
  | some g =>
    let m : ShiftMsg := ⟨BitVec.ofNat 8 s.nextShiftId, BitVec.ofNat 8 reason, BitVec.ofNat 8 width, BitVec.ofNat 8 mode, 0, BitVec.ofNat 32 g,
      BitVec.ofNat 24 exclMask, mapBytes map⟩
    let s := ((s.showShift m 1).setB LINK_SHIFT_MERGED false).hushShifted m
    { (s.queueLc (shiftBody 0x21 m)) with lnk := { s.lnk with shiftOwn := some m, shiftPeer := none, shiftWait := none, mergeOwn := none, again := false, effgDue := true, shiftSends := 1 } }

/-- A Shift is committed with this end's values (R125): the link is in Shift. A Castling goes on only with its own Shifts (R136). -/
def State.commitShift (s : State) (m : ShiftMsg) (merged : Bool) : State :=
  let s := (s.showShift m 2).setB LINK_SHIFT_MERGED merged
  let s := if m.reason = 4 || m.reason == 5 then s else s.setB LINK_STATUS_CASTLING false
  ({ s with lnk := { s.lnk with commit := some m, shiftOwn := none, rxDone := false, gap := false } }).setLink 5 0

/-- Usable lanes for the map of a Shift that excludes `mask` (R121). -/
def State.usableWith (s : State) (mask : Nat) : List Nat :=
  s.lanes.filter (fun l => bitOf s.lnk.usable l && !bitOf mask l && s.laneState l != 5)

/-- `MAP` of a SHIFT-REQ passes the check of R124. -/
def State.mapChecks (s : State) (m : ShiftMsg) : Bool :=
  m.reason == 4 || m.reason == 5 ||
    (buildMap s.place m.width.toNat (s.usableWith m.excl.toNat) s.mapList).map mapBytes == some m.map

/-- The request must be refused (R125 step 2, R126), one with a `REASON` that R124 does not name too (DESIGN CHOICE, log entry 130). -/
def State.shiftRefused (s : State) (m : ShiftMsg) : Bool :=
  let md := m.mode.toNat
  let cur := s.getF LINK_STATUS_MODE
  !s.usedWidths.contains m.width.toNat || !bitOf (s.used 9) md || !s.mapChecks m
    || (m.reason != 6 && md != cur) || (m.reason == 6 && decide (md ≤ cur))
    || (m.reason != 1 && m.reason != 3 && (m.excl.toNat &&& (0x3FFFF - s.excl)) != 0)
    || (m.reason == 6 && s.run && !s.hasQui 4096) || m.reason == 0 || decide (7 < m.reason.toNat)

/-- The map before a Shift that has switched one direction at most. -/
def State.oldMap (s : State) : List Nat := if s.getF LINK_SHIFT_PHASE = 3 then s.lnk.rxMap else s.mapList

/-- The merge of two crossing proposals (R127): width, mode, exclusions and map; none where no width can be built. -/
def State.mergeShifts (s : State) (a b : ShiftMsg) : Option (Nat × Nat × Nat × List Nat) :=
  let w := min a.width.toNat b.width.toNat
  let x := a.excl.toNat ||| b.excl.toNat
  (buildWidest s.place (s.usableWith x) s.oldMap ((allowedWidths s.place).filter (fun v => decide (v ≤ w)))).map (fun m =>
    (m.length, max a.mode.toNat b.mode.toNat, x, m))

/-! ### LANE-EQ, R133 -/

/-- The next `REQID` of this end: bit 7 names the chooser. -/
def State.takeReqid (s : State) : Nat × State :=
  let n := (s.lnk.reqid + 1) % 128
  ((if s.getB LINK_STATUS_INITIATOR then 128 else 0) + n, { s with lnk := { s.lnk with reqid := n } })

/-- The body of LANE-EQ. -/
def laneEqBody (reqid lane op : Nat) (v : EqVals) : List Byte :=
  beBytes 1 0x24 ++ beBytes 1 reqid ++ beBytes 1 lane ++ beBytes 1 op ++ [v.swing, v.pre2, v.pre1, v.post1]

/-- Transmit values of no request. -/
def noVals : EqVals := ⟨0, 0, 0, 0⟩

/-- Send LANE-EQ once. -/
def State.sendLaneEq (s : State) (reqid lane op : Nat) (v : EqVals) : State := s.queueLc (laneEqBody reqid lane op v)

/-- Send a LANE-EQ request, repeated until answered. -/
def State.askLane (s : State) (lane op : Nat) (v : EqVals) : State :=
  let r := s.takeReqid
  let s := r.2.sendLaneEq r.1 lane op v
  { s with lnk := { s.lnk with eqs := s.lnk.eqs ++ [⟨r.1, lane, op, v, 1⟩], sentReq := ((r.1, lane) :: s.lnk.sentReq.filter (fun q => q.1 != r.1)).take 128 } }

/-- Send QUAL (3) or FAIL (4) for a lane, repeated until the events of R133. Their `REQID` is 0 (DESIGN CHOICE, log entry 131). -/
def State.tellLane (s : State) (lane op : Nat) : State :=
  let s := s.sendLaneEq 0 lane op noVals
  { s with lnk := { s.lnk with eqs := s.lnk.eqs.filter (fun e => !(e.lane == lane && (e.op == 3 || e.op == 4))) ++ [⟨0, lane, op, noVals, 1⟩] } }

/-- QUAL and FAIL of a lane are repeated no longer. -/
def State.hushLane (s : State) (lane : Nat) : State :=
  { s with lnk := { s.lnk with eqs := s.lnk.eqs.filter (fun e => !(e.lane == lane && (e.op == 3 || e.op == 4))) } }

/-- The lanes that stand by and may serve as spares, in the order of R121. -/
def State.standbyLanes (s : State) : List Nat :=
  let m := s.mapList
  let l := s.usableLanes.filter (fun x => !m.contains x && s.laneState x == 1)
  l.filter (fun x => decide (x < 16)) ++ l.filter (fun x => decide (16 ≤ x))

/-- The exclusion set with the lane of a Castling that is to stay out (R136). -/
def State.exclKeep (s : State) : Nat := match s.lnk.keep with | some l => putBit s.excl l true | none => s.excl

/-- The map that a remap of lane `x` would make of the lanes in the map and in Standby (R121, R133). -/
def State.mapWithout (s : State) (x : Nat) : Option (List Nat) :=
  buildMap s.place s.mapList.length ((s.usableWith (putBit s.exclKeep x true)).filter (fun l => s.mapList.contains l || s.laneState l == 1)) s.mapList

/-- The EQPRESET that `START_EQ` holds for a lane and mode: swing, PRE2, PRE1, POST1. -/
def State.preset (s : State) (l m : Nat) : Option (Nat × Nat × Nat × Nat) :=
  if s.getB (START_EQ0_VALID l m) then
    some (s.getF (START_EQ0_SWING l m), s.getF (START_EQ0_PRE2 l m), s.getF (START_EQ0_PRE1 l m), s.getF (START_EQ0_POST1 l m))
  else none

/-- Values as message bytes. -/
def valsOf (e : Nat × Nat × Nat × Nat) : EqVals := ⟨BitVec.ofNat 8 e.1, BitVec.ofNat 8 e.2.1, BitVec.ofNat 8 e.2.2.1, BitVec.ofNat 8 e.2.2.2⟩

/-- The points of the full search of R114: `PRE1`, `POST1`. -/
def searchPoints : List (Nat × Nat) :=
  ((List.range 11).flatMap (fun i => (List.range 9).map (fun j => (2 * i, 2 * j)))).filter (fun p => decide (p.1 + p.2 ≤ 32))

/-- Preparation of a lane, and of others with it, begins: PREP, and the presets or the first point of the search are requested once it is answered
(R133). -/
def State.prepare (s : State) (castle : Bool) (x l : Nat) (more : List Nat) : State :=
  let s := { s with lnk := { s.lnk with repair := some ⟨castle, x, l, false, false, 0, more.map (fun m => (m, false, false))⟩ } }
  (l :: more).foldl (fun s m => s.askLane m 0 noVals) ((s.setLanes (l :: more) 2).refree)

/-- Every lane in preparation is qualified at both ends. -/
def Repair.allQual (r : Repair) : Bool := r.ownQual && r.peerQual && r.more.all (fun p => p.2.1 && p.2.2)

/-- The lanes in preparation or measurement. -/
def Repair.lanes (r : Repair) : List Nat := r.s :: r.more.map (·.1)

/-- One end has qualified a lane in hand. -/
def Repair.mark (r : Repair) (l : Nat) (own : Bool) : Repair :=
  let r := if l = r.s || (r.phase == 1 && l == r.x) then (if own then { r with ownQual := true } else { r with peerQual := true }) else r
  { r with more := r.more.map (fun p => if p.1 = l then (if own then (l, true, p.2.2) else (l, p.2.1, true)) else p) }

/-! ### Repair: R132, R277, R280 -/

/-- The verdict of a lane changes; a LANE record is queued (R277). -/
def State.setVerdict (s : State) (l new why : Nat) : State :=
  let old := s.getF (AGE_LANE_STAT_VERDICT l)
  if old = new || !s.lanes.contains l then s else
  let s := s.setFs [(AGE_LANE_STAT_VERDICT l, new), (AGE_LANE_STAT_WHY l, why)]
  let s := if new = 3 then s.count CNT_LANE_RETIRE else if new = 2 then s.count CNT_PROBATION else s
  let s := if s.getB AGE_STATUS_ACTIVE then { s with age := { s.age with nVerdict := s.age.nVerdict + 1 } } else s
  s.recLane l old new why

/-- A Shift narrows the link to the widest width that the lanes outside `mask` fill (R280 step 2); none fills one: the link goes Down
at the next QUI run (step 4). -/
def State.narrow (s : State) (mask : Nat) : State :=
  match buildWidest s.place (s.usableWith mask) s.mapList (s.usedWidths.filter (fun w => decide (w ≤ s.mapList.length))) with
  | some m => s.propose 1 m.length (s.getF LINK_STATUS_MODE) mask m
  | none => s.atQui .down (fun s => s.linkDown 2 true)

/-- Lanes in the map that await repair: Retired, on probation, or excluded. -/
def State.awaiting (s : State) : List Nat :=
  s.mapList.filter (fun l => decide (2 ≤ s.getF (AGE_LANE_STAT_VERDICT l)) || bitOf s.excl l)

/-- The Shift that replaces lane `x`, the Standby lanes being qualified (R133 step 3). -/
def State.remapShift (s : State) (x : Nat) : State :=
  let mask := putBit s.exclKeep x true
  match buildMap s.place s.mapList.length ((s.usableWith mask).filter (fun l => s.mapList.contains l || s.laneState l != 4)) s.mapList with
  | some m => s.propose 3 m.length (s.getF LINK_STATUS_MODE) mask m
  | none => s.narrow mask

/-- LANE_RETIRE is raised once for a lane that is to be replaced (R280 step 1). -/
def State.tellRetire (s : State) (x : Nat) : State :=
  if s.lnk.told.contains x then s else ({ s with lnk := { s.lnk with told := s.lnk.told ++ [x] } }).raiseD 0x0106 x false

/-- A remap of lane `x` begins with the Standby lanes that build_map would bring into the map, be it at `x`'s position or at their own homes
(R121, R133); `back` is the lane of a Castling, which comes home without preparation (R136). A map that brings none in needs none either. Without a lane the
link narrows (R133, R280). -/
def State.remapStart (s : State) (x : Nat) (back : Option Nat := none) : State :=
  match s.mapWithout x with
  | some m =>
    let into := m.filter (fun l => !s.mapList.contains l && back != some l)
    let s := (match s.age.sweep with | some w => if into.contains w.lane || w.lane == x then s.abandonSweep else s | none => s).tellRetire x
    match into with
    | [] => s.remapShift x
    | l :: more => s.prepare false x l more
  | none => s.narrow (putBit s.exclKeep x true)

/-- The Shift that keeps the lane of a Castling out (R136, R274): it excludes the lane, which leaves the spare in its position. -/
def State.keepShift (s : State) (l : Nat) : State :=
  let mask := putBit s.excl l true
  match buildMap s.place s.mapList.length (s.usableWith mask) s.mapList with
  | some m => s.propose 3 m.length (s.getF LINK_STATUS_MODE) mask m
  | none => s.narrow mask

/-- A lane whose preparation or measurement was given up for a repair, and that the repair does not use, is released at the peer (R133). -/
def State.releaseIdle (s : State) (l : Nat) : State :=
  if (s.link == 4 || s.link == 5) && s.laneState l == 1 && !s.mapList.contains l then s.askLane l 6 noVals else s

/-- Repair begins or continues: first for the lane whose Standby lanes are being prepared, then for the first lane that awaits it. It is a remap with a
Standby lane where there is one, otherwise the steps of R280 (R132, R136). -/
def State.repairNext (s : State) : State :=
  if !(s.link == 4 || s.link == 5) then s else
  let first : Option Nat := match s.lnk.repair with
    | some r => if !r.castle && r.phase == 0 && s.awaiting.contains r.x then some r.x else s.awaiting.head?
    | none => s.awaiting.head?
  match first with
  | none => match s.lnk.keep with
    | some l => if s.mayPropose && !bitOf s.excl l then s.keepShift l else s
    | none => s
  | some x =>
    let mask := putBit s.exclKeep x true
    if !s.mayPropose then s
    else if !s.getB LINK_CTRL_REMAP_EN || !s.getB START_CTRL_MFGDONE then s.narrow mask
    else match s.lnk.repair with
    | some r =>
      if r.castle && r.phase == 1 then
        -- the lane out returns home, or stays out, with the Shift of the repair (R136)
        let s := s.abandonSweep
        let s := { s with lnk := { s.lnk with repair := none, eqs := [] } }
        let s := (if s.laneState r.x = 4 then s.setLane r.x 1 else s).runEnds 0x14 0x0D []
        (s.setB LINK_STATUS_CASTLING false).remapStart x (some r.x)
      else if r.castle || r.phase == 2 then
        ((if r.castle then s else s.abandonSweep).cancelRepair.remapStart x).releaseIdle r.s
      else if r.x = x && r.allQual then s.remapShift x
      else s
    | none => s.remapStart x

/-- The lane of a Castling stays out (R136, R274): the initiator sends the Shift that excludes it, again after a busy answer (R125). -/
def State.keepOut (s : State) (l : Nat) : State :=
  let s := { s with lnk := { s.lnk with repair := none, eqs := [] } }
  let s := ((s.setLane l 1).setB LINK_STATUS_CASTLING false).runEnds 0x14 0x0D []
  if s.getB LINK_STATUS_INITIATOR then ({ s.tellRetire l with lnk := { (s.tellRetire l).lnk with keep := some l } }).repairNext
  else s

/-- A lane outside the map is Retired at once and excluded (R277). -/
def State.retireIdle (s : State) (l : Nat) : State := ((s.exclude (2 ^ l)).setLane l 5).refree

/-- What this end does once a lane in preparation is qualified at both ends (R133 step 3, R135 step 2). -/
def State.qualifiedBoth (s : State) : State :=
  match s.lnk.repair with
  | none => s
  | some r =>
    if !r.allQual then s
    else if r.phase = 1 then
      -- the return Shift of a Castling
      let m := s.mapList.map (fun l => if l == r.s then r.x else l)
      s.propose 5 m.length (s.getF LINK_STATUS_MODE) s.excl m
    else if r.castle then
      let m := s.mapList.map (fun l => if l == r.x then r.s else l)
      let s := { s with lnk := { s.lnk with qualified := s.lnk.qualified.filter (· != r.s) ++ [r.s] } }
      let t := s.propose 4 m.length (s.getF LINK_STATUS_MODE) s.excl m
      if s.mayPropose && t.lnk.shiftOwn.isSome then t.setB LINK_STATUS_CASTLING true else t
    else s.repairNext

/-- A Castling of lane `x` begins: the Standby lane is qualified, unless it was in this epoch (R135). -/
def State.castleStart (s : State) (x : Nat) : State :=
  match s.standbyLanes with
  | [] => s.runEnds 0x14 0x0D []
  | l :: _ =>
    if s.lnk.qualified.contains l then
      ({ s with lnk := { s.lnk with repair := some ⟨true, x, l, true, true, 0, []⟩ } }).qualifiedBoth
    else s.prepare true x l []

/-- A lane outside the map is lost, which `mark` records. One in preparation or measurement is given up and the peer is told (R133, R136). -/
def State.loseLane (s : State) (l : Nat) (mark : State → State) : State :=
  match s.lnk.repair with
  | none => mark s
  | some r =>
    if r.phase = 1 && r.x == l then s.keepOut l
    else if r.s = l && r.phase == 2 then
      let s := (mark { s with lnk := { s.lnk with repair := none } }).tellLane l 4
      if s.getB LINK_STATUS_INITIATOR then (s.hushLane l).askLane l 6 noVals else s
    else if r.lanes.contains l && r.phase == 0 then
      let s := (mark s.dropRepair).tellLane l 4
      if r.castle then s.castleStart r.x else s.remapStart r.x
    else mark s

/-- A lane in the map is lost during a Retrain: it joins `EXCL` while this end's READY is still to be formed; after that it is replaced once the link
is Up (R129, R132). -/
def State.outNow (s : State) (l : Nat) : State := if s.link = 6 && s.lnk.ownReady.isNone then s.exclude (2 ^ l) else s

/-- A lane crosses a floor or is retired by command: verdict Retired and its replacement (R277, R280). -/
def State.retireLane (s : State) (l why : Nat) : State :=
  if s.getF (AGE_LANE_STAT_VERDICT l) = 3 then s else
  let s := (if (s.age.sweep.map (·.lane)) == some l then s.abandonSweep else s).setVerdict l 3 why
  if s.mapList.contains l then s.outNow l |>.repairNext else s.loseLane l (fun s => ((s.exclude (2 ^ l)).setLane l 5).refree)

/-- A lane goes to Probation: it stays excluded in Standby; an Active one is replaced (R277). -/
def State.probation (s : State) (l why : Nat) : State :=
  if 2 ≤ s.getF (AGE_LANE_STAT_VERDICT l) then s else
  let s := (if (s.age.sweep.map (·.lane)) == some l then s.abandonSweep else s).setVerdict l 2 why
  if s.mapList.contains l then s.outNow l |>.repairNext else s.loseLane l (fun s => s.exclude (2 ^ l))

/-- A RETIRE-LANE command ends when its lane is Retired (R328). -/
def State.retireEnds (s : State) : State :=
  s.runsEnd (fun r => r.opc == 0x13 && s.laneState r.arg == 5) 0 (beBytes 1 (s.getF LINK_STATUS_WIDTH) ++ beBytes 3 0)

/-- Lanes with the verdict Retired that have lost their position are Retired (R29, R277); a RETIRE-LANE command ends. -/
def State.retireOut (s : State) : State :=
  let s := { s with lnk := { s.lnk with told := s.lnk.told.filter (fun l => s.mapList.contains l) } }
  ((s.lanes.filter (fun l => s.getF (AGE_LANE_STAT_VERDICT l) == 3 && !s.mapList.contains l)).foldl (fun s l => s.setLane l 5) s).refree.retireEnds

/-- What waits for a Shift to end goes on: repair first, then a Castling, which restarts with another lane where its own is in use (R125,
R136). -/
def State.resumeWork (s : State) : State :=
  if !s.awaiting.isEmpty || s.lnk.keep.isSome then s.repairNext
  else match s.lnk.repair with
    | none => s
    | some r =>
      if !r.castle then s.qualifiedBoth
      else if !s.mapList.contains r.x then s.cancelRepair
      else if s.mapList.contains r.s || bitOf s.excl r.s then
        ({ s with lnk := { s.lnk with repair := none } }).castleStart r.x
      else s.qualifiedBoth

/-- The Shift `m` has ended: a remap in preparation is over with one of reason 0x03, a Castling whose lane was out with any but its own, and
a measurement whose lane is in use or excluded (R136). -/
def State.settleRepair (s : State) (m : ShiftMsg) : State :=
  match s.lnk.repair with
  | none => s
  | some r =>
    if r.phase = 2 then
      (if s.mapList.contains r.s || bitOf m.excl.toNat r.s then
        let s := if (s.age.sweep.map (·.lane)) == some r.s then s.abandonSweep else s
        let s := if s.laneState r.s = 4 then s.setLane r.s 1 else s
        { s with lnk := { s.lnk with repair := none } }
      else s)
    else if r.castle then
      (if r.phase = 1 && m.reason != 4 && m.reason != 5 then
        let s := s.abandonSweep
        let s := (if s.laneState r.x = 4 then s.setLane r.x 1 else s).runEnds 0x14 0x0D []
        { s with lnk := { s.lnk with repair := none, eqs := [] } }
      else s)
    else if m.reason = 3 then
      let s := (r.lanes.filter (fun l => s.laneState l == 2)).foldl (fun s l => s.setLane l 1) s
      { s with lnk := { s.lnk with repair := none, eqs := [] } }
    else s

/-- A Shift places the lanes. A sweep whose lane it has taken, out of Measure or out of the map, is abandoned (R47). -/
def State.placeShift (s : State) : State :=
  let t := s.placeLanes true
  match t.age.sweep with
  | none => t
  | some w => if t.laneState w.lane = s.laneState w.lane then t else t.abandonSweep

/-- The Shift has switched in both directions (R125 step 5): lanes are placed, the change is counted and reported, and what waited on
it goes on. -/
def State.shiftEnds (s : State) (m : ShiftMsg) (oldWidth oldMode : Nat) : State :=
  let s := (s.count CNT_SHIFT).setF LINK_SHIFT_PHASE 0
  let out := s.lnk.peerOut
  let repairs (o : Option ShiftMsg) : Bool := match o with | some x => x.reason == 1 || x.reason == 3 | none => false
  let loss := repairs (some m) || repairs s.lnk.shiftPeer
  let s := { s with lnk := { s.lnk with commit := none, shiftPeer := none, shiftWait := none, mergeOwn := none, effgDue := false, peerOut := none,
                                        rxDone := false, keep := s.lnk.keep.filter (fun l => !bitOf m.excl.toNat l) } }
  let s := (s.setF LINK_EXCL_EXCL (s.excl ||| m.excl.toNat)).setLink 4 0
  let s := if m.reason = 3 then s.count CNT_REMAP else s
  let s := (s.placeShift.settleRepair m).retireOut
  let s := s.widthChanged loss oldWidth s.mapList.length oldMode (s.getF LINK_STATUS_MODE) s.lnk.negAt
  let s := s.runEnds 0x12 0 (beBytes 1 s.mapList.length ++ beBytes 1 (s.getF LINK_STATUS_MODE) ++ beBytes 1 (s.getF LINK_SHIFT_MERGED) ++ beBytes 1 0)
  let s := { s with tim := { s.tim with e0 := none } }
  -- the other end of a Castling sends MEASURE for the lane too (R135 step 3)
  let s := match out with
    | some x => if m.reason = 4 && !s.mapList.contains x then (s.setLane x 4).askLane x 5 noVals else s
    | none => s
  match s.lnk.repair with
  | none => s.resumeWork
  | some r =>
    if r.castle && r.phase == 0 && m.reason == 4 && s.mapList.contains r.s then
      let s := { s with lnk := { s.lnk with repair := some { r with phase := 1, ownQual := false, peerQual := false } } }
      if s.awaiting.isEmpty then (s.setLane r.x 4).askLane r.x 5 noVals else s.repairNext
    else if r.castle && r.phase == 1 && m.reason == 5 then (s.setLane r.s 1).refree.askLane r.s 6 noVals
    else s.resumeWork

end Sys2Proof.Machine
end

