-- ==== Sys2Proof/Machine/LaneEq.lean ====
section
/-! DEFINITION. Searching and qualifying lanes (R114, R133, R274), sweeps and what follows them (R46, R47, R273, R276, R278), and the
commands of LANE-EQ. -/

namespace Sys2Proof.Machine

/-! ### Asking the peer for values -/

/-- The values last requested of the peer for a lane, or those that it has reported in force since. -/
def State.askedOf (s : State) (l : Nat) : Nat := ((s.lnk.asked.find? (fun p => p.1 == l)).map (·.2)).getD 0
/-- Values are requested, or the peer reports those in force. -/
def State.setAsked (s : State) (l w : Nat) : State := { s with lnk := { s.lnk with asked := s.lnk.asked.filter (fun p => p.1 != l) ++ [(l, w)] } }

/-- Request transmit values of the peer: EQ-SET in Equalise, LANE-EQ SET on a link with flits. -/
def State.askVals (s : State) (l w : Nat) : State :=
  let s := s.setAsked l w
  let e := eqOfWord w
  if s.link = 2 then
    let r := s.takeReqid
    r.2.sayUntil 2 (eqBody r.1 l s.lnk.eqMode e.1 e.2.1 e.2.2.1 e.2.2.2)
  else s.askLane l 1 (valsOf e)

/-- A search of a lane, if one runs. -/
def State.searchOf (s : State) (l : Nat) : Option Search := s.lnk.searches.find? (fun q => q.lane == l)
/-- Replace or remove the search of a lane. -/
def State.setSearch (s : State) (l : Nat) (q : Option Search) : State :=
  { s with lnk := { s.lnk with searches := s.lnk.searches.filter (fun x => x.lane != l) ++ q.toList } }

/-- Begin a search over words (R114, R274). -/
def State.startSearch (s : State) (l : Nat) (whole : Bool) (ws : List Nat) : State :=
  match ws with
  | [] => s
  | w :: r => (s.setSearch l (some ⟨l, whole, r, w, w, 0, false, false, s.askedOf l⟩)).askVals l w

/-- The words of the full search: swing 15, PRE2 0 (R114). -/
def fullSearch : List Nat := searchPoints.map (fun p => eqWord 15 0 p.1 p.2)

/-- The nine words around the values in force, but for those that R43 forbids (R274). -/
def nearWords (w : Nat) : List Nat :=
  let e := eqOfWord w
  ((List.range 3).flatMap (fun i => (List.range 3).map (fun j => (e.2.2.1 + i, e.2.2.2 + j)))).filterMap (fun p =>
    if p.1 = 0 || p.2 == 0 || !eqAllowed e.1 e.2.1 (p.1 - 1) (p.2 - 1) then none else some (eqWord e.1 e.2.1 (p.1 - 1) (p.2 - 1)))

/-- Begin to tune a lane for this end's receiver: the presets, or the full search without them (R114, R133). -/
def State.tuneLane (s : State) (l mode : Nat) (full : Bool) : State :=
  match (if full then none else s.preset l mode) with
  | some e => s.askVals l (eqWord e.1 e.2.1 e.2.2.1 e.2.2.2)
  | none => s.startSearch l true fullSearch

/-! ### After a sweep, R274, R278 -/

/-- The margin re-plan of a lane. -/
def State.tuneOf (s : State) (l : Nat) : Tune := (s.age.tunes.find? (fun t => t.lane == l)).getD ⟨l, false, false, false⟩

/-- The margin re-plan of a lane is set down. -/
def State.setTune (s : State) (t : Tune) : State := { s with age := { s.age with tunes := t :: s.age.tunes.filter (fun u => u.lane != t.lane) } }

/-- A lane is taken for measurement: it may be searched, once more where it was given up, and its swing changes once in an epoch (R274). An end with no
epoch in progress has none that it changed in. -/
def State.freshTune (s : State) (l : Nat) : State :=
  let t := s.tuneOf l
  s.setTune { t with searched := false, trimmed := t.trimmed && s.getB AGE_STATUS_ACTIVE }

/-- Queue the EQPRESET record of a lane (R286), rewrite its entry of `START_EQ` (R315) and set `EYE0` (R274 step 4). -/
def State.recPreset (s : State) (l : Nat) : State :=
  let e := eqOfWord (s.askedOf l)
  let s := s.queueRecord 2 (beBytes 1 l ++ beBytes 1 s.laneMode ++ beBytes 1 e.1 ++ beBytes 1 e.2.1 ++ beBytes 1 e.2.2.1 ++ beBytes 1 e.2.2.2
    ++ beBytes 1 (s.getF (LANE_RXEQ_CTLE l)) ++ beBytes 1 (s.getF (LANE_RXEQ_VGA l)) ++ beBytes 2 (s.getF (LANE_EYE_HEIGHT l))
    ++ beBytes 2 (s.getF (LANE_EYE_WIDTH l)) ++ beBytes 4 (s.getF AGE_STATUS_EPOCHS))
  let s := s.setFs [(START_EQ0_VALID l s.laneMode, 1), (START_EQ0_SWING l s.laneMode, e.1), (START_EQ0_PRE2 l s.laneMode, e.2.1),
    (START_EQ0_PRE1 l s.laneMode, e.2.2.1), (START_EQ0_POST1 l s.laneMode, e.2.2.2), (START_EQ1_CTLE l s.laneMode, s.getF (LANE_RXEQ_CTLE l)),
    (START_EQ1_VGA l s.laneMode, s.getF (LANE_RXEQ_VGA l)), (START_EQ1_EYE0 l s.laneMode, s.getF (LANE_EYE_HEIGHT l))]
  s.setF (AGE_LANE_EQ_EYE0 l) (s.getF (LANE_EYE_HEIGHT l))

/-- This end has qualified a lane, or not: QUAL or FAIL is sent (R133, R274). -/
def State.ownVerdict (s : State) (l : Nat) (ok : Bool) : State :=
  let s := s.tellLane l (if ok then 3 else 4)
  match s.lnk.repair with
  | some r => if ok then { s with lnk := { s.lnk with repair := some (r.mark l true) } } else s
  | none => s

/-! ### Sweeps, R46 -/

/-- Points of a sweep: 96 in NRZ mode, 288 otherwise. -/
def State.sweepPoints (s : State) : Nat := if s.laneMode = 2 then 96 else 288

/-- A sweep of a lane begins; a second request is ignored while one is in progress (R47). -/
def State.beginSweep (s : State) (l : Nat) (qui : Bool) : State :=
  if s.age.sweep.isSome then s else { s with age := { s.age with sweep := some ⟨l, 0, false, qui, 0⟩ } }

/-- The sweep of a lane freed by LANE-EQ begins. One in progress on another lane gives way, since one lane of a link is measured at a time
(R273). -/
def State.freedSweep (s : State) (l : Nat) : State :=
  (match s.age.sweep with
  | none => s
  | some w => if w.lane = l then s else s.abandonSweep).beginSweep l false

/-- The eight heights of a lane, oldest first. -/
def State.heights (s : State) (l : Nat) : List Nat :=
  (List.range 4).flatMap (fun n => [s.getF (AGE_LANE_HIST_HEVEN l n), s.getF (AGE_LANE_HIST_HODD l n)])

/-- Set the heights. -/
def State.setHeights (s : State) (l : Nat) (h : List Nat) : State :=
  (List.range 4).foldl (fun s n => (s.setF (AGE_LANE_HIST_HEVEN l n) (h.getD (2 * n) 0)).setF (AGE_LANE_HIST_HODD l n) (h.getD (2 * n + 1) 0)) s

/-- Σ(2i − 7)h_i. -/
def trendSum (h : List Nat) : Int :=
  ((List.range 8).map (fun (i : Nat) => (2 * (i : Int) - 7) * (h.getD i 0 : Int))).sum

/-- proj(H) of R276. -/
def proj (h : List Nat) (hor : Nat) : Int := 21 * ((h.map (fun (x : Nat) => (x : Int))).sum) + (7 + 2 * (hor : Int)) * trendSum h

/-- The heights project below `EYEMIN` within `n` epochs (R276). -/
def State.projectsBelow (s : State) (l n : Nat) : Bool :=
  s.getF (AGE_LANE_TREND_NHIST l) == 8 && decide (proj (s.heights l) n < 168 * (s.getF AGE_FLOOR_EYEMIN : Int))

/-- `HORIZON`; 0 acts as 1. -/
def State.horizon (s : State) : Nat := max 1 (s.getF AGE_FLOOR_HORIZON)

/-- A completed sweep's height enters the lane's history (R276); h_7 is the latest. -/
def State.addHeight (s : State) (l h : Nat) : State :=
  let hs := (s.heights l).drop 1 ++ [h]
  let s := (s.setHeights l hs).setF (AGE_LANE_TREND_NHIST l) (min 8 (s.getF (AGE_LANE_TREND_NHIST l) + 1))
  (s.setF (AGE_LANE_TREND_SLOPE l) (unsigned 16 (clampS 16 (trendSum hs / 84)))).setF (AGE_LANE_STAT_EYE l) h

/-- Watch is entered or left (R277). -/
def State.watchLane (s : State) (l : Nat) (failing : Bool) : State :=
  let v := s.getF (AGE_LANE_STAT_VERDICT l)
  let p := s.projectsBelow l (2 * s.horizon)
  if v = 0 && (failing || p) then s.setVerdict l 1 0x0B
  else if v = 1 && !failing && !p then s.setVerdict l 0 0x0B
  else s

/-- The floors that a completed sweep tests (R276). -/
def State.eyeFloors (s : State) (l h : Nat) : State :=
  if 2 ≤ s.getF (AGE_LANE_STAT_VERDICT l) then s
  else if h < s.getF AGE_FLOOR_EYEMIN then s.retireLane l 3
  else if s.getB AGE_CTRL_PREDICT && s.projectsBelow l s.horizon then s.retireLane l 4
  else if s.getF (AGE_LANE_STAT_VERDICT l) = 0 && s.projectsBelow l (2 * s.horizon) then s.setVerdict l 1 0x0B
  else s

/-! ### The epoch, R272, R273 -/

/-- Castling is allowed (R135). -/
def State.castleMay (s : State) : Bool := s.getB LINK_CTRL_CASTLE_EN && bitOf (s.used 13) 0 && decide (1 ≤ s.getF LINK_STATUS_FREE)

/-- Castling is allowed to an epoch, which leaves the last Standby lane alone while a lane is in Watch (R135, R279). -/
def State.castleOk (s : State) : Bool :=
  s.castleMay && !(s.getF LINK_STATUS_FREE == 1 && s.lanes.any (fun l => s.getF (AGE_LANE_STAT_VERDICT l) == 1))

/-- The epoch is over (R273): an EPOCH record is queued. -/
def State.epochEnd (s : State) : State :=
  let s := (s.recEpoch.count CNT_EPOCH).bump AGE_STATUS_EPOCHS
  let s := s.setFs [(AGE_STATUS_ACTIVE, 0), (AGE_STATUS_LEFT, 0), (AGE_STATUS_BEHIND, 0)]
  { s with lnk := { s.lnk with qualified := [] }, age := { s.age with tunes := [] } }

/-- The order of an epoch (R273): lanes on probation, other Standby lanes, then Active lanes by ascending height, those without a
height first. -/
def State.epochOrder (s : State) : List Nat :=
  let m := s.mapList
  let out := s.lanes.filter (fun l => !m.contains l && s.getF (AGE_LANE_STAT_VERDICT l) != 3 && s.laneState l != 5)
  let key (l : Nat) : Nat := if s.getF (AGE_LANE_TREND_NHIST l) = 0 then 0 else s.getF (AGE_LANE_STAT_EYE l) + 1
  let act := (s.lanes.filter (fun l => m.contains l)).insertionSort (fun a b => key a ≤ key b)
  out.filter (fun l => s.getF (AGE_LANE_STAT_VERDICT l) == 2) ++ out.filter (fun l => s.getF (AGE_LANE_STAT_VERDICT l) != 2) ++ act

/-- Epochs run: only in Service, on a link in Up or Shift, with `EN` (R272). -/
def State.epochMay (s : State) : Bool := s.inService && (s.link == 4 || s.link == 5) && s.getB AGE_CTRL_EN

/-- The lanes of a new epoch are set down (R273). -/
def State.epochBegin (s : State) : State :=
  let o := s.epochOrder
  let s := s.setFs [(AGE_STATUS_ACTIVE, 1), (AGE_STATUS_LEFT, o.length)]
  { s with age := { s.age with order := o, nMeas := 0, nCastle := 0, nQui := 0, nSearch := 0, nSwing := 0, nVerdict := 0, tunes := [] }
           lnk := { s.lnk with qualified := [] } }

/-- The epoch takes its next lane (R273): the end that initiates Castling frees a Standby lane by MEASURE and an Active one by Castling, or
measures it in QUI windows. The other end waits for the lanes that are freed, and without Castling measures its Active lanes in QUI
windows (log entry 121). A lane stays in the order until it has been measured, so that one whose measurement is given up is taken again; one that
is Retired is passed over. While epochs may not run, the one in progress stands (R272). An epoch that ends behind is followed by the next at once. -/
def State.epochNext (s : State) : Nat → State
  | 0 => s
  | fuel + 1 =>
    if !s.getB AGE_STATUS_ACTIVE || !s.epochMay || s.lnk.repair.isSome || s.age.sweep.isSome then s else
    match s.age.order with
    | [] => if s.getB AGE_STATUS_BEHIND && s.epochMay then s.epochEnd.epochBegin.epochNext fuel else s.epochEnd
    | l :: r =>
      let rest (o : List Nat) : State := ({ s with age := { s.age with order := o } }).setF AGE_STATUS_LEFT o.length
      if s.getF (AGE_LANE_STAT_VERDICT l) = 3 then (rest r).epochNext fuel
      else if s.getB LINK_STATUS_INITIATOR then
        let s := rest s.age.order
        if !s.mapList.contains l then
          let s := { s with lnk := { s.lnk with repair := some ⟨false, l, l, false, false, 2, []⟩ } }
          (((s.freshTune l).setLane l 4).refree.beginSweep l false).askLane l 5 noVals
        else if s.castleOk then s.castleStart l else (s.freshTune l).beginSweep l true
      else if s.castleOk then s
      else match s.age.order.find? (fun x => s.mapList.contains x && s.getF (AGE_LANE_STAT_VERDICT x) != 3) with
        | some x => ((rest s.age.order).freshTune x).beginSweep x true
        | none => s

/-- One lane of the epoch has been measured (R273). -/
def State.countLane (s : State) (l : Nat) (castled qui : Bool) : State :=
  if !s.getB AGE_STATUS_ACTIVE then s else
  let a := s.age
  let s := { s with age := { a with order := a.order.filter (· != l), nMeas := a.nMeas + 1, nCastle := a.nCastle + (if castled then 1 else 0), nQui := a.nQui + (if qui then 1 else 0) } }
  s.setF AGE_STATUS_LEFT s.age.order.length

/-- An epoch starts (R272): only in Service, on a link in Up or Shift, with `EN`. One in progress goes on and is marked behind. -/
def State.epochStart (s : State) (due : Bool) : State :=
  if !s.epochMay then s
  else if s.getB AGE_STATUS_ACTIVE then
    (if due && !s.getB AGE_STATUS_BEHIND then (s.setB AGE_STATUS_BEHIND true).raise 0x0701 else s)
  else s.epochBegin.epochNext 32

/-- Both ends have qualified a lane measured in Standby, or one has not: it is released, and a lane on probation is judged (R278). -/
def State.standbyDone (s : State) (l : Nat) (ok : Bool) : State :=
  let v := s.getF (AGE_LANE_STAT_VERDICT l)
  let s := { s with lnk := { s.lnk with repair := none } }
  let s :=
    if v = 2 then
      if ok && decide (2 * s.getF AGE_FLOOR_EYEMIN ≤ s.getF (AGE_LANE_STAT_EYE l)) && decide (s.getF (AGE_LANE_STAT_RETURNS l) < 2) then
        let s := (s.setF (AGE_LANE_STAT_RETURNS l) (s.getF (AGE_LANE_STAT_RETURNS l) + 1)).setVerdict l 0 8
        let s := s.setF LINK_EXCL_EXCL (putBit s.excl l false)
        { s with lnk := { s.lnk with usable := putBit s.lnk.usable l true } }
      else s.setVerdict l 3 9
    else if ok then s else s.probation l 0x0A
  let s := s.countLane l (s.getB LINK_STATUS_CASTLING) false
  if s.getB LINK_STATUS_INITIATOR then (s.hushLane l).askLane l 6 noVals else s.epochNext 32

/-- Work goes on once both ends have judged the lane in hand. -/
def State.judged (s : State) : State :=
  match s.lnk.repair with
  | none => s
  | some r =>
    if !r.allQual then s
    else if r.phase = 2 then s.standbyDone r.s true
    else s.qualifiedBoth

/-- A lane in preparation or measurement was not qualified at one end (R133, R274): a remap or a Castling goes on with the next Standby lane. -/
def State.laneFails (s : State) (l : Nat) : State :=
  match s.lnk.repair with
  | none => if s.laneState l = 2 then (s.exclude (2 ^ l)).setLane l 1 |>.refree else s
  | some r =>
    if r.phase = 2 && l == r.s then s.standbyDone l false
    else if r.phase = 1 && l == r.x then
      -- X stays out and goes to probation; S keeps its position
      let s := if s.getF (AGE_LANE_STAT_VERDICT l) < 2 then s.setVerdict l 2 0x0A else s
      (s.countLane l true false).keepOut l
    else if r.lanes.contains l then
      let keep := s.lnk.eqs.filter (fun e => e.lane == l && e.op == 4)
      let s := s.dropRepair.exclude (2 ^ l)
      let s := { s with lnk := { s.lnk with eqs := keep } }
      if r.castle then s.castleStart r.x else s.remapStart r.x
    else s

/-- The re-plan of a lane in Measure goes on after a sweep or a search: neighbourhood search, swing trim, requalification, record
(R274). A lane on probation is always requalified (R278). -/
def State.replan (s : State) (l : Nat) : State :=
  let t := s.tuneOf l
  let h := s.getF (LANE_EYE_HEIGHT l)
  let eyemin := s.getF AGE_FLOOR_EYEMIN
  let w := s.askedOf l
  let e := eqOfWord w
  if s.getB AGE_CTRL_EQREPLAN && !t.searched && decide (8 * h < 7 * s.getF (AGE_LANE_EQ_EYE0 l)) then
    let s := s.setTune { t with searched := true }
    let s := { s with age := { s.age with nSearch := s.age.nSearch + 1 } }
    s.startSearch l false (nearWords w)
  else if s.getB AGE_CTRL_TRIM && !t.trimmed && decide (3 * eyemin < h) && 0 < e.1 then
    -- the estimate at the values in force is read first
    (s.setTune { t with trimmed := true }).setSearch l (some ⟨l, false, [], w, w, 0, false, true, w⟩)
  else if s.getB AGE_CTRL_TRIM && !t.trimmed && decide (h < 2 * eyemin) && decide (e.1 < 15) then
    let s := s.setTune { t with trimmed := true, changed := true }
    let s := { s with age := { s.age with nSwing := s.age.nSwing + 1 } }
    (s.askVals l (eqWord (e.1 + 1) e.2.1 e.2.2.1 e.2.2.2)).recPreset l
  else
    let s := s.recPreset l
    if t.changed || s.getF (AGE_LANE_STAT_VERDICT l) == 2 then s else (s.ownVerdict l true).judged

/-! ### Search points and qualification -/

/-- The estimate at the point being tried (R114, R274): the best point is kept, then the swing is lowered while the estimate stays
within 0.5 dB of the best. -/
def State.searchPoint (s : State) (l snr : Nat) : State :=
  match s.searchOf l with
  | none => s
  | some q =>
    if q.swing && !q.seen then
      let e := eqOfWord q.cur
      let down := eqWord (e.1 - 1) e.2.1 e.2.2.1 e.2.2.2
      (s.setSearch l (some { q with cur := down, bestSnr := snr, seen := true })).askVals l down
    else if q.swing then
      let good := decide (q.bestSnr ≤ snr + 5)
      let e := eqOfWord q.cur
      let best := if good then q.cur else q.best
      let down := eqWord (e.1 - 1) e.2.1 e.2.2.1 e.2.2.2
      if q.whole && good && 0 < e.1 then (s.setSearch l (some { q with best := best, cur := down })).askVals l down
      else
        let s := (s.setSearch l none).askVals l best
        if q.whole then s
        else
          let t := s.tuneOf l
          let s := if good then { s.setTune { t with changed := true } with age := { (s.setTune { t with changed := true }).age with nSwing := s.age.nSwing + 1 } } else s
          if s.mapList.contains l then s else s.replan l
    else
      let better := !q.seen || decide (q.bestSnr < snr)
      let q := { q with best := if better then q.cur else q.best, bestSnr := if better then snr else q.bestSnr, seen := true }
      match q.left with
      | w :: r => (s.setSearch l (some { q with cur := w, left := r })).askVals l w
      | [] =>
        let e := eqOfWord q.best
        if q.whole && 0 < e.1 then
          let down := eqWord (e.1 - 1) e.2.1 e.2.2.1 e.2.2.2
          (s.setSearch l (some { q with swing := true, cur := down })).askVals l down
        else if q.whole then (s.setSearch l none).askVals l q.best
        else
          -- the neighbourhood search ends: the best point is applied and the lane is swept again
          let t := s.tuneOf l
          let s := s.setTune { t with changed := t.changed || q.best != q.base }
          ((s.setSearch l none).askVals l q.best).beginSweep l false

/-- A request of LANE-EQ arrives from the peer: `REQID` bit 7 tells it from an answer, and a repeat is answered and changes nothing
(R133). The answer of `isAnswer` ends this end's request. -/
def State.isAnswer (s : State) (reqid lane op : Nat) : Bool :=
  bitOf reqid 7 == s.getB LINK_STATUS_INITIATOR
    && s.lnk.eqs.any (fun e => e.reqid == reqid && e.lane == lane && (e.op == op || (e.op == 1 && op == 2)))

/-- A request of this end, answered or not: it is none of the peer's (R133). -/
def State.ownReq (s : State) (reqid lane : Nat) : Bool :=
  bitOf reqid 7 == s.getB LINK_STATUS_INITIATOR && s.lnk.sentReq.contains (reqid, lane)

/-- This end's request is answered. -/
def State.endAsk (s : State) (reqid lane : Nat) : State :=
  { s with lnk := { s.lnk with eqs := s.lnk.eqs.filter (fun e => !(e.reqid == reqid && e.lane == lane && e.op != 3 && e.op != 4)) } }

/-- A request of the peer is acted on once per `REQID` and lane; true on the first arrival. -/
def State.firstReq (s : State) (reqid lane op : Nat) : Bool := !s.lnk.seenReq.contains (reqid, lane, op)

/-- Remember a request of the peer. A `REQID` counts as used until the peer, which numbers its requests in order, is 64 numbers further (DESIGN
CHOICE, log entry 155). -/
def State.noteReq (s : State) (reqid lane op : Nat) : State :=
  { s with lnk := { s.lnk with seenReq := (reqid, lane, op) :: s.lnk.seenReq.filter (fun q => q.1 != reqid && decide ((reqid + 256 - q.1) % 128 < 64)) } }

/-- The lane may be worked on by LANE-EQ: one of the instance's data and spare lanes, in no position, and not Retired; the link carries
flits. -/
def State.laneFree (s : State) (l : Nat) : Bool :=
  (s.link == 4 || s.link == 5) && s.lanes.contains l && s.laneState l != 5

/-- A measurement of lane `l`, or the Castling that had it out, is given up because the peer takes the lane (R47, R136). -/
def State.yieldLane (s : State) (l : Nat) : State :=
  let s := if (s.age.sweep.map (·.lane)) == some l then s.abandonSweep else s
  match s.lnk.repair with
  | none => s
  | some r =>
    if r.phase = 2 && r.s == l then { s with lnk := { s.lnk with repair := none } }
    else if r.phase = 1 && r.x == l then
      let s := (s.setB LINK_STATUS_CASTLING false).runEnds 0x14 0x0D []
      { s with lnk := { s.lnk with repair := none, eqs := [] } }
    else s

/-- PREP arrives (R133). -/
def State.onPrep (s : State) (r l : Nat) : State :=
  if s.isAnswer r l 0 then (s.endAsk r l).tuneLane l s.laneMode false
  else if s.ownReq r l || !s.laneFree l || s.mapList.contains l then s
  else
    let t := s.sendLaneEq r l 0 noVals
    if s.firstReq r l 0 then ((((t.noteReq r l 0).yieldLane l).setLane l 2).refree).tuneLane l s.laneMode false else t

/-- LANE_EQ_PREP: PREP as the peer's request or as the answer to one of this end's (R133). -/
def execLaneEqPrep (reqid : Byte) (lane : Fin 18) (s : State) : Host.Outcome State Fault Refusal :=
  done s (s.hear.onPrep reqid.toNat lane.val)

/-- SET arrives (R133). -/
def State.onSet (s : State) (r l : Nat) (v : EqVals) : State :=
  if !s.laneFree l then s else
  let w := eqWord v.swing.toNat v.pre2.toNat v.pre1.toNat v.post1.toNat
  let ok := eqAllowed v.swing.toNat v.pre2.toNat v.pre1.toNat v.post1.toNat
  let s := if s.firstReq r l 1 then (if ok then (s.noteReq r l 1).writeTx l w else s.noteReq r l 1) else s
  s.sendLaneEq r l 2 (valsOf (eqOfWord (s.rd (LANE_TXEQ l))))

/-- LANE_EQ_SET: the peer asks for transmit values; the answer carries those then in force (R133, R43). -/
def execLaneEqSet (reqid : Byte) (lane : Fin 18) (v : EqVals) (s : State) : Host.Outcome State Fault Refusal :=
  done s (s.hear.onSet reqid.toNat lane.val v)

/-- SET-DONE arrives (R133). -/
def State.onSetDone (s : State) (r l : Nat) (v : EqVals) : State :=
  if s.isAnswer r l 2 then (s.endAsk r l).setAsked l (eqWord v.swing.toNat v.pre2.toNat v.pre1.toNat v.post1.toNat) else s

/-- LANE_EQ_SET_DONE: the values of a SET are in force at the peer (R133). -/
def execLaneEqSetDone (reqid : Byte) (lane : Fin 18) (v : EqVals) (s : State) : Host.Outcome State Fault Refusal :=
  done s (s.hear.onSetDone reqid.toNat lane.val v)

/-- QUAL arrives (R133). -/
def State.onQual (s : State) (l : Nat) : State :=
  match s.lnk.repair with
    | none => s
    | some r => ({ s with lnk := { s.lnk with repair := some (r.mark l false) } }).judged

/-- LANE_EQ_QUAL: the peer's receiver has qualified the lane (R133). -/
def execLaneEqQual (lane : Fin 18) (s : State) : Host.Outcome State Fault Refusal :=
  done s (s.hear.onQual lane.val)

/-- LANE_EQ_FAIL: the peer's receiver has not qualified the lane (R133). -/
def execLaneEqFail (lane : Fin 18) (s : State) : Host.Outcome State Fault Refusal := done s (s.hear.laneFails lane.val)

/-- MEASURE arrives (R133). A remap that this end prepares is kept (R136). -/
def State.onMeasure (s : State) (r l : Nat) : State :=
  if s.isAnswer r l 5 then (((s.endAsk r l).freshTune l).setLane l 4).freedSweep l
  else if s.ownReq r l || !s.laneFree l || s.mapList.contains l then s
  else
    let t := s.sendLaneEq r l 5 noVals
    if s.firstReq r l 5 then
      let t := t.noteReq r l 5
      let t := match s.lnk.repair with
        | some p => if p.phase = 2 then { t with lnk := { t.lnk with repair := some ⟨false, l, l, false, false, 2, []⟩ } } else t
        | none => { t with lnk := { t.lnk with repair := some ⟨false, l, l, false, false, 2, []⟩ } }
      (((t.freshTune l).setLane l 4).refree).freedSweep l
    else t

/-- LANE_EQ_MEASURE: MEASURE as the peer's request or as the answer to one of this end's; the lane is swept (R133, R135). -/
def execLaneEqMeasure (reqid : Byte) (lane : Fin 18) (s : State) : Host.Outcome State Fault Refusal :=
  done s (s.hear.onMeasure reqid.toNat lane.val)

/-- A lane released is in Standby, or Retired. -/
def State.toStandby (s : State) (l : Nat) : State :=
  (s.setLane l (if s.getF (AGE_LANE_STAT_VERDICT l) = 3 then 5 else 1)).refree

/-- The peer has answered this end's RELEASE: a Castling is complete with the release of its spare (R135), and the work that waited goes on. -/
def State.released (s : State) (l : Nat) : State :=
  let s := if s.mapList.contains l || s.laneState l = 5 then s.refree else s.toStandby l
  let s := match s.lnk.repair with
    | none => s
    | some r =>
      if r.s = l && r.castle && r.phase == 1 then
        let s := ((s.setB LINK_STATUS_CASTLING false).count CNT_CASTLE).runEnds 0x14 0
          (beBytes 2 (s.getF (LANE_EYE_HEIGHT r.x)) ++ beBytes 1 (s.getF (LANE_EYE_WIDTH r.x)) ++ beBytes 1 0)
        ({ s with lnk := { s.lnk with repair := none } }).countLane r.x true false
      else if r.s = l && r.phase == 2 then { s with lnk := { s.lnk with repair := none } }
      else s
  if s.awaiting.isEmpty then s.epochNext 32 else s.repairNext

/-- RELEASE arrives (R133). At the other end too it completes a Castling whose Shifts it took part in (R135, log entry 122). -/
def State.onRelease (s : State) (r l : Nat) : State :=
  if s.isAnswer r l 6 then ((s.endAsk r l).hushLane l).released l
  else if s.ownReq r l || !(s.link == 4 || s.link == 5) || !s.lanes.contains l || s.mapList.contains l then s
  else
    let t := s.sendLaneEq r l 6 noVals
    if s.firstReq r l 6 then
      let t := ((((t.noteReq r l 6).hushLane l).yieldLane l).toStandby l)
      if t.getB LINK_STATUS_CASTLING && !t.getB LINK_STATUS_INITIATOR then (t.setB LINK_STATUS_CASTLING false).count CNT_CASTLE else t
    else t

/-- LANE_EQ_RELEASE: RELEASE as the peer's request or as the answer to one of this end's: the lane returns to Standby, and a Castling is
complete (R133, R135). -/
def execLaneEqRelease (reqid : Byte) (lane : Fin 18) (s : State) : Host.Outcome State Fault Refusal :=
  done s (s.hear.onRelease reqid.toNat lane.val)

/-- LANE_EQ_REPEAT: unanswered requests, QUAL and FAIL are sent again; after 64 sends the lane is marked FAIL at this end (R133). -/
def execLaneEqRepeat (s : State) : Host.Outcome State Fault Refusal :=
  done s (
    if !(s.link == 4 || s.link == 5) then s else
    let spent := s.lnk.eqs.filter (fun e => decide (64 ≤ e.sends))
    let live := s.lnk.eqs.filter (fun e => decide (e.sends < 64))
    let s := { s with lnk := { s.lnk with eqs := live.map (fun e => { e with sends := e.sends + 1 }) } }
    let s := live.foldl (fun s e => s.sendLaneEq e.reqid e.lane e.op e.vals) s
    spent.foldl (fun s e => s.laneFails e.lane) s)

/-- EQ_SEARCH_POINT: the estimate of a point of a search is read, 2^16 ticks after it was applied (R114, R274). -/
def execEqSearchPoint (lane : Fin 18) (snr : BitVec 16) (s : State) : Host.Outcome State Fault Refusal :=
  done s (if (s.searchOf lane.val).isNone then s
    else (((s.setF (LANE_SNR_SNR lane) snr.toNat).setB (LANE_SNR_VALID lane) true).searchPoint lane.val snr.toNat))

/-- SPARE_QUALIFY_END: PRBS31 over 2^24 bytes ends with a number of errored bytes; up to 16 qualify the lane. It does not run while a search
chooses the lane's presets (R133). -/
def execSpareQualifyEnd (lane : Fin 18) (errs : Nat) (s : State) : Host.Outcome State Fault Refusal :=
  let l := lane.val
  done s (
    if !(s.laneState l == 2 || s.laneState l == 4) || (s.searchOf l).isSome || !(s.link == 4 || s.link == 5) then s else
    let s := s.prbsErrs l errs
    if errs ≤ 16 then (s.ownVerdict l true).judged else (s.ownVerdict l false).laneFails l)

end Sys2Proof.Machine
end

