-- ==== Sys2Proof/Machine/Shift.lean ====
section
/-! DEFINITION. The commands of Shift (R124–R127). -/

namespace Sys2Proof.Machine

/-- Answer a SHIFT-REQ. -/
def State.ackShift (s : State) (m : ShiftMsg) (status : Nat) : State := s.queueLc (shiftBody 0x22 { m with status := BitVec.ofNat 8 status })

/-- A request with nothing of this end's pending is answered, and committed where it passes (R125 step 2). -/
def State.respondShift (s : State) (m : ShiftMsg) : State :=
  if s.shiftRefused m then s.ackShift m 2 else
  match s.shiftEffg m.reason.toNat with
  | none => s.ackShift m 2
  | some g =>
    let own := { m with effg := BitVec.ofNat 32 g }
    let s := { s with lnk := { s.lnk with effgDue := true } }
    let s := (s.commitShift own false).setF LINK_PEER_EFFG_EFFG m.effg.toNat
    let s := if m.reason = 4 then s.setB LINK_STATUS_CASTLING true else s
    let out := if m.reason = 4 then s.mapList.find? (fun l => !(mapOf m.map).contains l) else none
    ({ s with lnk := { s.lnk with shiftPeer := some m, peerOut := out } }).ackShift own 0

/-- This end's Castling proposal is withdrawn: it starts again once the other Shift has ended (R127, R136). -/
def State.withdraw (s : State) (own : ShiftMsg) : State :=
  let s := { s with lnk := { s.lnk with shiftOwn := none } }
  if own.reason = 4 || own.reason == 5 then
    let s := s.setB LINK_STATUS_CASTLING false
    { s with lnk := { s.lnk with repair := s.lnk.repair.map (fun r => { r with phase := 0, ownQual := true, peerQual := true }) } }
  else s

/-- A SHIFT-REQ arrives (R125, R127). -/
def State.onShiftReq (s : State) (m : ShiftMsg) : State :=
  if !(s.link == 4 || s.link == 5) then s else
  let s := s.hushShifted m
  match s.lnk.commit with
  | some c =>
    if (s.lnk.shiftPeer.map (·.id)) == some m.id then
      s.ackShift { c with id := m.id } (if s.getB LINK_SHIFT_MERGED then 3 else 0)
    else if s.getB LINK_SHIFT_MERGED && s.lnk.shiftPeer.isNone then
      -- committed on the peer's merged answer before its own request came: that answer is held against this end's own merge
      if (s.lnk.mergeOwn.bind (fun own => s.mergeShifts own m)) != some (c.width.toNat, c.mode.toNat, c.excl.toNat, mapOf c.map) then s.retrainNow 7
      else ({ s with lnk := { s.lnk with shiftPeer := some m, mergeOwn := none } }).ackShift { c with id := m.id } 3
    else s.ackShift m 1
  | none =>
    match s.lnk.shiftOwn with
    | none => s.respondShift m
    | some own =>
      if m.reason = 4 || m.reason == 5 then
        if own.reason = 4 || own.reason == 5 then s.withdraw own else s
      else if own.reason = 4 || own.reason == 5 then
        let t := (s.withdraw own).respondShift m
        if t.lnk.commit.isNone then t.resumeWork else t
      else
        match s.mergeShifts own m with
        | none => ({ s with lnk := { s.lnk with shiftOwn := none } }).atQui .down (fun s => s.linkDown 2 s.inService)
        | some (w, md, x, map) =>
          let c : ShiftMsg := { own with width := BitVec.ofNat 8 w, mode := BitVec.ofNat 8 md, excl := BitVec.ofNat 24 x, map := mapBytes map }
          let s := ((s.commitShift c true).setF LINK_PEER_EFFG_EFFG m.effg.toNat).count CNT_SHIFT_CLASH
          ({ s with lnk := { s.lnk with shiftPeer := some m, shiftWait := some own } }).ackShift { c with id := m.id } 3

/-- Two Shifts agree on what they make. -/
def sameShift (a b : ShiftMsg) : Bool := a.width == b.width && a.mode == b.mode && a.excl == b.excl && a.map == b.map

/-- A SHIFT-ACK arrives (R125 step 3, R127). -/
def State.onShiftAck (s : State) (m : ShiftMsg) : State :=
  if !(s.link == 4 || s.link == 5) then s else
  match s.lnk.commit, s.lnk.shiftOwn with
  | some c, _ =>
    if s.getB LINK_SHIFT_MERGED && c.id == m.id && m.status == 3 then
      if sameShift c m then ({ s with lnk := { s.lnk with shiftWait := none } }).setF LINK_PEER_EFFG_EFFG m.effg.toNat else s.retrainNow 7
    else s
  | none, some own =>
    if own.id != m.id then s
    else if m.status = 0 then (s.commitShift own false).setF LINK_PEER_EFFG_EFFG m.effg.toNat
    else if m.status = 3 then
      let c := { own with width := m.width, mode := m.mode, excl := m.excl, map := m.map }
      let s := ((s.commitShift c true).setF LINK_PEER_EFFG_EFFG m.effg.toNat).count CNT_SHIFT_CLASH
      { s with lnk := { s.lnk with mergeOwn := some own } }
    else if m.status = 2 && (own.reason == 1 || own.reason == 3) then s.retrainNow 7
    else
      let s := (s.withdraw own).setF LINK_SHIFT_PHASE 0
      let s := s.runEnds 0x12 (if m.status = 2 then 7 else 1) []
      let fix := own.reason == 1 || own.reason == 3
      let s := { s with lnk := { s.lnk with again := fix } }
      let s := if m.status = 2 && (own.reason == 4 || own.reason == 5) then s.cancelRepair else s
      if !fix && (!s.awaiting.isEmpty || s.lnk.keep.isSome) then s.repairNext else s
  | none, none => s

/-- SHIFT_REQ_RECEIVE (R125). -/
def execShiftReqReceive (m : ShiftMsg) (s : State) : Host.Outcome State Fault Refusal := done s (s.hear.onShiftReq m)
/-- SHIFT_ACK_RECEIVE (R125). -/
def execShiftAckReceive (m : ShiftMsg) (s : State) : Host.Outcome State Fault Refusal := done s (s.hear.onShiftAck m)

/-- SHIFT_REQ_REPEAT: an unanswered SHIFT-REQ is sent again every 64 flit times, one that a merge has committed too. A repair proposal that met
a busy peer is made again once no Shift is pending here (R125). -/
def execShiftReqRepeat (s : State) : Host.Outcome State Fault Refusal :=
  done s (match s.lnk.shiftOwn <|> s.lnk.shiftWait with
    | none => if s.lnk.again && s.mayPropose then ({ s with lnk := { s.lnk with again := false } }).resumeWork else s
    | some m => { (s.queueLc (shiftBody 0x21 m)) with lnk := { s.lnk with shiftSends := s.lnk.shiftSends + 1 } })

/-- The peer's rate-lower gap ends with its start marker: this end's receivers have locked and adapted CTLE and gain anew in it (R126). -/
def State.rxGapEnds (s : State) : State :=
  if s.lnk.rxGap then s.lnk.rxMap.foldl State.adapted { s with lnk := { s.lnk with rxGap := false } } else s

/-- The mode of the mapped lanes is shown anew. -/
def State.showModes (s : State) : State := (s.mapList.filter (fun l => s.lanes.contains l)).foldl (fun s l => s.setF (LANE_STATUS_MODE l) s.laneMode) s

/-- SHIFT_TX_SWITCH: the transmitter reaches its own `EFFG`: it switches to the new width, mode and map, or, without the peer's
answer, starts a Retrain (R125, R126); no `EFFG` stands before the message that gives it has left. Switching to a slower mode opens the gap. -/
def execShiftTxSwitch (s : State) : Host.Outcome State Fault Refusal :=
  done s (match s.lnk.commit, s.lnk.shiftOwn with
    | some c, _ =>
      if s.link = 5 && s.getF LINK_SHIFT_PHASE == 2 && c.effg.toNat == s.lnk.gTx % 2 ^ 32 && s.lnk.fTx == 0 && !s.lnk.effgDue then
        if s.lnk.shiftWait.isSome then (s.count CNT_SHIFT_LOST).retrainNow 7 else
        let old := s.mapList.length
        let oldMode := s.getF LINK_STATUS_MODE
        let s := ((s.setMap (mapOf c.map)).setFs [(LINK_STATUS_MODE, c.mode.toNat), (LINK_SHIFT_PHASE, 3),
          (LINK_STATUS_WIDTH, (mapOf c.map).length)])
        let s := { s with lnk := { s.lnk with gap := decide (oldMode < c.mode.toNat), gapAt := s.now, negAt := s.tick } }
        let s := s.placeShift.showModes
        if s.lnk.rxDone then s.shiftEnds c old oldMode else s
      else s
    | none, some own =>
      if s.link = 4 && own.effg.toNat == s.lnk.gTx % 2 ^ 32 && s.lnk.fTx == 0 && !s.lnk.effgDue then (s.count CNT_SHIFT_LOST).retrainNow 7 else s
    | none, none => s)

/-- SHIFT_RX_SWITCH: the receiver reaches the peer's `EFFG` (R125); with a slower mode the peer's gap begins (R126). -/
def execShiftRxSwitch (s : State) : Host.Outcome State Fault Refusal :=
  done s (match s.lnk.commit with
    | none => s
    | some c =>
      if s.link = 5 && !s.lnk.rxDone && s.getF LINK_PEER_EFFG_EFFG == s.lnk.gRx % 2 ^ 32 && s.lnk.fRx == 0 then
        let old := s.lnk.rxMap.length
        let oldMode := s.lnk.rxMode
        let s := { s with lnk := { s.lnk with rxMap := mapOf c.map, rxMode := c.mode.toNat, rxDone := true,
                                              rxGap := decide (oldMode < c.mode.toNat) } }
        let s := s.placeShift
        if s.getF LINK_SHIFT_PHASE = 3 then s.shiftEnds c old oldMode else s
      else s)

/-- RATE_LOWER_GAP_END: 3,072 ticks after a rate-lower switch, in which the lanes sent the square wave, the start marker is sent and flits resume
(R126). -/
def execRateLowerGapEnd (s : State) : Host.Outcome State Fault Refusal :=
  done s (
    if !s.lnk.gap then s else
    let s := s.advanceTo (s.lnk.gapAt + 3072)
    let s := { s with lnk := { s.lnk with gap := false } }
    s.emit (.marker s.mapList markerBytes))

end Sys2Proof.Machine
end

