-- ==== Sys2Proof/Machine/Training.lean ====
section
/-! DEFINITION. The start stages as far as events pass them (R296, R300), Detect, Equalise and Negotiate (R113–R122), and the Retrain's
exchanges (R129). -/

namespace Sys2Proof.Machine

/-! ### Detect, R113 -/

/-- This end's `MODES` (R114, R117). -/
def State.myModes (s : State) : Nat := if s.getB LINK_CTRL_NO_NATIVE then ownModes s.place / 2 * 2 else ownModes s.place

/-- The modes in both ends' masks, fastest first. -/
def State.commonModes (s : State) : List Nat := (List.range 3).filter (fun m => bitOf (s.myModes &&& s.lnk.peerModes) m)

/-- The body of DETECT (R111). -/
def State.detectBody (s : State) : List Byte :=
  mask3 s.lnk.seen ++ beBytes 1 s.myModes ++ beBytes 1 (if s.far then 1 else 0) ++ beBytes 1 (if s.getB LINK_STATUS_REVERSED then 1 else 0)

/-- Set a byte-wise record in registers from a base (R137). -/
def State.putRecord (s : State) (base : Nat) (r : List Byte) : State :=
  (List.range 6).foldl (fun s w => s.wr (base + 4 * w) (bytesAt r (4 * w) 4)) s

/-- Detect begins afresh: every lane that is not Retired trains, with the square wave, and DETECT is sent (R113, R298); what the peer said of its
capability is forgotten (R302). -/
def State.startDetect (s : State) : State :=
  let m := ((List.range 3).find? (fun m => bitOf s.myModes m)).getD 0
  let s := s.hush
  let s := { s with lnk := { s.lnk with seen := 0, ppmSeen := 0, peerSeen := 0, peerModes := 0, stable := 0, exchanged := false, usable := 0,
                                        eqMode := m, tried := [], results := [], copy := none, searches := [], ownPass := 0, peerPass := none,
                                        passSent := false, ownReady := none, peerReady := none, held18 := false } }
  let s := (s.putRecord 0x480 []).putRecord 0x4C0 []
  let s := { s with strt := { s.strt with walk := 0, eyes := none } }
  let s := (s.setF LINK_STATUS_MODE 3).setLink 1 0
  let s := s.setLanes s.lanes 2
  s.sayUntil 1 s.detectBody

/-! ### Equalise, R114 -/

/-- Lanes begin to be tuned at the mode in hand. -/
def State.tuneAll (s : State) : State :=
  let full := s.getB LINK_CTRL_EQ_FULL || !s.getB START_CTRL_MFGDONE
  let s := { s with lnk := { s.lnk with searches := [], ownPass := 0, peerPass := none, passSent := false, since := s.now } }
  (s.lanes.filter (fun l => bitOf s.lnk.seen l && bitOf s.lnk.peerSeen l && !bitOf s.excl l)).foldl
    (fun s l => (s.setLane l 2).tuneLane l s.lnk.eqMode full) s

/-- The lanes that go forward (R113). -/
def State.forward (s : State) : List Nat := s.lanes.filter (fun l => bitOf s.lnk.seen l && bitOf s.lnk.peerSeen l && !bitOf s.excl l)

/-- Equalise begins at the fastest common mode, or the link goes Down without one (R114). Lanes that do not go forward stand by. -/
def State.enterEqualise (s : State) : State :=
  match s.commonModes with
  | [] => s.linkDown 7
  | m :: _ =>
    let s := s.hush
    let s := s.setLanes (s.lanes.filter (fun l => !s.forward.contains l)) 1
    (({ s with lnk := { s.lnk with eqMode := m, tried := [], results := [] } }).setLink 2 0).tuneAll

/-! ### Negotiate, R117–R122 -/

/-- The instance's own capability record (R117; the base set of R120). -/
def State.ownCap (s : State) : List Byte :=
  let base := s.getB LINK_CTRL_BASECAP_REQ
  let kind := if s.far then 1 else 0
  let widths := (allowedWidths s.place).foldl (fun a w => a + widthBit w) 0
  let n := s.usableLanes.length
  let left := ((allowedWidths s.place).filter (fun w => decide (w ≤ n))).foldl (fun a w => a + widthBit w) 0
  beBytes 2 0x0201 ++ beBytes 4 (s.rd ID_DIE) ++ beBytes 1 kind ++ beBytes 1 (dataLanes s.place).length ++ beBytes 1 (spareLanes s.place).length
    ++ beBytes 1 (if base then 2 ^ s.lnk.eqMode else s.myModes) ++ beBytes 1 (if base then left else widths) ++ beBytes 1 (if base then 0x2F else 0x7F)
    ++ beBytes 1 (if base then 0 else 3) ++ beBytes 1 (if base then 8 else 15) ++ beBytes 2 (bankCap s.place)
    ++ beBytes 2 (if s.far then s.pod_ else 0) ++ beBytes 2 (if base then 0 else strbufCap s.place)
    ++ beBytes 1 (if s.far then s.place - 50 else 0) ++ beBytes 3 0

/-- Negotiate begins: CAP is sent (R117). The lanes stay in Training (DEDUCED, log entry 126). -/
def State.negotiateStart (s : State) : State :=
  let s := s.hush
  let s := s.setB LINK_STATUS_BASECAP (s.getB LINK_CTRL_BASECAP_REQ)
  let s := s.putRecord 0x440 s.ownCap
  let s := { s with lnk := { s.lnk with negAt := s.now, ownReady := none, peerReady := none, held18 := false } }
  (s.setLink 3 0).sayUntil 5 s.ownCap

/-! ### Stages, R296 and R300 -/

/-- What the start memory gives at the beginning of T4 (R298, R300): verdicts and returns, Retired lanes, exclusions. -/
def State.restoreLanes (s : State) : State :=
  let s := s.lanes.foldl (fun s l =>
    let v := s.getF (START_LANEMEM_VERDICT l)
    let s := s.setFs [(AGE_LANE_STAT_VERDICT l, v), (AGE_LANE_STAT_RETURNS l, s.getF (START_LANEMEM_RETURNS l))]
    if v = 3 then (s.exclude (2 ^ l)).setLane l 5 else if v = 2 then (s.exclude (2 ^ l)).setLane l 1 else s) s
  let failed := s.lanes.filter (fun l => bitOf (s.getF START_MEM_LANES) l)
  failed.foldl (fun s l =>
    let s := s.exclude (2 ^ l)
    if s.getF (AGE_LANE_STAT_VERDICT l) = 3 then s else (s.setVerdict l 2 6).setLane l 1) s

/-- The paths taken when T2 passes (R300, R305). -/
def State.takePaths (s : State) : State :=
  let f := s.getF START_MEM_LASTFAIL
  let lanes := s.getF START_MEM_LANES != 0
  let s := if f = 5 then s.setB LINK_CTRL_EQ_FULL true else s
  let s := if f = 6 then s.setB LINK_CTRL_BASECAP_REQ true else s
  s.setF START_STATUS_PATH ((if f = 5 then 1 else 0) + (if lanes then 2 else 0) + (if f = 6 then 4 else 0)
    + (if s.getB START_CTRL_MFGDONE then 0 else 8))

/-- The declared latency D (R151). -/
def State.declNow (s : State) : Nat :=
  if s.far then (3 * s.getF DLV_LOOP_LOOP + 125 + 1) / 2 else 250

/-! ### The microcode image, R310 and R311 -/

/-- Word `k` of the microcode RAM. -/
def State.imgWord (s : State) (k : Nat) : Nat := (s.lme.ram.get k).toNat

/-- The CRC-32 of the image's first `len` bytes, with bytes 16–19 taken as zero (R310). -/
def State.imageCrc (s : State) (len : Nat) : Nat :=
  crc32 ((List.range (len / 4)).flatMap (fun k => beBytes 4 (if k = 4 then 0 else s.imgWord k)))

/-- The retained image passes its check: the CRC alone, against `LME_IMGCRC` (R311). -/
def State.retainedOk (s : State) : Bool := s.imageCrc (min 65536 (s.imgWord 2)) == s.rd LME_IMGCRC

/-! ### Stages -/

/-- The crossings close for their handshake: the side that left reset raises RQ (R256 step 1). -/
def State.resync (s : State) (xs : List Nat) : State :=
  let s := s.setF ISL_XING_RESYNC (s.getF ISL_XING_RESYNC ||| maskOf xs)
  { s with isl := { s.isl with hs := (List.range 6).map (fun x => if xs.contains x then 1 else s.isl.hs.getD x 0) } }

/-- The islands' clocks are present (R255, T0). -/
def State.clocksOn (s : State) : State := s.setFs [(ISL_STATUS_LCORE_OK, 1), (ISL_STATUS_ARITH_OK, 1), (ISL_STATUS_CORE_OK, 1)]

/-- What a stage does as it begins (R296). -/
def State.stageEnter (s : State) (k : Nat) : State :=
  if k = 3 then (if s.far then s else s.setF (LANE_STATUS_STATE 18) 3)
  else if k = 1 then s.resync (List.range 6)
  else if k = 4 then s.restoreLanes.startDetect
  else if k = 5 then s.enterEqualise
  else if k = 6 then s.negotiateStart
  else if k = 8 then (if s.getB TIME_CTRL_MASTER then s.setB TIME_STATUS_SYNCED true else s)
  else s

/-- Stage `k` passes with an outcome and the next begins (R296, R297). `ACKTO` of a Far link takes `LOOP` + 512 modulo 2^20 at T7 (R88), and
D is kept modulo 2^20 (R151; DESIGN CHOICE, log entry 128). -/
def State.stagePass (s : State) (k o : Nat) : State :=
  if !s.starting || s.stage != k then s else
  let s := (s.stageOut k o).setF START_STATUS_STAGE (k + 1)
  let s := { s with strt := { s.strt with stageAt := s.now } }
  if k = 8 then
    let s := { s with tim := { s.tim with e0 := none, early := 0, lateB := 0, outTol := 0 } }
    (s.setFs [(TIME_DECL_DECL, s.declNow), (TIME_DECL_VALID, 1)]).stageEnter 9
  else if k = 7 && s.far then (s.setF DLV_ACKTO_ACKTO (s.getF DLV_LOOP_LOOP + 512)).stageEnter 8
  else s.stageEnter (k + 1)

/-- The instance is retired already, as its start memory says (R301). -/
def State.retiredStart (s : State) : State :=
  let s := s.stageOut 2 0
  (((s.endStart 4 3).setB START_STATUS_RETIRED true).raise 0x0803).powerDown

/-- T2 passes once the image and the VI table are in place (R296, R300, R301); on a Far instance T3 is not applicable. After a die reset the
retained image is checked, without a restore (R302). -/
def State.passT2 (s : State) : State :=
  if !s.starting || s.stage != 2 || !s.getB LME_STATUS_IMGOK || !(s.getB START_STATUS_VIOK || s.strt.again) then s
  else if s.getB START_MEM_RETIRED then s.retiredStart
  else if s.strt.again && !s.retainedOk then s.setFs [(LME_STATUS_IMGOK, 0), (LME_STATUS_RUNNING, 0)]
  else
    let s := s.takePaths.stagePass 2 0
    if s.far then s.stagePass 3 3 else s

/-! ### The end of Detect and of T4 -/

/-- Detect has ended: DETECT has been exchanged and neither bitmap changed for four messages (R113). -/
def State.detected (s : State) : Bool := s.link == 1 && s.lnk.exchanged && decide (4 ≤ s.lnk.stable)

/-- T4 passes when the lanes left fill an allowed width, and fails otherwise (R296, R306). -/
def State.passT4 (s : State) : State :=
  if widestFor s.place s.forward.length = 0 then s.linkDown 2
  else s.stagePass 4 (if s.getF START_T4FAIL_LANES != 0 || bitOf (s.getF START_STATUS_PATH) 1 then 1 else 0)

/-- The reversed naming of R34: Ln faces L(15−n), SP0 faces SP1. -/
def reversed (m : Nat) : Nat := maskOf ((onesOf m).map (fun l => if l < 16 then 15 - l else if l = 16 then 17 else if l = 17 then 16 else l))

/-- Lanes of the site show signal: recovered clocks (`LANE_LOCK`), and reason 0x03 recorded for a frequency offset (R113). -/
def State.noteSeen (s : State) (seen off : Nat) : State :=
  let all := maskOf s.lanes
  let s := s.setF ISL_STATUS_LANE_LOCK ((seen ||| off) &&& all)
  if off &&& all = 0 then s else s.setF LINK_FAIL_REASON 3

/-- DETECT of the peer arrives (R113, R266, R302). A guest whose `SEEN` is its own reverse, as when every lane is seen, matches both namings: whether it is
wired in reversal (R34) is then a free value, drawn as Detect ends (DESIGN CHOICE, log entry 156). -/
def State.onDetect (s : State) (m : DetectMsg) (seen : Nat) : State :=
  let ps := m.seen.toNat
  if s.link = 7 then (s.countIf s.holdLate CNT_NEAR_MISS 1).linkDown 0x0B
  else if (s.link == 2 || s.link == 3) && s.starting then
    if ps = s.lnk.peerSeen then s.say 1 s.detectBody
    else
      let s := { s with strt := { s.strt with stageAt := s.now } }
      let s := (s.setF START_STATUS_STAGE 4).stageOut 4 3
      s.startDetect
  else if s.link = 1 && s.starting && ps == 0 && s.lnk.peerSeen != 0 then
    -- the peer has begun afresh (log entry 151)
    ({ s with strt := { s.strt with stageAt := s.now } }).startDetect
  else if s.link = 1 && s.starting && !s.getB LINK_STATUS_EMPTY then
    let old := (s.lnk.seen, s.lnk.peerSeen)
    let was := s.detected
    let s := { s with lnk := { s.lnk with seen := seen, peerSeen := ps, peerModes := m.modes.toNat, exchanged := true,
                                          stable := if old == (seen, ps) then s.lnk.stable + 1 else 1 } }
    let s := if old == (seen, ps) && decide (4 ≤ s.lnk.stable - 1) then s.say 1 s.detectBody else if s.detected then s.hush else s.sayUntil 1 s.detectBody
    let blind := s.guestEdge && !s.lnk.reversedOnce && ps == seen && ps == reversed seen && s.detected && !was
    let turned := if blind then s.freeNow.toNat % 2 == 1 else ps != seen
    let s := if blind then s.takeFree else s
    if s.guestEdge && !s.lnk.reversedOnce && ps == reversed seen && turned then
      let s := s.setB LINK_STATUS_REVERSED true
      ({ s with lnk := { s.lnk with reversedOnce := true } }).startDetect
    else if s.detected && s.forward.isEmpty then s.linkDown 2
    else s
  else s

/-! ### Modes, R115 and R116 -/

/-- The mask of lanes qualified: those whose count of errored bytes is at most `lim`; counts stand in the order of the lanes. -/
def State.passMask (s : State) (errs : List Nat) (lim : Nat) : Nat :=
  maskOf (((s.lanes.zip errs).filter (fun p => decide (p.2 ≤ lim))).map (·.1))

/-- Send EQ-RESULT for a mode, repeated until the peer's arrives (R111, R115). -/
def State.sendResult (s : State) (mode mask : Nat) : State :=
  let s := { s with lnk := { s.lnk with ownPass := mask, passSent := true, results := (mode, mask) :: s.lnk.results.filter (fun p => p.1 != mode) } }
  let b := beBytes 1 mode ++ mask3 mask
  if s.lnk.peerPass.isSome then s.say 4 b else s.sayUntil 4 b

/-- Payload rate per lane at a mode, in units of 100 Gbit/s. -/
def modeRate (m : Nat) : Nat := 2 ^ (2 - m)

/-- The usable lanes of a mask outside the exclusion set, in number. -/
def State.nOf (s : State) (mask : Nat) : Nat := (s.lanes.filter (fun l => bitOf mask l && !bitOf s.excl l)).length

/-- The mode that R116 chooses among those tried: the larger W(n) × rate, the faster on a tie. -/
def State.bestMode (s : State) : Option (Nat × Nat) :=
  s.lnk.tried.foldl (fun a t =>
    match a with
    | none => some t
    | some b => if widestFor s.place (s.nOf b.2) * modeRate b.1 < widestFor s.place (s.nOf t.2) * modeRate t.1 then some t else some b) none

/-- A mode stands: Equalise is over, and T5 passes (R116, R296). -/
def State.modeStands (s : State) (mode usable : Nat) : State :=
  let s := { s with lnk := { s.lnk with eqMode := mode, usable := usable } }
  let s := (s.setF LINK_STATUS_MODE mode).hush
  (s.setB LINK_CTRL_EQ_FULL false).stagePass 5 (if bitOf (s.getF START_STATUS_PATH) 0 then 1 else 0)

/-- The next lane of the manufacturing test's eye sweeps is put in Measure; after the last, the fastest mode stands (R305). -/
def State.mfgEye (s : State) : State :=
  match s.strt.eyes with
  | some (l :: r) => (({ s with strt := { s.strt with eyes := some r } }).setLane l 4).beginSweep l false
  | _ => ({ s with strt := { s.strt with eyes := none } }).modeStands (s.commonModes.headD 0) s.lnk.ownPass

/-- A lane has failed the manufacturing test of T5: it is in `EXCL`, and the start is scrapped (R305). -/
def State.mfgFails (s : State) (bad : Nat) : State := (s.exclude bad).startScrap 0x87

/-- Both ends' results of a mode's PRBS31 test are here: the next slower mode is tested, and after the last the eyes at the fastest (R305). -/
def State.mfgChoice (s : State) (mask : Nat) : State :=
  if mask != maskOf s.lanes then s.mfgFails (maskOf (s.lanes.filter (fun l => !bitOf mask l)))
  else match (s.commonModes.filter (fun m => decide (s.lnk.eqMode < m))).head? with
    | some m => (({ s with lnk := { s.lnk with eqMode := m } }).hush).tuneAll
    | none =>
      let s := { s with lnk := { s.lnk with eqMode := s.commonModes.headD 0 }, strt := { s.strt with eyes := some s.forward } }
      s.hush.mfgEye

/-- Both EQ-RESULTs of a mode are here: the mode stands, Equalise repeats at a slower one, or the best of them is chosen (R116). -/
def State.modeChoice (s : State) : State :=
  match s.lnk.peerPass with
  | none => s
  | some p =>
    if s.link != 2 || !s.lnk.passSent then s else
    let mask := s.lnk.ownPass &&& p
    if !s.getB START_CTRL_MFGDONE then s.mfgChoice mask else
    let s := { s with lnk := { s.lnk with tried := s.lnk.tried ++ [(s.lnk.eqMode, mask)] } }
    let slower := (s.commonModes.filter (fun m => decide (s.lnk.eqMode < m))).head?
    let full := widestFor s.place (s.nOf mask) == fullWidth s.place
    match (if full then none else slower) with
    | some m => (({ s with lnk := { s.lnk with eqMode := m } }).hush).tuneAll
    | none =>
      match s.bestMode with
      | none => s.linkDown 5
      | some b =>
        if widestFor s.place (s.nOf b.2) = 0 then s.linkDown (if s.lnk.tried.all (fun t => t.2 == 0) then 5 else 2)
        else s.modeStands b.1 b.2

/-! ### READY and Up -/

/-- Widths that a READY may take: the used ones. -/
def State.readyMap (s : State) : Option (List Nat) :=
  let ids := (dataLanes s.place)
  let cur := if s.link = 6 then s.mapList else ids
  buildWidest s.place s.usableLanes cur s.usedWidths

/-- Send READY with the map that this end computes (R122); without one the link goes Down. -/
def State.sendReady (s : State) : State :=
  match s.readyMap with
  | none => s.linkDown 2 (s.link == 6 && s.inService)
  | some m =>
    let mode := if s.link = 6 then s.getF LINK_STATUS_MODE else s.lnk.eqMode
    let r : ReadyMsg := ⟨BitVec.ofNat 8 mode, BitVec.ofNat 8 m.length, BitVec.ofNat 24 s.excl, mapBytes m⟩
    if s.lnk.ownReady = some r then s
    else ({ s with lnk := { s.lnk with ownReady := some r } }).sayUntil 7 (readyBody mode m.length s.excl m)

/-- READY is due: the capability is agreed and CAP answered, or both results of a Retrain are here. -/
def State.readyDue (s : State) : Bool :=
  if s.link = 3 then !s.lnk.held18 && s.capByte 0x480 0 != 0 && !s.lnk.msgs.any (fun m => m.tcode == 5)
  else s.link == 6 && s.lnk.passSent && s.lnk.peerPass.isSome

/-- The READYs of both ends match: the start marker may be sent (R122). -/
def State.readyMatch (s : State) : Bool :=
  (s.link == 3 || s.link == 6) && !s.lnk.held18 && s.lnk.ownReady.isSome && s.lnk.ownReady == s.lnk.peerReady

/-- The exclusions of the peer's READY join this end's; a lane that they add in a Retrain goes to Probation at this end too (R277, R278;
log entry 124). -/
def State.joinExcl (s : State) (mask : Nat) : State :=
  let fresh := s.lanes.filter (fun l => s.link == 6 && bitOf mask l && !bitOf s.excl l && decide (s.getF (AGE_LANE_STAT_VERDICT l) < 2))
  fresh.foldl (fun s l => s.setVerdict l 2 6) (s.exclude mask)

/-- Send this end's READY again. -/
def State.againReady (s : State) : State :=
  match s.lnk.ownReady with
  | none => s
  | some o => s.say 7 (readyBody o.mode.toNat o.width.toNat o.excl.toNat (mapOf o.map))

/-- READY of the peer arrives: its exclusions join this end's; one that differs over the same exclusions is answered with ABORT (R122). One that
comes again once this end is answered is answered again, on SB in Up too (R112). -/
def State.onReady (s : State) (m : ReadyMsg) : State :=
  let twice := s.lnk.peerReady == some m && !s.lnk.msgs.any (fun t => t.tcode == 7)
  if !(s.link == 3 || s.link == 6) then (if s.linkRuns && !s.far && twice then s.againReady else s)
  else if twice && s.lnk.ownReady == some m then s.againReady else
  let s := s.answered (fun t => t.tcode == 4 || t.tcode == 5 || t.tcode == 8)
  let s := s.joinExcl m.excl.toNat
  let s := { s with lnk := { s.lnk with peerReady := some m } }
  if !s.readyDue then s else
  let s := s.sendReady
  match s.lnk.ownReady with
  | none => s
  | some o =>
    if o = m then s.answered (fun t => t.tcode == 7)
    else if m.excl.toNat = s.excl then s.linkDown 7
    else s

/-- READY goes out once it is due, and meets one of the peer that has come already. -/
def State.readyStep (s : State) : State :=
  if !s.readyDue then s else
  match s.lnk.peerReady with
  | none => s.sendReady
  | some m => s.onReady m

/-! ### Capability, R117–R119 -/

/-- The capability in use, formed of both records (R118). -/
def usedCap (own peer : List Byte) : List Byte :=
  let b (l : List Byte) (i : Nat) : Nat := (l.getD i 0).toNat
  let vendor (l : List Byte) : Nat := bytesAt l 2 2
  let noCoh := b own 6 == 2 || b peer 6 == 2 || vendor own != 0x4C21 || vendor peer != 0x4C21
  let chans := let c := b own 11 &&& b peer 11; if noCoh then putBit c 2 false else c
  beBytes 1 2 ++ beBytes 1 (min (b own 1) (b peer 1)) ++ (peer.drop 2).take 7 ++ beBytes 1 (b own 9 &&& b peer 9 &&& 7)
    ++ beBytes 1 (b own 10 &&& b peer 10 &&& 63) ++ beBytes 1 (chans &&& 127) ++ beBytes 1 (b own 12 &&& b peer 12 &&& 3)
    ++ beBytes 1 (b own 13 &&& b peer 13 &&& 15) ++ (peer.drop 14).take 2 ++ beBytes 2 (bytesAt peer 16 2 % 512) ++ (peer.drop 18).take 2
    ++ beBytes 1 (b peer 20 % 64) ++ beBytes 3 0

/-- A guest's record lacks something mandatory (R119). -/
def guestLacks (r : List Byte) : Bool :=
  let b (i : Nat) : Nat := (r.getD i 0).toNat
  b 7 != 16 || b 8 != 2 || !bitOf (b 9) 2 || b 10 &&& 0x3C != 0x3C || b 11 &&& 0x2B != 0x2B || !bitOf (b 13) 3
    || decide (bytesAt r 14 2 < 64 ∨ 32767 < bytesAt r 14 2)

/-- The twin test of R18 on a Far instance that has completed T6. -/
def State.twinTest (s : State) : State :=
  if !s.far || !s.getB ID_TWIN_PEERPOD_VALID then s else
  match s.lnk.partner with
  | some (pod, port, true) =>
    let mine := s.getF ID_TWIN_PEERPORT
    let twin := pod == s.getF ID_TWIN_PEERPOD && port / 2 == mine / 2 && port != mine
    if twin then s.setB ID_TWIN_TWINLESS false else (s.setB ID_TWIN_TWINLESS true).raise 0x0101
  | _ => s.setB ID_TWIN_TWINLESS true

/-- CAP of the peer arrives (R117, R118, R119, R18). The own pod number is tested before the version (DESIGN CHOICE, log entry 125), and
the version before a guest's mandatory items, of which it is one (DESIGN CHOICE, log entry 157). The capability in use is formed of the record that this end
sent. -/
def State.onCap (s : State) (rec : List Byte) : State :=
  if s.link != 3 then (if s.link = 4 then s.say 6 [] else s) else
  let s := (s.putRecord 0x480 rec).say 6 []
  let pod := bytesAt rec 16 2 % 512
  let s := if s.far then s.setFs [(ID_TWIN_PEERPOD, pod), (ID_TWIN_PEERPORT, (rec.getD 20 0).toNat % 64), (ID_TWIN_PEERPOD_VALID, 1)] else s
  if s.far && pod == s.pod_ then
    if s.lnk.held18 then s else ({ s with lnk := { s.lnk with held18 := true, negAt := s.now } }).raise 0x0102
  else
    let s := if s.lnk.held18 then { s with lnk := { s.lnk with held18 := false, negAt := s.now } } else s
    let own := (List.range 24).map (fun i => BitVec.ofNat 8 (s.capByte 0x440 i))
    let b (i : Nat) : Nat := (rec.getD i 0).toNat
    if b 0 != 2 || b 1 == 0 then s.linkDown 6
    else if s.guestEdge && guestLacks rec then s.linkDown 7
    else
      let s := s.putRecord 0x4C0 (usedCap own rec)
      let s := s.setB LINK_STATUS_PEERCASTLE (bitOf (s.used 13) 0)
      let init := if s.far then decide (s.pod_ < pod) else if s.guestEdge then true
        else match peerIndex s.place with | some p => decide (s.place < p) | none => true
      let s := s.setB LINK_STATUS_INITIATOR init
      if !bitOf (s.used 9) s.lnk.eqMode then s.linkDown 2 else s.readyStep

/-- Entry to Up (R122) as the end of T6 or of a Retrain. -/
def State.goUp (s : State) : State :=
  match s.lnk.ownReady with
  | none => s
  | some r =>
    let s := (s.enterUp r.mode.toNat (mapOf r.map)).retireOut
    let s := if s.stage = 6 then (s.stagePass 6 (if bitOf (s.getF START_STATUS_PATH) 2 then 1 else 0)).twinTest else s
    s.repairNext.epochNext 32

/-! ### The messages as commands -/

/-- DETECT of the peer comes in: an LME that is stopped in Hold acts on it once it runs again (R313). -/
def State.takeDetect (s : State) (m : DetectMsg) (seen : Nat) : State :=
  if !s.getB LME_STATUS_RUNNING && s.link == 7 then
    { s with lnk := { s.lnk with peerHeld := s.lnk.peerHeld ++ [⟨1, mask3 m.seen.toNat ++ [m.modes, m.kind], 0, s.now⟩] } }
  else s.onDetect m seen

/-- DETECT of the peer, with the lanes that this end's receivers see as it comes and those out of tolerance (R113). An empty site looks at none (R19). -/
def State.detectSeen (s : State) (m : DetectMsg) (seen off : Nat) : State :=
  let v := seen &&& maskOf s.lanes
  (if s.link = 1 && !s.getB LINK_STATUS_EMPTY then s.noteSeen v off else s).takeDetect m v

/-- DETECT_MESSAGE: the peer's DETECT, with the lanes seen and those out of tolerance (R113). -/
def execDetectMessage (m : DetectMsg) (seen off : BitVec 24) (s : State) : Host.Outcome State Fault Refusal :=
  done s (s.detectSeen m seen.toNat off.toNat)

/-- The peer asks for transmit values (R111, R114); a value that R43 forbids is answered with those in force. A repeat asks for what is in force, and
changes nothing (R112). -/
def State.onEqSet (s : State) (m : EqMsg) : State :=
  let l := m.lane.toNat
  if s.link != 2 || !s.lanes.contains l then s else
  let v := m.vals
  let ok := eqAllowed v.swing.toNat v.pre2.toNat v.pre1.toNat v.post1.toNat
  let new := eqOfWord (s.rd (LANE_TXEQ l)) != (v.swing.toNat, v.pre2.toNat, v.pre1.toNat, v.post1.toNat)
  let s := if ok && new then s.writeTx l (eqWord v.swing.toNat v.pre2.toNat v.pre1.toNat v.post1.toNat) else s
  let e := eqOfWord (s.rd (LANE_TXEQ l))
  s.say 3 (eqBody m.reqid.toNat l m.mode.toNat e.1 e.2.1 e.2.2.1 e.2.2.2)

/-- EQ_SET_MESSAGE (R114). -/
def execEqSetMessage (m : EqMsg) (s : State) : Host.Outcome State Fault Refusal := done s (s.onEqSet m)

/-- The peer has applied values (R111). -/
def State.onEqDone (s : State) (m : EqMsg) : State :=
  let p (t : TrainMsg) : Bool := t.tcode == 2 && t.body.take 2 == [m.reqid, m.lane]
  if !s.lnk.msgs.any p then s else
  (s.answered p).setAsked m.lane.toNat (eqWord m.vals.swing.toNat m.vals.pre2.toNat m.vals.pre1.toNat m.vals.post1.toNat)

/-- EQ_DONE_MESSAGE (R111). -/
def execEqDoneMessage (m : EqMsg) (s : State) : Host.Outcome State Fault Refusal := done s (s.onEqDone m)

/-- Both results of a Retrain's lane check are here: the lanes that failed at either end are out, and READY follows (R129). -/
def State.checkDone (s : State) : State :=
  match s.lnk.peerPass with
  | none => s
  | some p =>
    if s.link != 6 || !s.lnk.passSent then s
    else ({ s with lnk := { s.lnk with usable := s.lnk.usable &&& s.lnk.ownPass &&& p } }).readyStep

/-- EQ-RESULT of the peer arrives (R115, R129): it answers this end's, and a repeat is answered again. -/
def State.onResult (s : State) (mode pass : Nat) : State :=
  let before : State := match s.lnk.results.find? (fun p => p.1 == mode) with
    | some p => s.say 4 (beBytes 1 mode ++ mask3 p.2)
    | none => s
  if s.link = 2 && mode == s.lnk.eqMode then
    let s := s.answered (fun t => t.tcode == 4)
    if s.lnk.peerPass.isSome then (if s.lnk.passSent then s.say 4 (beBytes 1 mode ++ mask3 s.lnk.ownPass) else s)
    else ({ s with lnk := { s.lnk with peerPass := some pass } }).modeChoice
  else if s.link = 6 then
    let s := s.answered (fun t => t.tcode == 4 || t.tcode == 8)
    if s.lnk.peerPass.isSome then (if s.lnk.passSent then s.say 4 (beBytes 1 mode ++ mask3 s.lnk.ownPass) else s)
    else ({ s with lnk := { s.lnk with peerPass := some pass } }).checkDone
  else if s.link = 2 || s.link == 3 then before
  else s

/-- EQ_RESULT_MESSAGE (R115, R116, R129). -/
def execEqResultMessage (mode : Byte) (pass : BitVec 24) (s : State) : Host.Outcome State Fault Refusal := done s (s.onResult mode.toNat pass.toNat)

/-- CAP_MESSAGE (R117). -/
def execCapMessage (rec : BitVec 192) (s : State) : Host.Outcome State Fault Refusal := done s (s.onCap (beBytes 24 rec.toNat))

/-- This end's CAP is answered (R117). -/
def State.onCapGot (s : State) : State := if s.link != 3 then s else (s.answered (fun t => t.tcode == 5)).readyStep

/-- CAP_GOT_MESSAGE (R117). -/
def execCapGotMessage (s : State) : Host.Outcome State Fault Refusal := done s s.onCapGot

/-- READY_MESSAGE (R122). -/
def execReadyMessage (m : ReadyMsg) (s : State) : Host.Outcome State Fault Refusal := done s (s.onReady m)

/-- RETRAIN of the peer arrives (R128, R130, R266, R313). -/
def State.onRetrain (s : State) (cause : Nat) : State :=
  if s.link = 4 || s.link == 5 then s.retrainStart 8
  else if s.link = 6 then (if s.lnk.msgs.any (fun t => t.tcode == 8) then s.answered (fun t => t.tcode == 8) else s.say 8 (beBytes 1 s.lnk.cause))
  else if s.link = 7 then
    if !s.getB LME_STATUS_RUNNING then { s with lnk := { s.lnk with peerHeld := s.lnk.peerHeld ++ [⟨8, beBytes 1 cause, 0, s.now⟩] } }
    else s.holdResume
  else s

/-- RETRAIN_MESSAGE (R129). -/
def execRetrainMessage (cause : Byte) (s : State) : Host.Outcome State Fault Refusal := done s (s.onRetrain cause.toNat)

/-- ABORT arrives (R112). Reason 0x02 in Service is the loss of R280 step 4 at this end too. -/
def State.onAbort (s : State) (reason : Nat) : State := s.linkDown reason (reason == 2 && s.inService)

/-- ABORT_MESSAGE: the link goes Down with the reason it carries (R112). -/
def execAbortMessage (reason : Byte) (s : State) : Host.Outcome State Fault Refusal := done s (s.onAbort reason.toNat)

/-- Every message without an answer is sent again; DETECT as this end now sees the lanes (R112, R113). -/
def State.resend (s : State) : State :=
  let s := { s with lnk := { s.lnk with msgs := s.lnk.msgs.map (fun (m : TrainMsg) => if m.tcode = 1 then { m with body := s.detectBody } else m) } }
  let s := s.lnk.msgs.foldl (fun (s : State) (m : TrainMsg) => s.say m.tcode m.body) s
  { s with lnk := { s.lnk with msgs := s.lnk.msgs.map (fun (m : TrainMsg) => { m with sends := m.sends + 1, at_ := s.now }) } }

/-- What the receivers see at a repeat in Detect, and which other lanes are out of tolerance, no operand tells: free values (log entry 154). A lane
more or less begins the count of unchanged messages anew (R113). -/
def State.lookAgain (s : State) : State :=
  let v := s.freeNow.toNat &&& maskOf s.lanes
  let s := s.takeFree
  let off := s.freeNow.toNat &&& (maskOf s.lanes ^^^ v)
  let s := s.takeFree.noteSeen v off
  if v = s.lnk.seen then s else { s with lnk := { s.lnk with seen := v, stable := 0 } }

/-- TRAINING_REPEAT: messages without an answer are sent again every 16,384 ticks; after 64 sends the state fails (R112). DETECT is
limited by R113 only, and carries the lanes then seen. An empty site looks no more (R19). -/
def execTrainingRepeat (s : State) : Host.Outcome State Fault Refusal :=
  done s (
    if s.lnk.msgs.any (fun m => m.tcode != 1 && decide (64 ≤ m.sends)) then s.linkDown 9
    else (if s.link = 1 && !s.detected && !s.getB LINK_STATUS_EMPTY then s.lookAgain else s).resend)

/-- A site is empty (R19): the start stops at T4 without an event. -/
def State.siteEmpty (s : State) : State :=
  let s := (s.hush.setB LINK_STATUS_EMPTY true).setLanes s.lanes 1
  s.endStart 2 0

/-- DETECT_TIMEOUT: 2^25 ticks in Detect, with the lanes seen, those out of tolerance, and whether SB shows activity (R113, R19). -/
def execDetectTimeout (seen off : BitVec 24) (sb : Bool) (s : State) : Host.Outcome State Fault Refusal :=
  let v := seen.toNat &&& maskOf s.lanes
  done s (
    if s.link != 1 || s.detected || !s.starting then s else
    let s := s.advanceTo (s.lnk.since + 2 ^ 25)
    let s := s.noteSeen v off.toNat
    if v = 0 && (s.far || !sb) then s.siteEmpty
    else if v = 0 then s.linkDown (if off.toNat &&& maskOf s.lanes == maskOf s.lanes then 3 else 1)
    else if !s.lnk.exchanged then s.linkDown 9
    else s)

/-- The lanes whose polarity this end's receivers find inverted, as Equalise detects and corrects it (R34). -/
def State.setInverted (s : State) (inverted : Nat) : State := s.lanes.foldl (fun s l => s.setB (LANE_STATUS_POLINV l) (bitOf inverted l)) s

/-- EQ_QUALIFY_END: the training interval ends with the errored bytes of each lane, and the lanes found inverted (R115, R34). While `MFGDONE` is 0 the test of R305 stands in its place. -/
def execEqQualifyEnd (errs : List Nat) (inverted : BitVec 24) (s : State) : Host.Outcome State Fault Refusal :=
  done s (
    if s.link != 2 || s.lnk.passSent || !s.getB START_CTRL_MFGDONE then s else
    let s := s.prbsAll errs
    let s := s.setInverted inverted.toNat
    let fwd := maskOf s.forward
    (s.sendResult s.lnk.eqMode (s.passMask errs 134 &&& fwd)).modeChoice)

/-- EQUALISE_TIMEOUT: Equalise has not ended 2^27 ticks after it began at a mode, 2^30 while `MFGDONE` is 0 (R116, R305). -/
def execEqualiseTimeout (s : State) : Host.Outcome State Fault Refusal :=
  done s (
    if s.link != 2 then s else
    let s := s.advanceTo (s.lnk.since + (if s.getB START_CTRL_MFGDONE then 2 ^ 27 else 2 ^ 30))
    s.linkDown 4)

/-- NEGOTIATE_TIMEOUT: Negotiate has not ended 2^22 ticks after it began, or after its release (R122, R18). -/
def execNegotiateTimeout (s : State) : Host.Outcome State Fault Refusal :=
  done s (if s.link != 3 || s.lnk.held18 then s else (s.advanceTo (s.lnk.negAt + 2 ^ 22)).linkDown 9)

/-- MISCABLE_CAP_RESEND: a held link sends CAP again every 16,384 ticks (R18). -/
def execMiscableCapResend (s : State) : Host.Outcome State Fault Refusal :=
  done s (if s.link == 3 && s.lnk.held18 then (s.putRecord 0x440 s.ownCap).sayUntil 5 s.ownCap else s)

/-- MISCABLE_HOLD_EXPIRY: a link held for 2^28 ticks goes Down (R18). -/
def execMiscableHoldExpiry (s : State) : Host.Outcome State Fault Refusal :=
  done s (if s.link == 3 && s.lnk.held18 then (s.advanceTo (s.lnk.negAt + 2 ^ 28)).linkDown 8 else s)

/-- PAIR_PARTNER_UPDATE: the hub hands over what the pair partner has learned; an instance that has completed T6 makes the test, in whatever
state its link is but Down (R18). -/
def execPairPartnerUpdate (pod : BitVec 9) (port : BitVec 6) (passed : Bool) (s : State) : Host.Outcome State Fault Refusal :=
  done s (
    if !s.far then s else
    let s := { s with lnk := { s.lnk with partner := some (pod.toNat, port.toNat, passed) } }
    if decide (4 ≤ s.link ∧ s.link ≤ 7) then s.twinTest else s)

/-- The start marker is sent at the next tick that is a multiple of 64, and the instance enters Up (R122). -/
def State.sendMarker (s : State) : State := if s.readyMatch then ((s.advanceDie ((s.tick + 64) / 64 * 64)).emit (.marker (s.lnk.ownReady.elim [] (fun r => mapOf r.map)) markerBytes)).goUp else s

/-- START_MARKER_SEND (R122). -/
def execStartMarkerSend (s : State) : Host.Outcome State Fault Refusal := done s s.sendMarker

/-- START_MARKER_RECEIVE: the receiver deskews on the marker and counts groups from 0 (R122); an instance whose own marker is still
to be sent enters Up with it. It ends a rate-lower gap, after which G continues (R126). -/
def execStartMarkerReceive (s : State) : Host.Outcome State Fault Refusal := done s (s.sendMarker).rxGapEnds

/-- RETRAIN_LANE_CHECK_END: each lane has been checked over 2^20 bytes; one with more than one errored byte is excluded (R129, R277). -/
def execRetrainLaneCheckEnd (errs : List Nat) (s : State) : Host.Outcome State Fault Refusal :=
  done s (
    if s.link != 6 || s.lnk.passSent then s else
    let s := s.prbsAll errs
    let us := s.usableLanes
    let ok := s.passMask errs 1
    let bad := us.filter (fun l => !bitOf ok l)
    let s := bad.foldl (fun s l => (s.exclude (2 ^ l)).setVerdict l (max 2 (s.getF (AGE_LANE_STAT_VERDICT l))) 6) s
    (s.sendResult (s.getF LINK_STATUS_MODE) (ok &&& maskOf us)).checkDone)

/-- RETRAIN_TIMEOUT: a Retrain has not reached Up within its limit (R129). -/
def execRetrainTimeout (s : State) : Host.Outcome State Fault Refusal :=
  done s (if s.link = 6 then (s.advanceTo (s.lnk.retrainAt + s.retrainLimit)).retrainFails else s)

end Sys2Proof.Machine
end

