-- ==== Sys2Proof/Machine/Ageing.lean ====
section
/-! DEFINITION. The commands of ageing (chapter 11): epochs, samples and readings, sweep points, checkpoints, and the record queue's way to the
agent (R330). -/

namespace Sys2Proof.Machine

/-! ### Epochs and checkpoints, R272 and R287 -/

/-- EPOCH_DUE: the die counter reaches `AGE_NEXT`, which advances by the period; an epoch starts (R272). -/
def execEpochDue (s : State) : Host.Outcome State Fault Refusal :=
  done s (
    let t := s.getW AGE_NEXT
    if !s.clockRuns || (t = 0 && !s.inService) then s else
    let s := s.advanceDie t
    if s.tick < t then s
    else (s.putW AGE_NEXT (t + max 1 (s.getF AGE_PERIOD_EPOCH) * 2 ^ 32)).epochStart true)

/-- `EPOCHNOW`: an epoch starts at once, and `AGE_NEXT` does not move (R272). -/
def State.epochNow (s : State) : State := s.epochStart false

/-- AGE_CTRL_EPOCHNOW (R272). -/
def execAgeCtrlEpochnow (s : State) : Host.Outcome State Fault Refusal := done s (s.regCmd AGE_CTRL (s.rd AGE_CTRL ||| 2 ^ 4) State.epochNow)

/-- `CKPTNOW`: a checkpoint is queued at once, with number 0xFFFF_FFFF (R287). -/
def State.ckptNow (s : State) : State := s.checkpoint 0xFFFFFFFF

/-- AGE_CTRL_CKPTNOW (R287). -/
def execAgeCtrlCkptnow (s : State) : Host.Outcome State Fault Refusal := done s (s.regCmd AGE_CTRL (s.rd AGE_CTRL ||| 2 ^ 5) State.ckptNow)

/-- CHECKPOINT_DUE: the die counter reaches the next multiple of the checkpoint period (R287). -/
def execCheckpointDue (s : State) : Host.Outcome State Fault Refusal :=
  done s (if !s.clockRuns then s else
    let p := max 1 (s.getF AGE_PERIOD_CKPT) * 2 ^ 32
    let n := s.tick / p + 1
    (s.advanceDie (n * p)).checkpoint n)

/-! ### Samples and readings, R45, R271, R275 -/

/-- The bin of a sample of `corr` corrected symbols among `carried`: n for a ratio in [2^−(n+1), 2^−n), 31 for smaller ones (R288). A ratio of 1
or more counts in bin 0. -/
def csrBin (corr carried : Nat) : Nat := ((List.range 31).find? (fun n => decide (carried ≤ corr * 2 ^ (n + 1)))).getD 31

/-- The corrected symbols of a lane since its last sample; the next sample counts from here. -/
def State.takeCorr (s : State) (l : Nat) : Nat × State :=
  let now := s.getW (LANE_FECCORR l)
  let base := (s.age.csrBase.get (2 * l)).toNat + 2 ^ 32 * (s.age.csrBase.get (2 * l + 1)).toNat
  (now - base, { s with age := { s.age with csrBase := s.age.csrBase.setAll [(2 * l, BitVec.ofNat 32 now), (2 * l + 1, BitVec.ofNat 32 (now / 2 ^ 32))] } })

/-- The verdict on a sample (R275, R277): a hard one retires the lane at once, `CSRRUN` failing ones in a row retire it, and Watch follows each. -/
def State.judgeSample (s : State) (l corr carried : Nat) : State :=
  let fails := decide (carried < corr * 2 ^ s.getF AGE_FLOOR_CSRLOG)
  let hard := decide (carried < corr * 2 ^ s.getF AGE_FLOOR_CSRHARD)
  let s := if fails then (s.count CNT_CSR_FAIL).bump (AGE_LANE_STAT_RUN l) else s.setF (AGE_LANE_STAT_RUN l) 0
  if 2 ≤ s.getF (AGE_LANE_STAT_VERDICT l) then s
  else if hard then s.retireLane l 2
  else if fails && decide (max 1 (s.getF AGE_FLOOR_CSRRUN) ≤ s.getF (AGE_LANE_STAT_RUN l)) then s.retireLane l 1
  else s.watchLane l fails

/-- CSR_SAMPLE: a sample of 2^28 ticks of an Active lane ends, in which it carried `carried` bytes while Active (R271, R275). -/
def execCsrSample (lane : Fin 18) (carried : Nat) (s : State) : Host.Outcome State Fault Refusal :=
  let l := lane.val
  done s (if s.laneState l != 3 || !s.lanes.contains l then s else
    let r := s.takeCorr l
    let s := (r.2.setF (AGE_LANE_CSR_CORR l) (min (2 ^ 32 - 1) r.1)).bin (histCsr l + csrBin r.1 carried)
    s.judgeSample l r.1 carried)

/-- SNR_REFRESH: the estimate of an Active lane is refreshed (R45). -/
def execSnrRefresh (lane : Fin 18) (snr : BitVec 16) (s : State) : Host.Outcome State Fault Refusal :=
  done s (if s.laneState lane != 3 || !s.lanes.contains lane.val then s
    else (s.setF (LANE_SNR_SNR lane) snr.toNat).setB (LANE_SNR_VALID lane) true)

/-- The bin of a reading in 0.25 °C: [4n − 20, 4n − 16) °C (R288). -/
def tempBin (t : Int) : Nat := (max 0 (min 31 ((t + 80) / 16))).toNat

/-- TEMPERATURE_READING: the sensor is read every 2^20 ticks, and every 4,096th reading enters the histogram (R271, R288). The highest reading is
that of the readings made. -/
def execTemperatureReading (t : BitVec 16) (s : State) : Host.Outcome State Fault Refusal :=
  done s (
    let top := s.getF AGE_TEMP_MAXTEMP
    let up := s.age.temps = 0 || decide (signed 16 top < t.toInt)
    let s := s.setFs [(AGE_TEMP_TEMP, t.toNat), (AGE_TEMP_MAXTEMP, if up then t.toNat else top)]
    let n := s.age.temps + 1
    let s := { s with age := { s.age with temps := n } }
    if n % 4096 = 0 then s.bin (histTemp + tempBin t.toInt) else s)

/-! ### Sweep points, R46 and R47 -/

/-- A point may start on a lane: in Measure, or Active inside a QUI window with 1,024 ticks left (R46). -/
def State.pointMay (s : State) (l : Nat) : Bool :=
  s.laneState l == 4 || (s.laneState l == 3 && (match s.quiLeft s.tick with | some n => decide (1024 ≤ n) | none => false))

/-- SWEEP_POINT_START (R46). An epoch with no lane in hand takes its next one first. -/
def execSweepPointStart (lane : Fin 18) (s : State) : Host.Outcome State Fault Refusal :=
  done s (
    let s := s.epochNext 32
    match s.age.sweep with
    | none => s
    | some w =>
      if w.lane != lane.val || w.busy || !s.pointMay w.lane || (s.age.order.contains w.lane && !s.epochMay) then s
      else { s.setB (LANE_STATUS_SWEEP w.lane) true with age := { s.age with sweep := some { w with busy := true, at_ := s.now } } })

/-- The swing of the peer's transmitter on an Active lane that was measured in QUI windows: requested by LANE-EQ SET, and written there under R44
(R274 step 2). -/
def State.quiTrim (s : State) (l : Nat) : State :=
  let h := s.getF (LANE_EYE_HEIGHT l)
  let eyemin := s.getF AGE_FLOOR_EYEMIN
  let w := s.askedOf l
  let e := eqOfWord w
  let t := s.tuneOf l
  if !s.getB AGE_CTRL_TRIM || t.trimmed then s
  else if 3 * eyemin < h && 0 < e.1 then
    let s := s.setTune { t with trimmed := true }
    let down := eqWord (e.1 - 1) e.2.1 e.2.2.1 e.2.2.2
    (s.setSearch l (some ⟨l, false, [], down, w, s.getF (LANE_SNR_SNR l), true, true, w⟩)).askVals l down
  else if h < 2 * eyemin && e.1 < 15 then
    let s := s.setTune { t with trimmed := true }
    ({ s with age := { s.age with nSwing := s.age.nSwing + 1 } }).askVals l (eqWord (e.1 + 1) e.2.1 e.2.2.1 e.2.2.2)
  else s

/-- The last point of a sweep has ended: `LANE_EYE` is updated, the height enters the history and is tested (R46, R276, R288), a SWEEP command ends
(R328), and what the sweep was for goes on: the manufacturing test (R305), the re-plan of a lane in Measure (R274), or the epoch (R273). -/
def State.sweepDone (s : State) (w : Sweep) (e : Eye) : State :=
  let l := w.lane
  let h := e.height.toNat
  let s := { s with age := { s.age with sweep := none } }
  let s := s.setFs [(LANE_EYE_VALID l, 1), (LANE_EYE_WHICH l, if s.laneMode = 2 then 0 else e.which.toNat), (LANE_EYE_WIDTH l, e.width.toNat), (LANE_EYE_HEIGHT l, h)]
  let s := (s.bin (histEye l + min 31 (h / 16))).addHeight l h
  if s.strt.eyes.isSome then
    (if h < 2 * s.getF AGE_FLOOR_EYEMIN then s.mfgFails (2 ^ l) else (s.setLane l 2).mfgEye)
  else
    let hand := (match s.lnk.repair with | none => false | some r => (r.phase == 2 && r.s == l) || (r.phase == 1 && r.x == l))
    let castled := s.getB LINK_STATUS_CASTLING
    let s := (s.eyeFloors l h).runEnds 0x15 0 (beBytes 2 h ++ beBytes 1 e.width.toNat ++ beBytes 1 0)
    if w.quiMeasured then ((s.quiTrim l).countLane l false true).epochNext 32
    else if s.getF (AGE_LANE_STAT_VERDICT l) = 3 && hand then s.countLane l castled false
    else if s.lnk.repair.isNone then s
    else if s.getF (AGE_LANE_STAT_VERDICT l) = 3 then s.tellLane l 4
    else if s.laneState l = 4 then s.replan l
    else s

/-- SWEEP_POINT_END: a point ends 1,024 ticks after it began. A value that waited for it takes effect and the sweep restarts (R47); otherwise the next
point follows, or the sweep is complete with the result `e` (R46). -/
def execSweepPointEnd (e : Eye) (s : State) : Host.Outcome State Fault Refusal :=
  done s (match s.age.sweep with
    | none => s
    | some w =>
      if !w.busy then s else
      let s := (s.advanceTo (w.at_ + 1024)).setB (LANE_STATUS_SWEEP w.lane) false
      if s.eqPending w.lane then (s.applyPending w.lane).sweepRestart w.lane
      else if w.pt + 1 < s.sweepPoints then { s with age := { s.age with sweep := some { w with pt := w.pt + 1, busy := false } } }
      else s.sweepDone w e)

/-- EQ_PENDING_APPLY: a value that waits on an Active lane takes effect at a group boundary inside a QUI window, but not while a sweep point runs
on the lane (R44, R47, R341). -/
def execEqPendingApply (lane : Fin 18) (s : State) : Host.Outcome State Fault Refusal :=
  let l := lane.val
  done s (if !s.eqPending l || s.sweepBusy l || (s.laneState l == 3 && ((s.quiLeft s.tick).isNone || s.lnk.fTx != 0)) then s
    else (s.applyPending l).sweepRestart l)

/-! ### LEDGER-PUT, R330 -/

/-- A record is sent to the agent as one LEDGER-PUT, by the instance's core side (R320, R330); its `TAG` is the record's `ISEQ`. -/
def State.putRecordOut (s : State) (r : Rec) : State :=
  let s := (wvPackets 0x60 0 0xFE s.place r.iseq 0 (r.bytes s.place)).foldl (fun s p => s.sendPacket .core false p) s
  { s with age := { s.age with recs := s.age.recs.map (fun q => if q = r then { q with sentAt := some s.now, refusedAt := none } else q) } }

/-- LEDGER_PUT_SEND: the oldest record not yet sent leaves, while the link is Up (R330). -/
def execLedgerPutSend (s : State) : Host.Outcome State Fault Refusal :=
  done s (if s.link != 4 then s else
    match s.age.recs.find? (fun r => r.sentAt.isNone) with
    | none => s
    | some r => s.putRecordOut r)

/-- The agent has answered a LEDGER-PUT: `OK` frees the record, any other status leaves it to be sent again (R330). -/
def State.onPutReply (s : State) (tag status : Nat) : State :=
  let mine (r : Rec) : Bool := r.iseq == tag && r.sentAt.isSome
  if status = 0 then { s with age := { s.age with recs := s.age.recs.filter (fun r => !mine r) } }
  else { s with age := { s.age with recs := s.age.recs.map (fun r => if mine r then { r with refusedAt := some s.now } else r) } }

/-- LEDGER_PUT_REPLY (R330). -/
def execLedgerPutReply (tag : BitVec 16) (status : Byte) (s : State) : Host.Outcome State Fault Refusal := done s (s.onPutReply tag.toNat status.toNat)

/-- The record that was refused first, the oldest among those refused in one tick: it is due to be sent again first (R330). -/
def State.firstRefused (s : State) : Option Rec :=
  s.age.recs.foldl (fun a r =>
    match r.refusedAt, a.bind Rec.refusedAt with
    | none, _ => a
    | some _, none => some r
    | some t, some u => if t < u then some r else a) none

/-- LEDGER_PUT_RESEND: 2^24 ticks after its refusal a refused record is sent again, while the link is Up (R330). -/
def execLedgerPutResend (s : State) : Host.Outcome State Fault Refusal :=
  done s (if s.link != 4 then s else
    match s.firstRefused with
    | none => s
    | some r => (s.advanceTo (r.refusedAt.getD 0 + 2 ^ 24)).putRecordOut r)

end Sys2Proof.Machine
end

