-- ==== Sys2Proof/Machine/Rounds.lean ====
section
/-! DEFINITION. Round boundaries and what falls on them (R146, R158, R160, R229, R234, R356), the activation and halt of a schedule (R165),
the Deck (R156, R157), the adjustment of the die counter (R144), the QUI run (R357) and the exchange of R142. -/

namespace Sys2Proof.Machine

/-! ### The actions of a boundary -/

/-- A `LEN` that may govern Rounds (R146). -/
def lenValid (n : Nat) : Bool := n % 64 == 0 && decide (4096 ≤ n ∧ n ≤ 2 ^ 24)

/-- A written `LEN` takes force at a boundary when it is within its bounds (R146). -/
def State.applyLen (s : State) : State :=
  let n := s.getF TURN_LEN_LEN
  if lenValid n then { s with tim := { s.tim with len := n } } else s

/-- The Stretch that a set of taken requests gives over the one in force (R160). -/
def stretchOf (k : Nat) (l : List StretchReq) : Nat :=
  let lows := l.filter (·.lower)
  let e := (lows.map (·.e)).foldl max 0
  let base := if lows.isEmpty then k else ((lows.filter (fun r => r.e == e)).map (·.k)).foldl max 0
  ((l.filter (fun (r : StretchReq) => !r.lower && (lows.isEmpty || decide (e < r.e)))).map (·.k)).foldl max base

/-- Held Stretch requests due at Round `n` set the Stretch in force (R158, R160). -/
def State.applyStretch (s : State) (n : Nat) : State :=
  let due := s.tim.reqs.filter (fun r => decide (r.e ≤ n))
  let k := stretchOf s.k due
  let s' := { s with tim := { s.tim with reqs := s.tim.reqs.filter (fun r => decide (n < r.e)) } }
  if k = s.k then s' else
  { (s'.setF TURN_STRETCH_K k).count CNT_STRETCH with tim := { s'.tim with e0 := none } }

/-- The VI resets and destroys due at Round `n` are applied; each one taken late raises VI_RESET_LATE (R234, R356). -/
def State.takeResets (s : State) (n : Nat) (late : Bool) : State :=
  let c := s.viResetsDue n
  let s := s.viResets n
  if late then (List.range c).foldl (fun s _ => s.raise 0x0404) s else s

/-- The actions of Round `n`: Stretch, shares, VI resets and destroys. Each is held until it is taken and then no longer, so that none is taken twice
where a Round begins again after a step back (R356). -/
def State.roundActions (s : State) (n : Nat) (late : Bool) : State :=
  let s := ((s.applyStretch n).shares).takeResets n late
  { s with tim := { s.tim with taken := max s.tim.taken (n + 1) } }

/-- Round `n` begins at a tick. -/
def State.beginRound (s : State) (n b : Nat) : State :=
  { s with tim := { s.tim with round := n, starts := ((n, b, s.k) :: s.tim.starts).take 512, atReset := false } }

/-- The VIs whose reset or destroy is pending. -/
def State.visPending (s : State) : List Nat := (List.range 256).filter (fun v => decide (2 ≤ s.getF (VI_ENT_STATE v)))

/-- Program `c` of the schedule lies in a Deck page (R155). -/
def State.progDeck (s : State) (c : Nat) : Bool := s.getF TURN_DECK_NDECK != 0 && s.getB (TURN_DIR_TX_DECK c)

/-- The image page of program `c`. -/
def State.progPage (s : State) (c : Nat) : Nat := s.getF (TURN_DIR_TX_START c) / pageEntries s.place

/-- The Deck frame not in use: the other one than that which went live last (R155). -/
def State.spareFrame (s : State) : Nat := match s.trn.deckIn with | (14, _) :: _ => 15 | _ => 14

/-- A Deck miss at a boundary: `RUN` clears, and FAIL is raised (R157). -/
def State.deckMiss (s : State) : State :=
  let s := (s.clearRun.count CNT_DECK_MISS).raise 0x0306
  { s with trn := { s.trn with deckMiss := false, deckReady := false, deckFetch := none } }

/-- What the Deck does at b(n): the fetched frame goes live, or a miss stops the schedule (R156, R157). A fetch that is not used ends. -/
def State.deckBoundary (s : State) (n : Nat) : State :=
  if !s.run || !s.progDeck (s.progOf n) then { s with trn := { s.trn with deckFetch := none, deckReady := false, deckMiss := false } }
  else if s.trn.deckReady && !s.trn.deckMiss && s.trn.deckFetch.map (·.1) == some (s.progPage (s.progOf n)) then
    let f := s.spareFrame
    { s with trn := { s.trn with deckReady := false, deckFetch := none
                                 deckIn := (f, s.progPage (s.progOf n)) :: s.trn.deckIn.filter (fun p => p.1 != f) } }
  else s.deckMiss

/-- `RUN` is set at b(n): positions are bound from the first of Round n on (R165). It ends the void of an entry to Down once the link is no longer
there (R358). -/
def State.setRun (s : State) (n : Nat) : State :=
  let s := s.setB TURN_CTRL_RUN true
  let s := if s.link != 8 && s.trn.voidEnd == 2 ^ 64 then { s with trn := { s.trn with void := false, voidEnd := 0 } } else s
  { s with trn := { s.trn with first := n, rxRound := n, rxIdx := 0, txRound := n, txIdx := 0, judged := 0, armed := none, halt := false } }

/-- Activation and halt at b(n) (R165). -/
def State.schedule (s : State) (n : Nat) : State :=
  let s := if s.trn.halt && s.run then s.clearRun else { s with trn := { s.trn with halt := false } }
  match s.trn.armed with
  | some a => if a ≤ n && !s.run then ({ s with trn := { s.trn with s := a } }).setRun n else s
  | none => s

/-- The die counter repeats or skips one tick at a boundary (R144). -/
def State.adjustNow (s : State) : State :=
  let a := s.tim.adjust
  if a = 0 then s else
  let s := if 0 < a then { s.elapse 1 with die := s.die } else { s with die := s.die + 1 }
  { s.count CNT_TIME_ADJ with tim := { s.tim with adjust := 0, e0 := none, early := 0, lateB := 0, outTol := 0 } }

/-- What waits for a QUI run takes place (R357). -/
def State.runWaiting (s : State) : State :=
  let w := s.lnk.wait
  let s := { s with lnk := { s.lnk with wait := [] } }
  w.foldl (fun s d => match d with
    | .retrain c => s.retrainNow c
    | .narrow => s.repairNext
    | .down => s.linkDown 2 true) s

/-- Round `n` begins at tick `b`, with everything that falls on its boundary. -/
def State.boundary (s : State) (n b : Nat) : State :=
  let s := (s.applyLen.roundActions n false).beginRound n b
  let s := (s.schedule n).deckBoundary n
  let s := { s with tim := { s.tim with beatDue := true } }
  let s := s.settleVoid
  let s := if s.hasQui 1 then s else s.runWaiting
  s.adjustNow

/-- The die counter reaches the next boundary (R146). While the die's counter stands still none comes. -/
def State.roundDue (s : State) : State :=
  if !s.isl.clkOn || s.isl.inReset then s else
  let b := s.b + s.lenNow
  (s.advanceDie b).boundary (s.tim.round + 1) b

/-- QUI_RUN_START: a QUI run begins, and what waits for it takes place; while no schedule runs nothing is left waiting (R357). -/
def execQuiRunStart (s : State) : Host.Outcome State Fault Refusal :=
  done s (
    if !s.run then s.runWaiting
    else match s.quiRuns.find? (fun p => decide (s.tick < p.2)) with
      | none => s
      | some p => (s.advanceDie p.1).runWaiting)

/-! ### Rounds after a step of the counter, R356 and R268 -/

/-- The Round that the counter stands in, when every Round from `n` at `b` on has the length now in force; requests for Rounds up to
there are taken on the way, so that later Rounds have the length they give. -/
def State.walkRounds (s : State) : Nat → Nat → Nat → State
  | 0, n, b => s.beginRound n b
  | fuel + 1, n, b =>
    let l := max 1 s.lenNow
    let m := n + (s.tick - b) / l
    match (s.tim.reqs.map (·.e)).filter (fun e => decide (n < e ∧ e ≤ m)) with
    | [] => s.beginRound m (b + (m - n) * l)
    | e :: r =>
      let x := r.foldl min e
      (s.applyStretch x).walkRounds fuel x (b + (x - n) * l)

/-- The Rounds in (n, m] at which a VI reset or destroy is due, ascending. -/
def State.resetRounds (s : State) (n m : Nat) : List Nat :=
  ((List.range (min 256 (m - n))).map (fun i => n + 1 + i)).filter (fun r => s.viResetsDue r != 0)

/-- `TIME_ROUND` is recomputed from a counter that was stepped (R356): a step forward takes the actions of the boundaries it passes, a
step back repeats none. -/
def State.recount (s : State) : State :=
  let n := s.tim.round
  let b := s.b
  if b ≤ s.tick then
    if s.tick < b + s.lenNow then s else
    -- the next boundary first, where a written LEN takes force
    let c := b + s.lenNow
    let s := (s.applyLen.applyStretch (n + 1)).beginRound (n + 1) c
    let s := s.walkRounds 9 (n + 1) c
    let m := s.tim.round
    let s := (s.shares.resetRounds n m).foldl (fun s r => s.takeResets r true) s.shares
    { s with tim := { s.tim with taken := max s.tim.taken (m + 1), beatDue := false } }
  else
    let s := { s with tim := { s.tim with later := s.visPending, atReset := false } }
    match s.tim.starts.find? (fun p => decide (p.2.1 ≤ s.tick)) with
    | some p => { s with tim := { s.tim with round := p.1, starts := s.tim.starts.filter (fun q => decide (q.1 ≤ p.1)), beatDue := false } }
    | none =>
      let l := max 1 s.lenNow
      let m := s.tick / l
      { s with tim := { s.tim with round := m, starts := [(m, m * l, s.k)], beatDue := false } }

/-- The counter was cleared or the Round record lost: Rounds are counted anew from the counter, the `LEN` and the Stretch in force
(R268; log entry 31). -/
def State.rebuildRounds (s : State) : State :=
  let l := max 1 s.lenNow
  let m := s.tick / l
  { s with tim := { s.tim with round := m, starts := [(m, m * l, s.k)], taken := m + 1, beatDue := false, e0 := none } }

/-- The die counter is stepped (R142, R356); `SYNCED` is set, and T8 passes (R296). -/
def State.stepDie (s : State) (d : BitVec 64) : State :=
  let s := { s with die := s.die + d }
  ((s.recount).setB TIME_STATUS_SYNCED true).stagePass 8 (if s.getB START_STATUS_UNSYNCED then 1 else 0)

/-! ### TIME-SYNC, R141 and R142 -/

/-- The body of TIME-SYNC; the sending time is filled in when the flit leaves (log entry 32). -/
def syncBody (reply : Bool) (id : Nat) (synced : Bool) (trecv : Nat) : List Byte :=
  beBytes 1 0x25 ++ beBytes 1 (if reply then 1 else 0) ++ beBytes 1 id ++ beBytes 1 (if synced then 1 else 0) ++ beBytes 4 0
    ++ beBytes 16 0 ++ beBytes 8 (trecv / 16) ++ beBytes 1 (trecv % 16) ++ beBytes 7 0

/-- The exchange of R142 is still to be made. -/
def State.syncOpen (s : State) : Bool :=
  (s.link == 4 || s.link == 5) && s.getB DLV_STATUS_INITDONE && decide (8 ≤ s.stage) && decide (s.tim.answered < 16)

/-- TIME_SYNC_REQUEST_SEND: the next request of the exchange is queued (R142). -/
def execTimeSyncRequestSend (s : State) : Host.Outcome State Fault Refusal :=
  done s (if !s.syncOpen then s else
    let s := { s with tim := { s.tim with syncId := (s.tim.syncId + 1) % 256 } }
    s.queueLc (syncBody false s.tim.syncId (s.getB TIME_STATUS_SYNCED) 0))

/-- A request of the peer is answered (R141). -/
def State.onSyncReq (s : State) (m : SyncMsg) : State :=
  if s.link = 4 || s.link == 5 then s.queueLc (syncBody true m.id.toNat (s.getB TIME_STATUS_SYNCED) m.arrived) else s

/-- TIME_SYNC_REQUEST_RECEIVE (R141). -/
def execTimeSyncRequestReceive (m : SyncMsg) (s : State) : Host.Outcome State Fault Refusal := done s (s.hear.onSyncReq m)

/-- Rounded to the nearest whole number, halves away from zero (R142). -/
def roundHalf (n : Int) (d : Nat) : Int := if 0 ≤ n then (2 * n + d) / (2 * d) else -((-2 * n + d) / (2 * d))

/-- A reply yields a round trip; `OWD` is that of the smallest. On the parent link sixteen synced replies step the counter by −θ of the
smallest of them (R142). Where (rt + a) is odd, its half is rounded up or down by a free value (log entry 33). -/
def State.onSyncReply (s : State) (m : SyncMsg) : State :=
  match s.tim.sync.find? (fun p => p.1 == m.id.toNat) with
  | none => s
  | some (_, t1) =>
    let s := { s with tim := { s.tim with sync := s.tim.sync.filter (fun p => p.1 != m.id.toNat) } }
    let t2 : Int := m.trecv
    let t3 : Int := m.tsend
    let t4 : Int := m.arrived
    let a := signed 16 (s.getF TIME_ASYM_ASYM)
    let rt := (t4 - t1) - (t3 - t2)
    let better (o : Option Int) : Bool := match o with | none => true | some b => decide (rt < b)
    let s := if better s.tim.owdRt then
        let h := (rt + a) / 2 + (if (rt + a) % 2 = 0 then 0 else (s.freeNow.toNat % 2 : Nat))
        let s := if (rt + a) % 2 = 0 then s else s.takeFree
        { s.setF TIME_OWD_OWD (unsigned 24 h) with tim := { s.tim with owdRt := some rt } }
      else s
    if s.isParent && !m.synced then s else
    let theta2 := (t4 - t3) - (t2 - t1) - a
    let s := if better s.tim.bestRt then { s with tim := { s.tim with bestRt := some rt, bestTheta := theta2 } } else s
    let s := { s with tim := { s.tim with answered := s.tim.answered + 1 } }
    if s.tim.answered = 16 && s.isParent && !s.getB TIME_CTRL_MASTER && !s.getB TIME_STATUS_SYNCED then
      s.stepDie (BitVec.ofInt 64 (-(roundHalf s.tim.bestTheta 32)))
    else s

/-- TIME_SYNC_REPLY_RECEIVE (R142, R356). -/
def execTimeSyncReplyReceive (m : SyncMsg) (s : State) : Host.Outcome State Fault Refusal := done s (s.hear.onSyncReply m)

/-! ### The Deck, R156 and R157 -/

/-- Lines of a Deck page. -/
def deckLines (place : Nat) : Nat := pageEntries place / 32

/-- The Deck program that the next Round runs, by the schedule in force or by one armed for it (R156, R165). -/
def State.deckNext (s : State) : Option Nat :=
  let n := s.tim.round + 1
  let start := if s.run then some s.trn.s else s.trn.armed.bind (fun a => if a ≤ n then some a else none)
  start.bind (fun a =>
    let c := (n - a) % (s.getF TURN_LEN_CYCLE + 1)
    if s.progDeck c then some c else none)

/-- What was fetched of another page is of no more use. -/
def State.deckFor (s : State) (page : Nat) : State :=
  match s.trn.deckFetch with
  | some (p, _, _) => if p = page then s else { s with trn := { s.trn with deckFetch := none, deckReady := false, deckMiss := false } }
  | none => s

/-- DECK_FETCH_ISSUE: from b(N) + 64 on, the lines of the page that Round N + 1 needs are read, as far as tags are free (R156). -/
def execDeckFetchIssue (s : State) : Host.Outcome State Fault Refusal :=
  done s (
    match s.deckNext with
    | none => s
    | some c =>
    let page := s.progPage c
    let s := s.deckFor page
    if s.trn.deckReady || s.trn.deckMiss then s else
    let s := s.advanceDie (s.b + 64)
    let next := match s.trn.deckFetch with | some (_, _, n) => n | none => 0
    let at_ := match s.trn.deckFetch with | some (_, t, _) => t | none => s.now
    let s := if s.trn.deckFetch.isNone then s.count CNT_DECK_FETCH else s
    let bytes := 4 * pageEntries s.place
    let base := s.getW TURN_DECK_BASE + bytes * (page - 14)
    let one (i : Nat) (t : State) : Option State := t.issue 15 0 64 i (s.getF MOV_SYS_VI) (base + 128 * i) (msgRead (base + 128 * i))
    let r := issueList s (((List.range (deckLines s.place)).drop next).map one)
    { r.1 with trn := { r.1.trn with deckFetch := some (page, at_, next + r.2) } })

/-- The bytes of a page's words. -/
def pageBytes (l : List Word) : List Byte := l.flatMap (fun w => beBytes 4 w.toNat)

/-- A Deck page has come: it is checked against the CRC-32 recorded at the fit check and held in the Deck frame not in use (R156, R157). -/
def State.deckCame (s : State) (page : List Word) (ok : Bool) : State :=
  match s.trn.deckFetch with
  | none => { s with mov := { s.mov with tags := s.mov.tags.filter (fun t => t.kind != 15) } }
  | some (p, at_, n) =>
    if n < deckLines s.place || s.trn.deckReady then s else
    let tags := s.mov.tags.filter (fun t => t.kind != 15)
    let s := { s with mov := { s.mov with tags := tags } }
    let s := s.setF TURN_DECK_LASTFETCH (min 0xFFFF (s.now - at_))
    let good := ok && page.length == pageEntries s.place && (s.trn.crcs[p - 14]?).map (·.toNat) == some (crc32 (pageBytes page))
    if !good then { s with trn := { s.trn with deckMiss := true } } else
    let f := s.spareFrame
    let words := (List.range page.length).map (fun i => (8192 * f + i, page.getD i 0))
    let fr := (s.trn.frames.clear (fun a => a / 8192 == f)).setAll words
    { s with trn := { s.trn with frames := fr, deckIn := s.trn.deckIn.filter (fun q => q.1 != f), deckReady := true } }

/-- DECK_FETCH_COMPLETE: the page has come, `ok` with every line's status `OK`, from the on-die network through crossing 2 unless its lines were asked
for over the own link (R156, R253). -/
def execDeckFetchComplete (page : List Word) (ok : Bool) (s : State) : Host.Outcome State Fault Refusal :=
  done s (s.through (if s.mov.tags.any (fun t => t.kind == 15 && t.link) then [] else [2]) (.deckFetchComplete page ok) (State.deckCame · page ok))

/-- DECK_FETCH_DEADLINE: 1,024 ticks before the boundary a fetch that is not complete is a miss (R157). -/
def execDeckFetchDeadline (s : State) : Host.Outcome State Fault Refusal :=
  done s (if s.deckNext.isNone then s else
    let s := s.advanceDie (s.b + s.lenNow - 1024)
    if s.trn.deckReady then s else { s with trn := { s.trn with deckMiss := true } })

/-! ### STRETCH and GEN-NOTICE, R161 and R233 -/

/-- The body of STRETCH (R161). -/
def stretchBody (got lower : Bool) (k seq origin e : Nat) : List Byte :=
  beBytes 1 0x26 ++ beBytes 1 ((if lower then 1 else 0) + (if got then 2 else 0)) ++ beBytes 1 k ++ beBytes 1 seq ++ beBytes 2 origin ++ beBytes 2 0
    ++ beBytes 8 e

/-- The body of GEN-NOTICE (R233). -/
def genBody (got : Bool) (origin vi gen nseq : Nat) : List Byte :=
  beBytes 1 0x27 ++ beBytes 1 (if got then 2 else 0) ++ beBytes 2 origin ++ beBytes 1 vi ++ beBytes 1 0 ++ beBytes 2 gen ++ beBytes 1 nseq ++ beBytes 15 0

/-- The answer of a forwarded message is here: it is no longer repeated. The result tells whether one was waiting. -/
def State.fwdDone (s : State) (b : List Byte) : Option Fwd × State :=
  let same (f : Fwd) : Bool := f.body.head? == b.head? && f.body.drop 2 == b.drop 2
  (s.tim.fwds.find? same, { s with tim := { s.tim with fwds := s.tim.fwds.filter (fun f => !same f) } })

/-- The pairs of origin and number that have come, newest first: the last 256 are remembered (R161, R233; DESIGN CHOICE, log entry 133). -/
def remember (p : Nat × Nat) (l : List (Nat × Nat)) : List (Nat × Nat) := (p :: l).take 256

/-- A STRETCH of the peer: answered and recorded once for each origin and number (R161). -/
def State.onStretch (s : State) (m : StretchMsg) : State :=
  if !s.far then s else
  let s := s.queueLc (stretchBody true m.lower m.k.toNat m.seq.toNat m.origin.toNat m.e.toNat)
  let id := (m.origin.toNat, m.seq.toNat)
  if s.tim.rxSeen.contains id then s else
  let s := { s with tim := { s.tim with rxSeen := remember id s.tim.rxSeen } }
  (s.putW TURN_STRETCH_RX (m.e.toNat % 2 ^ 32 * 2 ^ 32 + m.origin.toNat * 2 ^ 23 + m.seq.toNat * 2 ^ 15 + m.k.toNat % 32 * 2 ^ 10
    + (if m.lower then 2 ^ 9 else 0))).raise 0x0308

/-- A pod generation learned from a message or a notice (R232): the entry of (pod, VI), its valid bit at 2^10. -/
def State.learnGen (s : State) (pod vi gen : Nat) : State :=
  { s with pod := s.pod.set (256 * pod + vi) (BitVec.ofNat 32 (1024 + gen)) }

/-- The pod generation of (pod, VI), where the entry is valid. -/
def State.podGen (s : State) (pod vi : Nat) : Option Nat :=
  let v := (s.pod.get (256 * pod + vi)).toNat
  if v < 1024 then none else some (v % 1024)

/-- Test a generation against the pod table: stale or not, and the table afterwards (R232). -/
def State.podTest (s : State) (pod vi gen : Nat) : Bool × State :=
  match s.podGen pod vi with
  | none => (false, s.learnGen pod vi gen)
  | some t =>
    let d := (gen + 1024 - t) % 1024
    if 1 ≤ d ∧ d ≤ 511 then (false, s.learnGen pod vi gen) else (512 ≤ d, s)

/-- A GEN-NOTICE of the peer: answered, and learned once for each origin and number (R233). -/
def State.onGen (s : State) (m : GenMsg) : State :=
  if !s.far then s else
  let s := s.queueLc (genBody true m.origin.toNat m.vi.toNat m.gen.toNat m.nseq.toNat)
  let id := (m.origin.toNat, m.nseq.toNat)
  if s.tim.genSeen.contains id then s else
  let s := { s with tim := { s.tim with genSeen := remember id s.tim.genSeen } }
  if m.origin.toNat = s.pod_ then s else (s.podTest m.origin.toNat m.vi.toNat m.gen.toNat).2

end Sys2Proof.Machine
end

