-- ==== Sys2Proof/Machine/Flags.lean ====
section
/-! DEFINITION. What a received header does to the status of the link (chapter 4): acknowledgement and rewind (R83, R85, R88, R89),
replay-wait (R81), credit returns (R97), and the Beat (R143–R145). -/

namespace Sys2Proof.Machine

/-! ### Acknowledgement and replay -/

/-- Something keeps the Bank from being sent again: a rewind begins, or the limit of rewinds without progress starts a Retrain (R85,
R89); `timer`: the ack timer began it (R88). -/
def State.rewind (s : State) (timer : Bool) : State :=
  if s.dlv.bank.isEmpty then s
  else if s.dlv.noProgress = max 1 (s.getF DLV_ACKTO_REPLAY_LIMIT) then s.retrainNow 1
  else { s with dlv := { s.dlv with replay := some (BitVec.ofNat 16 (s.getF DLV_BANK_ACKED + 1)), fresh := true, timer := timer, ackAt := s.now } }

/-- A time of the model's clock lies in the link-core cycle, of two ticks, that is now (R90). -/
def State.sameCycle (s : State) (t : Nat) : Bool := decide (s.now ≤ t + 1 ∧ (s.tick + t - s.now) / 2 = s.tick / 2)

/-- An `ACK` is applied (R83): whether it was valid, and the state. A timer that would have expired in this cycle counts as a near miss
(R90). -/
def State.applyAck (s : State) (a : Nat) : Bool × State :=
  let l := s.getF DLV_BANK_ACKED
  let u := (a + 2 ^ 16 - l) % 2 ^ 16
  let v := (s.getF DLV_SEQ_TXSEQ + 2 ^ 16 - l) % 2 ^ 16
  if v < u then
    let s := s.count CNT_ACK_BAD
    match s.dlv.lastAckBad with
    | some t => if s.now < t + 2 ^ 20 then (false, s) else (false, ({ s with dlv := { s.dlv with lastAckBad := some s.now } }).raise 0x0201)
    | none => (false, ({ s with dlv := { s.dlv with lastAckBad := some s.now } }).raise 0x0201)
  else if u = 0 then (true, s)
  else
    let s := s.countIf (s.sameCycle (s.dlv.ackAt + max 1 (s.getF DLV_ACKTO_ACKTO))) CNT_NEAR_MISS 1
    let bank := s.dlv.bank.drop u
    let r := s.dlv.replay.bind (fun q =>
      let i := (q.toNat + 2 ^ 16 - (l + 1)) % 2 ^ 16
      if bank.isEmpty then none else if i < u then some (BitVec.ofNat 16 (a + 1)) else some q)
    let s := s.setF DLV_BANK_ACKED a
    (true, { s with dlv := { s.dlv with bank := bank, replay := r, ackAt := s.now, noProgress := 0 } })

/-- `ACK` and `NAK` of a header (R83, R85); the first valid `ACK` after an entry to Up acts as a `NAK` (R106). -/
def State.applyAckNak (s : State) (a : Nat) (nak : Bool) : State :=
  let r := s.applyAck a
  if !r.1 then r.2
  else
    let first := r.2.dlv.firstAck
    let s := { r.2 with dlv := { r.2.dlv with firstAck := false } }
    if nak || first then s.rewind false else s

/-- Replay-wait is entered on a failure (R81). -/
def State.enterWait (s : State) : State :=
  if s.getB DLV_STATUS_RWAIT then s
  else { s.setB DLV_STATUS_RWAIT true with dlv := { s.dlv with nakDue := true, nakAt := if s.dlv.nakDue then s.dlv.nakAt else s.now } }

/-! ### Credits -/

/-- A channel's window changes; at its floor the channel is armed again (R103). -/
def State.setWindow (s : State) (c n : Nat) : State :=
  let s := s.setF (DLV_WIN_WINDOW c) n
  if s.getF (DLV_FLOOR_FLOOR c) ≤ n then s.setF DLV_WATCH_ARMED (putBit (s.getF DLV_WATCH_ARMED) c true) else s

/-- A credit return is applied (R56, R97). -/
def State.applyCredit (s : State) (cch n : Nat) : State :=
  if cch = 15 then s
  else if 5 < cch then s.count CNT_HDR_BAD
  else
    let w := s.window cch + n
    if s.getF (DLV_PCAP_PCAP cch) < w then ((s.setWindow cch (s.getF (DLV_PCAP_PCAP cch))).count CNT_CR_EXCESS).raise 0x0203
    else s.setWindow cch w

/-- Pips of a channel are freed and owed (R96). In Hold the owed counts are frozen, and in Down they stay zero (R106). -/
def State.owe (s : State) (c n : Nat) : State :=
  if s.link = 7 || s.link == 8 then s else s.setF (DLV_RXBUF_OWED c) (s.getF (DLV_RXBUF_OWED c) + n)

/-- Pips held in a channel's buffer are freed and owed. -/
def State.freeHeld (s : State) (c n : Nat) : State := (s.setF (DLV_RXBUF_HELD c) (s.getF (DLV_RXBUF_HELD c) - n)).owe c n

/-! ### Beats, R143–R145 -/

/-- The Round boundary nearest to a time in sixteenths of a tick: its Round and its tick. -/
def State.nearBoundary (s : State) (x : Int) : Nat × Nat :=
  let l := (s.tim.round + 1, s.b + s.lenNow) :: s.tim.starts.map (fun p => (p.1, p.2.1))
  let far (p : Nat × Nat) : Nat := (x - 16 * (p.2 : Int)).natAbs
  l.foldl (fun a p => if far p < far a then p else a) (s.tim.round, s.b)

/-- The die follows this link, and the state afterwards. It follows its backup, while that is Up, when it has lost its parent, which another
instance knows: a free value (R145; log entry 143). -/
def State.follows (s : State) : Bool × State :=
  if s.isParent then (true, s)
  else if s.getF TIME_CTRL_ROLE = 2 && s.link == 4 then (s.freeNow.toNat % 2 == 1, s.takeFree)
  else (false, s)

/-- A Beat whose flit arrived now (R143, R144): the first sets the baseline, later ones are judged against it. The sixteenth of the tick in
which its first symbol arrived is a free value (log entry 32). A run of four or more out of range adjusts the counter. -/
def State.onBeat (s : State) : State :=
  let x : Int := ((16 * s.tick + s.freeNow.toNat % 16 : Nat) : Int) - (s.getF TIME_OWD_OWD : Int)
  let s := s.takeFree
  let b := s.nearBoundary x
  let e := x - 16 * (b.2 : Int)
  match s.tim.e0 with
  | none =>
    let s := { s.setF TIME_STATUS_BEATRUN 0 with tim := { s.tim with e0 := some e, early := 0, lateB := 0, outTol := 0, lastBeat := some b.1 } }
    if s.isParent then s.setB TIME_STATUS_PARENT_LOST false else s
  | some e0 =>
    let d := e - e0
    let s := match s.tim.lastBeat with | some p => s.count CNT_BEAT_MISS (b.1 - p - 1) | none => s
    let s := s.setF TIME_ERR_LASTERR (unsigned 16 (clampS 16 d))
    let late := if 16 ≤ d then s.tim.lateB + 1 else 0
    let early := if d ≤ -16 then s.tim.early + 1 else 0
    let out := if (if s.far then 64 else 32) < d.natAbs then s.tim.outTol + 1 else 0
    let r := if (4 ≤ late || 4 ≤ early) && s.getB TIME_CTRL_ADJ_EN && !s.getB TIME_CTRL_MASTER then s.follows else (false, s)
    let s := r.2
    let a : Int := if !r.1 then s.tim.adjust else if 4 ≤ late then 1 else -1
    let s := s.setF TIME_STATUS_BEATRUN (min 255 out)
    let s := { s with tim := { s.tim with early := early, lateB := late, outTol := out, adjust := a, lastBeat := some b.1 } }
    if out = 4 then s.raise 0x0301 else s

end Sys2Proof.Machine
end

