-- ==== Sys2Proof/Machine/Operands.lean ====
section
/-! DEFINITION. The operands that messages carry, read from their bytes: link-control bodies (R92, R100, R124, R129, R133, R141, R161, R233,
R264) and training bodies (R111). Bits that the formats leave zero are ignored (R5). -/

namespace Sys2Proof.Machine

/-- The body of SHIFT-REQ and SHIFT-ACK, from `LCTYPE` on (R124). -/
def readShift (l : List Byte) : ShiftMsg :=
  { id := l.getD 1 0, reason := l.getD 2 0, width := l.getD 3 0, mode := l.getD 4 0, status := l.getD 5 0
    effg := BitVec.ofNat 32 (bytesAt l 8 4), excl := BitVec.ofNat 24 (bytesAt l 12 3), map := (l.drop 16).take 16 }

/-- Transmit values from byte `i`. -/
def readVals (l : List Byte) (i : Nat) : EqVals := ⟨l.getD i 0, l.getD (i + 1) 0, l.getD (i + 2) 0, l.getD (i + 3) 0⟩

/-- The body of TIME-SYNC: whether it is a reply, and its content with the arrival time of its first symbol (R141). -/
def readSync (l : List Byte) (arrived : Nat) : Bool × SyncMsg :=
  (byteAt l 1 == 1,
   { id := l.getD 2 0, synced := bitOf (byteAt l 3) 0, tsend := 16 * bytesAt l 8 8 + byteAt l 16 % 16
     trecv := 16 * bytesAt l 24 8 + byteAt l 32 % 16, arrived := arrived })

/-- The body of STRETCH (R161). -/
def readStretch (l : List Byte) : StretchMsg :=
  { got := bitOf (byteAt l 1) 1, lower := bitOf (byteAt l 1) 0, k := l.getD 2 0, seq := l.getD 3 0, origin := BitVec.ofNat 9 (bytesAt l 4 2)
    e := BitVec.ofNat 64 (bytesAt l 8 8) }

/-- The body of GEN-NOTICE (R233). -/
def readGen (l : List Byte) : GenMsg :=
  { got := bitOf (byteAt l 1) 1, origin := BitVec.ofNat 9 (bytesAt l 2 2), vi := l.getD 4 0, gen := BitVec.ofNat 10 (bytesAt l 6 2), nseq := l.getD 8 0 }

/-- The body of CREDIT-INIT and TALLY (R100). -/
def readCredit (l : List Byte) : CreditMsg :=
  { got := bitOf (byteAt l 1) 0, epoch := l.getD 2 0, aseq := BitVec.ofNat 16 (bytesAt l 4 2), rseq := BitVec.ofNat 16 (bytesAt l 6 2)
    room := (List.range 6).map (fun c => BitVec.ofNat 16 (bytesAt l (8 + 4 * c) 2))
    owed := (List.range 6).map (fun c => BitVec.ofNat 16 (bytesAt l (10 + 4 * c) 2)) }

/-- The body of READY (R111). -/
def readReady (l : List Byte) : ReadyMsg :=
  { mode := l.getD 0 0, width := l.getD 1 0, excl := BitVec.ofNat 24 (bytesAt l 2 3), map := padTo 16 ((l.drop 5).take 16) }

/-- The body of DETECT (R111). -/
def readDetect (l : List Byte) : DetectMsg :=
  { seen := BitVec.ofNat 24 (bytesAt l 0 3), modes := l.getD 3 0, kind := l.getD 4 0, reversed := bitOf (byteAt l 5) 0 }

/-- The body of EQ-SET and EQ-DONE (R111). -/
def readEq (l : List Byte) : EqMsg := { reqid := l.getD 0 0, lane := l.getD 1 0, mode := l.getD 2 0, vals := readVals l 3 }

end Sys2Proof.Machine
end

