-- ==== Sys2Proof/Machine/Credit.lean ====
section
/-! DEFINITION. The credit exchange (R100–R102), Tally (R104, R105), the Stalemate watch (R103), the loop measurement (R92, R93), the ack
timer (R88) and the buckets of R243. -/

namespace Sys2Proof.Machine

/-! ### Credits, R101 -/

/-- `Q_c`: pips of a channel in Bank entries after `aseq`, and those of the message being sent that are still to be sent (R101 step 3). -/
def State.inFlight (s : State) (c aseq : Nat) : Nat :=
  let skip := (aseq + 2 ^ 16 - s.getF DLV_BANK_ACKED) % 2 ^ 16
  let entries := if skip < 2 ^ 15 then s.dlv.bank.drop skip else s.dlv.bank
  (entries.map (fun e => e.pips.getD c 0)).sum
    + (match s.dlv.cur with | [] => 0 | h :: r => if (headOf h).chan = c then r.length else 0)

/-- The least first `ROOM` of a guest's channel (R102). -/
def guestRoom (c : Nat) : Nat := [10, 9, 0, 1, 64, 64].getD c 0

/-- A channel's window is set from a CREDIT-INIT (R101 step 3, R102, R103). -/
def State.initChannel (s : State) (m : CreditMsg) (c : Nat) : State :=
  let room := (m.room.getD c 0).toNat
  let low := s.guestEdge && !s.dlv.roomSeen && bitOf (s.used 11) c && decide (room < guestRoom c)
  let s := if low then ({ s with dlv := { s.dlv with lowRoom := listSet s.dlv.lowRoom c true } }).raise 0x0107 else s
  let s := s.setFs [(DLV_WIN_ROOM0 c, room), (DLV_PCAP_PCAP c, max (s.getF (DLV_PCAP_PCAP c)) room)]
  let s := s.setWindow c (room - s.inFlight c m.aseq.toNat)
  if room < s.getF (DLV_FLOOR_FLOOR c) then s.setF DLV_WATCH_ARMED (putBit (s.getF DLV_WATCH_ARMED) c false) else s

/-- The exchange ends once the peer's figures are applied and it has said that it has this end's (R101 step 4); the loop measurement begins
(R92). -/
def State.exchEnd (s : State) : State :=
  if !(s.dlv.exch && s.getB DLV_STATUS_CREDIT_OK && s.dlv.peerGot) then s else
  let s := s.countIf (s.sameCycle (s.dlv.upAt + 65536)) CNT_NEAR_MISS 1
  let s := s.setB DLV_STATUS_INITDONE true
  { s with dlv := { s.dlv with exch := false, tally := 0, sinceExch := 0, exchSvc := s.inService, loopOn := true, probes := [], probeSent := 0, echoes := 0 } }

/-- CREDIT-INIT arrives (R101). -/
def State.onInit (s : State) (m : CreditMsg) : State :=
  if !s.linkRuns then s else
  let new := !s.getB DLV_STATUS_CREDIT_OK || m.epoch.toNat != s.getF DLV_STATUS_RXEPOCH
  let s := if !new then s else
    let s := (List.range 6).foldl (fun s c => s.initChannel m c) s
    let s := s.setFs [(DLV_STATUS_CREDIT_OK, 1), (DLV_STATUS_RXEPOCH, m.epoch.toNat)]
    { s with dlv := { s.dlv with peerRseq := m.rseq, rseqPassed := false, roomSeen := true } }
  let s := if m.got then { s with dlv := { s.dlv with peerGot := true } } else s
  if s.dlv.exch then s.exchEnd
  else if !m.got && m.epoch.toNat == s.getF DLV_STATUS_RXEPOCH then s.queueLc (s.creditBody 0x41 true)
  else s

/-- CREDIT_INIT_RECEIVE (R101). -/
def execCreditInitReceive (m : CreditMsg) (s : State) : Host.Outcome State Fault Refusal := done s (s.hear.onInit m)

/-- CREDIT-INIT is to be repeated: 32 flit times have been sent since the last one (R101 step 1). -/
def State.initDue (s : State) : Bool := s.linkRuns && s.dlv.exch && decide (s.dlv.initAt + 32 ≤ s.dlv.flits)

/-- CREDIT_INIT_REPEAT: every 32 flit times until the exchange ends, each a fresh snapshot (R101 step 1). -/
def execCreditInitRepeat (s : State) : Host.Outcome State Fault Refusal :=
  done s (if s.initDue then ({ s with dlv := { s.dlv with initAt := s.dlv.flits } }).sendInit (s.getB DLV_STATUS_CREDIT_OK) else s)

/-- CREDIT_EXCHANGE_TIMEOUT: 65,536 ticks after the entry to Up the exchange has not ended (R101 step 6). -/
def execCreditExchangeTimeout (s : State) : Host.Outcome State Fault Refusal :=
  done s (if s.linkRuns && s.dlv.exch then ((s.advanceTo (s.dlv.upAt + 65536)).count CNT_INIT_RETRY).retrainNow 2 else s)

/-! ### Tally, R104 and R105 -/

/-- The instance sends TALLY (R104, R119). -/
def State.tallies (s : State) : Bool :=
  let m := s.getF DLV_CTRL_TALLY_MODE
  s.linkRuns && s.getB DLV_STATUS_INITDONE && bitOf (s.used 13) 2
    && (m == 1 || (if s.stage = 10 then s.dlv.exchSvc && decide (s.dlv.sinceExch < 65536) else decide (7 ≤ s.stage ∧ s.stage < 10)))

/-- TALLY_SEND: 4,096 flit times have been sent since the last one (R104). -/
def execTallySend (s : State) : Host.Outcome State Fault Refusal :=
  done s (if s.tallies && decide (4096 ≤ s.dlv.tally) then
      ({ s with dlv := { s.dlv with tally := 0 } }).queueLc (s.creditBody 0x42 false)
    else s)

/-- A channel is compared with a TALLY: whether its true window is impossible, and the state (R105). -/
def State.tallyChannel (s : State) (m : CreditMsg) (c : Nat) : Bool × State :=
  let w : Int := (m.room.getD c 0).toNat - (m.owed.getD c 0).toNat - (s.inFlight c m.aseq.toNat : Int)
  if w < 0 || (s.getF (DLV_PCAP_PCAP c) : Int) < w then (true, s)
  else
    let old := s.window c
    if w.toNat = old then (false, s) else
    let s := (s.setWindow c w.toNat).count CNT_TALLY_FIX
    (false, s.setFs [(DLV_TALLY_LASTFIX, unsigned 16 (clampS 16 (w - old))), (DLV_TALLY_LASTCH, c)])

/-- TALLY arrives (R105). Impossible windows raise DEGR once for the TALLY (DESIGN CHOICE, log entry 129). -/
def State.onTally (s : State) (m : CreditMsg) : State :=
  if !s.linkRuns then s
  else if m.epoch.toNat != s.getF DLV_STATUS_RXEPOCH || !s.getB DLV_STATUS_CREDIT_OK || s.getF DLV_SEQ_RXSEQ != m.rseq.toNat then s.count CNT_TALLY_SKIP
  else
    let r := (List.range 6).foldl (fun (a : Bool × State) c => let q := a.2.tallyChannel m c; (a.1 || q.1, q.2)) (false, s)
    if !r.1 then r.2
    else
      let s := r.2.raise 0x0205
      if s.inService then s.retrainAtQui 4 else s.retrainNow 4

/-- TALLY_RECEIVE (R105). -/
def execTallyReceive (m : CreditMsg) (s : State) : Host.Outcome State Fault Refusal := done s (s.hear.onTally m)

/-! ### Stalemate watch, R103 -/

/-- A message of the channel is ready, in progress or started. -/
def State.chanBusy (s : State) (c : Nat) : Bool :=
  (s.headOfChan c).isSome || (match s.dlv.cur with | [] => false | h :: _ => (headOf h).chan == c)

/-- STALEMATE_CHECK: a check of an armed channel falls due (R103). -/
def execStalemateCheck (c : Fin 6) (s : State) : Host.Outcome State Fault Refusal :=
  let c := c.val
  done s (
    if !(s.inService && s.linkRuns && s.getB DLV_CTRL_WATCH_EN && bitOf (s.getF DLV_WATCH_ARMED) c) || s.chanBusy c
        || s.dlv.bank.any (fun e => e.pips.getD c 0 != 0) then s
    else
      let s := s.advanceTo (s.dlv.quiet.getD c 0 + 256 * max 1 (s.getF DLV_WATCH_SETTLE))
      if s.window c < s.getF (DLV_FLOOR_FLOOR c) then (s.count CNT_WATCH).retrainAtQui 3 else s)

/-! ### The loop, R92 and R93 -/

/-- The body of LOOP-PROBE (R92). -/
def probeBody (echo : Bool) (id turn : Nat) : List Byte :=
  beBytes 1 0x29 ++ beBytes 1 (if echo then 1 else 0) ++ beBytes 1 id ++ beBytes 1 0 ++ beBytes 2 turn ++ beBytes 10 0

/-- The measurement ends (R92): the Bank's coverage is compared (R93), a drift of the declared latency is reported (R151), and T7 passes. -/
def State.loopEnd (s : State) : State :=
  let s := ({ s with dlv := { s.dlv with loopOn := false, probes := [] } }).setB DLV_LOOP_VALID true
  let f := flitTime s.mapList.length (s.getF LINK_STATUS_MODE)
  let bound := decide (bankCap s.place * f.1 < s.getF DLV_LOOP_LOOP * f.2)
  let s := s.setB DLV_STATUS_BANKBOUND bound
  let s := if bound then s.raise 0x0202 else s
  let s := if s.far && s.getB TIME_DECL_VALID && decide (s.decl < s.declNow) then s.raise 0x0304 else s
  s.stagePass 7 0

/-- A probe waits to be sent. -/
def State.probeWaits (s : State) : Bool := s.dlv.lc.any (fun m => byteAt m.body 0 == 0x29 && byteAt m.body 1 == 0)

/-- A probe is due: the first, or 8 flit times have been sent since the last one left (R92). -/
def State.probeDue (s : State) : Bool :=
  s.linkRuns && s.dlv.loopOn && decide (s.dlv.probeSent < 1024) && !s.probeWaits
    && (s.dlv.probeSent == 0 || decide (s.dlv.probeFlit + 8 ≤ s.dlv.flits))

/-- LOOP_PROBE_SEND: every 8 flit times; the probe counts as sent when it leaves (R92). -/
def execLoopProbeSend (s : State) : Host.Outcome State Fault Refusal :=
  done s (if s.probeDue then s.queueLc (probeBody false (s.dlv.probeSent % 256) 0) else s)

/-- A probe of the peer is echoed; `TURN` is filled in when the echo leaves (R92). -/
def State.onProbe (s : State) (id : Nat) : State := if s.linkRuns then s.queueLc (probeBody true id 0) else s

/-- LOOP_PROBE_RECEIVE (R92). -/
def execLoopProbeReceive (id : Byte) (s : State) : Host.Outcome State Fault Refusal := done s (s.hear.onProbe id.toNat)

/-- An echo arrives (R92). Echoes come in the order of their probes, and numbers repeat after 256: it answers the oldest probe of its number, and the
probes before that one were lost (log entry 74). -/
def State.onEcho (s : State) (id turn : Nat) : State :=
  if !(s.linkRuns && s.dlv.loopOn) then s else
  match s.dlv.probes.find? (fun p => p.1 == id) with
  | none => s
  | some p =>
    let m := min (2 ^ 20 - 1) (s.now + 4 - p.2 - turn)
    let s := s.setF DLV_LOOP_LOOP (if s.dlv.echoes = 0 then m else max m (s.getF DLV_LOOP_LOOP))
    let s := { s with dlv := { s.dlv with probes := (s.dlv.probes.dropWhile (fun q => q.1 != id)).drop 1, echoes := s.dlv.echoes + 1 } }
    if s.dlv.echoes = 128 then s.loopEnd else s

/-- LOOP_ECHO_RECEIVE (R92). -/
def execLoopEchoReceive (id : Byte) (turn : BitVec 16) (s : State) : Host.Outcome State Fault Refusal := done s (s.hear.onEcho id.toNat turn.toNat)

/-- LOOP_EXCHANGE_TIMEOUT: 2^20 ticks after the first symbol of the 1,024th probe; without an echo the link goes Down (R92). -/
def execLoopExchangeTimeout (s : State) : Host.Outcome State Fault Refusal :=
  done s (
    if !(s.linkRuns && s.dlv.loopOn && s.dlv.probeSent == 1024) then s else
    let s := s.advanceTo (s.dlv.probeAt + 2 ^ 20)
    if s.dlv.echoes = 0 then s.linkDown 9 else s.loopEnd)

/-! ### The ack timer, R88 -/

/-- ACK_TIMEOUT: `ACKTO` ticks pass without progress while the Bank holds an entry, in Retrain too (R88, R89). -/
def execAckTimeout (s : State) : Host.Outcome State Fault Refusal :=
  done s (if (s.linkRuns || s.link == 6) && !s.dlv.bank.isEmpty then
      ((s.advanceTo (s.dlv.ackAt + max 1 (s.getF DLV_ACKTO_ACKTO))).count CNT_ACK_TO).rewind true
    else s)

/-! ### Rate caps, R243 -/

/-- The tick at which a channel's bucket gains its next whole pip: `RATE` pips spread evenly over 1,024 ticks (R243). -/
def State.refillAt (s : State) (c : Nat) : Nat :=
  let r := s.getF (FW_RATE_RATE c)
  let q := s.dlv.bucketAt.getD c (0, 0)
  q.1 + (1024 - q.2 + r - 1) / r

/-- A channel's bucket is filled up to now: whole pips enter it, up to its size, and what is left of one is kept (R243). -/
def State.refillBucket (s : State) (c : Nat) : State :=
  let r := s.getF (FW_RATE_RATE c)
  let b := s.getF (FW_RATE_BURST c)
  let q := s.dlv.bucketAt.getD c (0, 0)
  let n := q.2 + r * (s.now - q.1)
  { s with dlv := { s.dlv with buckets := listSet s.dlv.buckets c (min (if b = 0 then r else b) (s.dlv.buckets.getD c 0 + n / 1024))
                               bucketAt := listSet s.dlv.bucketAt c (s.now, n % 1024) } }

/-- RATE_BUCKET_REFILL: a channel's bucket gains its next pip at its time (R243). -/
def execRateBucketRefill (c : Fin 6) (s : State) : Host.Outcome State Fault Refusal :=
  done s (if !s.guestEdge || s.getF (FW_RATE_RATE c) = 0 then s else (s.advanceTo (s.refillAt c)).refillBucket c)

end Sys2Proof.Machine
end

