-- ==== Sys2Proof/Machine/Islands.lean ====
section
/-! DEFINITION. Resets of a package, an instance and a die, lost and returning clocks, crossings (R251–R262, R302, R303), Hold by the peer's
die and its expiry (R263–R268), and the sensors of R50 and R271. -/

namespace Sys2Proof.Machine

/-! ### Resets, R11, R261, R302 -/

/-- The instance begins again at T0; what no reset touches stays (R11, R12, R302). -/
def State.reinit (s : State) : State :=
  { State.resetAt s.place with
    now := s.now, free := s.free, out := s.out, strt := { Strt.reset with t0 := s.now, stageAt := s.now, abandoned := s.starting } }

/-- PACKAGE_RESET: every register, queue and buffer takes its reset value, and the die counter is cleared (R11, R261). -/
def execPackageReset (s : State) : Host.Outcome State Fault Refusal := done s s.reinit

/-- An instance reset: every register takes its reset value and the die counter runs on (R11, R139, R261). `SYNCED` of an instance of the pod time
source's die stays (R140). `TIME_ROUND` reads its reset value until a Round begins (log entry 138). -/
def State.instReset (s : State) : State :=
  let t := { s.reinit with die := s.die, isl := { Isl.reset with clkOn := s.isl.clkOn, inReset := s.isl.inReset } }
  let t := (t.setB TIME_STATUS_SYNCED (s.getB TIME_STATUS_SYNCED && s.getB TIME_CTRL_MASTER)).rebuildRounds
  { t with tim := { t.tim with atReset := true } }

/-- INSTANCE_RESET (R11, R261). -/
def execInstanceReset (s : State) : Host.Outcome State Fault Refusal := done s s.instReset

/-- POWER_LOSS: nothing but the Ledger outlives it; power returns with a package reset (R293). -/
def execPowerLoss (s : State) : Host.Outcome State Fault Refusal := done s s.reinit

/-- The link holds a link record: it was Up, Shift, Retrain or Hold (R262). -/
def hasRecord (link : Nat) : Bool := decide (4 ≤ link ∧ link ≤ 7)

/-- What a die reset stops in the instance at once (R262): schedule, rings, jobs, contexts, tags, messages of the core side whose head has
not been sent, and the stream buffer. Commands in progress and accesses in the crossings are lost; the link record stays. -/
def State.dieStops (s : State) : State :=
  let s := { s with lme := { s.lme with queue := [], runs := [], asm := [], rpl := [], checking := false, badSeen := false }, shadow := [], held := [] }
  let s := s.clearRun
  let s := (List.range 64).foldl State.stopRing s
  let s := ((List.range 8).filter (fun j => s.getB (FOLD_XJ_CFG_GO j))).foldl State.stopJob s
  let n := s.trn.sbuf.length
  let tags := s.mov.tags.map (fun t => { t with dead := true })
  { s.count CNT_STR_DROP n with
    isl := { s.isl with wait := s.isl.wait.filter (fun p => p.1 != 7) }
    mov := { s.mov with eng := List.replicate 4 Eng.idle, tags := tags, wset := [], pub := [] }
    trn := { s.trn with sbuf := [], released := s.trn.released + n, ready := [], ahead := [], writes := [], armed := none, halt := false, checking := false, load := none
                        deckFetch := none, deckReady := false, deckMiss := false }
    dlv := { s.dropTx (·.fromCore) with idleOnly := false } }

/-- DIE_RESET: the die's reset is applied (R261, R262). -/
def execDieReset (s : State) : Host.Outcome State Fault Refusal :=
  done s (
    let was := s.link
    let s := s.dieStops
    let s := s.setFs [(TIME_STATUS_SYNCED, 0), (ISL_STATUS_LCORE_OK, 0), (ISL_STATUS_ARITH_OK, 0), (ISL_STATUS_CORE_OK, 0), (ISL_STATUS_LANE_LOCK, 0),
      (ISL_XING_STOPPED, 0), (ISL_XING_RESYNC, 0)]
    let s := { s with die := 0, isl := { s.isl with hs := List.replicate 6 0, inReset := true, byClock := false, linkWas := was }
                      tim := { s.tim with sync := [], syncId := 0, answered := 0, bestRt := none, bestTheta := 0, owdRt := none, adjust := 0 } }
    s.rebuildRounds)

/-- The exchange of R142 is to be made anew. -/
def State.freshSync (s : State) : State :=
  { s with tim := { s.tim with sync := [], answered := 0, bestRt := none, bestTheta := 0, owdRt := none } }

/-- The returned die's instance with a link record, at the end of T1 of the return: the retained image is checked, a DIE-RESET record queued,
Hold entered and its Retrain started, with the exchange of R142 open again; with a bad image the instance resets itself (R262, R268, R303). -/
def State.returned (s : State) : State :=
  if !s.retainedOk then s.instReset
  else
    let s := s.recDieReset s.isl.byClock s.isl.warned s.isl.linkWas (s.imageCrc (min 65536 (s.imgWord 2))) s.tick
    let s := ({ s with isl := { s.isl with warned := false, linkWas := 0 } }).freshSync.enterHold 5
    if s.link == 7 then s.holdOwn else s

/-- Words of the register window take their reset values. -/
def State.resetWords (s : State) (l : List Nat) : State := l.foldl (fun s off => s.wr off ((resetRegs s.place).get off).toNat) s

/-- The partial results of a training are abandoned (R302): the lanes detected, the equalisation found, the capability exchanged, the map and the mode. -/
def State.untrain (s : State) : State :=
  let s := s.abandonSweep.hush
  let s := { s with lnk := { Lnk.reset with reqid := s.lnk.reqid, partner := s.lnk.partner },
                    age := { s.age with pendTx := [], pendRx := [], tunes := [] } }
  let s := ((s.setMap []).setFs [(LINK_STATUS_MODE, 3), (LINK_STATUS_EMPTY, 0), (LINK_STATUS_BASECAP, 0), (LINK_EXCL_EXCL, 0), (LINK_STATUS_REVERSED, 0),
    (ID_TWIN_TWINLESS, 0), (ID_TWIN_PEERPOD_VALID, 0), (ID_TWIN_PEERPOD, 0), (ID_TWIN_PEERPORT, 0)]).wr START_T4FAIL 0
  let s := s.resetWords ((List.range 6).flatMap (fun w => [LINK_CAP_OWN w, LINK_CAP_PEER w, LINK_CAP_USED w])
    ++ s.lanes.flatMap (fun l => [LANE_TXEQ l, LANE_RXEQ l, LANE_SNR l]))
  (s.lanes.foldl (fun s l => (s.patEnds l).setFs [(LANE_STATUS_STATE l, 0), (LANE_STATUS_MODE l, 3), (LANE_STATUS_POLINV l, 0), (LANE_STATUS_TXEQ_PEND l, 0)]) s).refree

/-- The start that a die reset cut short begins again at T0; `START_MEM` keeps the value of an override that stands (R301, R302). -/
def State.startAgain (s : State) : State :=
  let s := s.untrain
  let s := { s with strt := { Strt.reset with t0 := s.now, stageAt := s.now, abandoned := s.starting, again := s.getB LME_STATUS_IMGOK, keepMem := s.strt.keepMem } }
  let s := (s.wr 0x600C 0x3FFFFF).setFs [(START_STATUS_STAGE, 0), (START_STATUS_RESULT, 15), (START_STATUS_FCODE, 0), (START_STATUS_SBABSENT, 0),
    (START_STATUS_UNSYNCED, 0), (START_STATUS_PATH, 0)]
  s.setLink 0 0

/-- A start has failed, been scrapped or ended retired: the instance stays where it stopped until its instance reset (R297, R301). -/
def State.startStopped (s : State) : Bool := s.strt.done && [1, 3, 4].contains (s.getF START_STATUS_RESULT)

/-- DIE_RESET_RELEASE: the die's reset ends; a link with a record goes on at the end of T1, one in Down stays there, and so does an instance whose
start has ended without a link (R262, R268, R297, R301–R303). Any other link returns to Off and its start begins again. -/
def execDieResetRelease (s : State) : Host.Outcome State Fault Refusal :=
  done s (
    if !s.isl.inReset then s else
    let s := { s with isl := { s.isl with inReset := false, clkOn := true } }
    if hasRecord s.isl.linkWas || s.isl.linkWas == 8 || s.startStopped then s.clocksOn.resync (List.range 6) else s.startAgain)

/-- DIE_CLOCK_LOSS: every clock of the die stops and everything stands (R255, R261). -/
def execDieClockLoss (s : State) : Host.Outcome State Fault Refusal :=
  done s (if !s.isl.clkOn then s else { s with isl := { s.isl with clkOn := false, byClock := true, linkWas := s.link } })

/-- The die's clock returns: no crossing needs its handshake and no start stage is repeated; a link with a record enters Hold and retrains at
once. The schedule stops, and a die that is not the pod time source is to be stepped again (R262, R268, R303; log entry 34). -/
def State.clockBack (s : State) : State :=
  if s.isl.clkOn then s else
  let s := ({ s with isl := { s.isl with clkOn := true } }).clearRun
  let s := if s.getB TIME_CTRL_MASTER then s else s.setB TIME_STATUS_SYNCED false
  if hasRecord s.link then s.returned else { s with isl := { s.isl with linkWas := 0 } }

/-! ### Crossings, R255 and R256 -/

/-- The crossings that a clock serves (R252). -/
def xingsOf : Clk → List Nat
  | .linkCore => [0, 1, 2, 3, 4]
  | .arith => [3, 5]
  | .core => [2]
  | .mgmt => [4, 5]

/-- Record whether a clock is seen running. -/
def State.setSeen (s : State) (c : Clk) (b : Bool) : State :=
  match c with
  | .linkCore => s.setB ISL_STATUS_LCORE_OK b
  | .arith => s.setB ISL_STATUS_ARITH_OK b
  | .core => s.setB ISL_STATUS_CORE_OK b
  | .mgmt => { s with isl := { s.isl with mgmtStopped := !b } }

/-- The 48-bit counters (R343). -/
def wideCnts : List Cnt := (List.range 32).map (fun n => ⟨0x5000 + 8 * n, 48⟩)

/-- The counters of 32 and of 16 bits (R343). -/
def narrowCnts : List Cnt :=
  (List.range 69).map (fun i =>
    ⟨0x5100 + 4 * i, if [2, 14, 15, 18, 21, 22, 23, 29, 30, 41, 42, 47, 48, 49, 52, 53, 54, 55, 57, 58, 59, 63, 66].contains i then 16 else 32⟩)

/-- Every counter of the counters group. -/
def allCnts : List Cnt := wideCnts ++ narrowCnts

/-- What a source keeps of its events while the management clock stands: 127 presented ahead and a pending count of 32 bits (R258). -/
def pendingCap : Nat := 127 + (2 ^ 32 - 1)

/-- The events of one source reach its counter, which stood at `base` when the management clock stopped: where the pending count is full the rest is
lost, and `LOSTEV` is set. A counter of 32 bits or fewer is then at all ones in any case (R258). -/
def State.pendingEnd (s : State) (c : Cnt) (base : Nat) : State :=
  if s.cnt c + s.overOf c.off < base + pendingCap then s
  else (if c.w = 48 then s.putW ⟨c.off⟩ (base + pendingCap) else s).setB ISL_STATUS_LOSTEV true

/-- The events that came while the management clock stood reach their counters (R258). -/
def State.pendingEnds (s : State) : State :=
  let t := (allCnts.zip s.isl.base).foldl (fun (t : State) (p : Cnt × Nat) => t.pendingEnd p.1 p.2) s
  { t with isl := { t.isl with base := [] }, beyond := [] }

/-- CLOCK_STOP_DETECT: a watcher has seen no edge for 64 of its cycles (R255). -/
def execClockStopDetect (c : Clk) (s : State) : Host.Outcome State Fault Refusal :=
  done s (if !s.clkSeen c then s else
    let s := if c = .mgmt then { s with isl := { s.isl with base := allCnts.map s.cnt } } else s
    ((s.setSeen c false).setF ISL_XING_STOPPED (s.getF ISL_XING_STOPPED ||| maskOf (xingsOf c))).count CNT_CLK_STOP)

/-- The entries that the FIFOs of a crossing can hold in all (R252). -/
def State.xCap (s : State) (x : Nat) : Nat := xDepth x * (if x < 2 then s.lanes.length else 2)

/-- An entry outward is offered again after the handshake: everything but stream data (R257). -/
def XEnt.again : XEnt → Bool
  | .out (.relayStream ..) | .out (.relayFold ..) => false
  | .out _ => true
  | _ => false

/-- A register access is lost in its crossing: a read answers all ones, a write is not applied, and CORR is raised with the offset (R257, R346). -/
def State.loseAccess (s : State) (r : Requester) (write : Bool) (off : Nat) : State :=
  let t := s.refused off (r == .coreSide)
  if write then t else t.emit (.read 0xFFFFFFFF)

/-- An entry is lost in its crossing. -/
def State.loseEnt (s : State) : XEnt → State
  | .access r w _ off _ => s.loseAccess r w off
  | .bad r w off => s.loseAccess r w off
  | _ => s

/-- An access beside those that wait here is lost; the command does not name its register, so that DETAIL is a free value (log entry 12). -/
def State.loseSome (s : State) : State := s.takeFree.raiseD 0x0002 (s.freeNow.toNat % 2 ^ 16) false

/-- The entries that a crossing holds unread, `n` of them beside those that wait here, are discarded as far as the FIFOs hold so many (R256 step 2,
R257): contexts abandon their Round at crossing 3, register accesses are lost at crossings 4 and 5, messages for the core side are offered again. -/
def State.discardUnread (s : State) (x n : Nat) : State :=
  let here := (s.isl.wait.filter (fun (p : Nat × XEnt) => p.1 == x)).map (·.2)
  let ins := here.filter (fun e => !e.outward)
  let outs := here.filter XEnt.outward
  let fifo := ins ++ outs.take (xDepth x)
  let keep := (outs.take (xDepth x)).filter XEnt.again ++ outs.drop (xDepth x)
  let k := min (s.xCap x) (max n fifo.length)
  let s := { s with isl := { s.isl with wait := s.isl.wait.filter (fun (p : Nat × XEnt) => p.1 != x) ++ keep.map (fun e => (x, e)) } }
  let s := s.count CNT_XING_DROP k
  if k = 0 then s
  else if x = 3 then fifo.foldl State.loseEnt s.abandon
  else if x = 4 || x = 5 then (List.range (k - fifo.length)).foldl (fun s _ => s.loseSome) (fifo.foldl State.loseEnt s)
  else s

/-- The last crossing is open again: T1 passes, or the return of a reset die goes on (R256, R262, R296). -/
def State.crossingsOpen (s : State) : State :=
  if s.getF ISL_XING_RESYNC != 0 then s
  else if hasRecord s.isl.linkWas then s.returned
  else (s.stagePass 1 0).passT2

/-- ARST: the arithmetic island is reset while `RUN` is 0 and no job runs; otherwise the write changes nothing and raises CORR (R261). -/
def State.arst (s : State) : State :=
  if s.run || (List.range 8).any (fun j => s.getB (FOLD_XJ_CFG_GO j)) then s.refused ISL_CTRL
  else s.abandon.resync [3, 5]

/-- ISL_CTRL_ARST (R261). -/
def execIslCtrlArst (s : State) : Host.Outcome State Fault Refusal := done s (s.regCmd ISL_CTRL (s.rd ISL_CTRL ||| 2) State.arst)

/-! ### The peer's die, R263 and R264 -/

/-- HOLD-NOTICE in four flits ahead of every flit but a replay (R264). -/
def State.sendNotice (s : State) (cause : Nat) : State :=
  { s with dlv := { s.dlv with urgent := s.dlv.urgent ++ List.replicate 4 ⟨beBytes 1 0x28 ++ beBytes 1 cause ++ beBytes 14 0, s.tick⟩ } }

/-- RESET_WARNING: this die (`own`) or the peer's is warned of a reset or a clock stop (R264). -/
def execResetWarning (own clock : Bool) (s : State) : Host.Outcome State Fault Refusal :=
  done s (
    if own then
      if s.link = 4 || s.link == 5 then
        let s := s.sendNotice (if clock then 2 else 1)
        { s with dlv := { s.dlv with idleOnly := true }, isl := { s.isl with warned := true } }
      else s
    else if s.far then s
    else s.setB ISL_PEERDIE_WARN true)

/-- PEER_DIE_RST_CHANGE (R263): a Far instance has no such input (R269). The warning ends with the reset. -/
def execPeerDieRstChange (v : Bool) (s : State) : Host.Outcome State Fault Refusal :=
  done s (if s.far then s else
    let s := s.setB ISL_PEERDIE_RST v
    if v then s.enterHold 1 else s.setB ISL_PEERDIE_WARN false)

/-- PEER_CLKOK_CHANGE (R263). -/
def execPeerClkokChange (v : Bool) (s : State) : Host.Outcome State Fault Refusal :=
  done s (if s.far then s else
    let s := s.setB ISL_PEERDIE_CLKOK v
    if v then s.setB ISL_PEERDIE_WARN false else s.enterHold 2)

/-- HOLD-NOTICE arrives, whatever its cause (R264). -/
def State.onNotice (s : State) : State := s.enterHold 3

/-- HOLD_NOTICE_RECEIVE (R263, R264). -/
def execHoldNoticeReceive (_cause : Byte) (s : State) : Host.Outcome State Fault Refusal := done s s.onNotice

/-- SILENCE_TIMEOUT: every mapped lane has been silent for `SILENCE` × 64 ticks (R263). -/
def execSilenceTimeout (s : State) : Host.Outcome State Fault Refusal :=
  done s (if !(s.link == 4 || s.link == 5 || s.link == 6) then s else
    let s := s.setF ISL_STATUS_LANE_LOCK (maskOf ((onesOf (s.getF ISL_STATUS_LANE_LOCK)).filter (fun l => !s.mapList.contains l)))
    s.enterHold 4)

/-- HOLD_EXPIRY: `HOLDTIME` × 1,024 ticks pass in Hold (R266). -/
def execHoldExpiry (s : State) : Host.Outcome State Fault Refusal :=
  done s (if s.link != 7 then s else
    ((s.advanceTo (s.isl.holdAt + 1024 * max 1 (s.getF ISL_HOLD_HOLDTIME))).count CNT_HOLD_EXPIRE).linkDown 0x0B)

/-! ### Sensors, R50 and R271 -/

/-- LOSS_OF_SIGNAL: the optical engine reports loss of input on a lane, or its return (R50, R277). -/
def execLossOfSignal (lane : Fin 18) (lost : Bool) (s : State) : Host.Outcome State Fault Refusal :=
  done s (if !s.far || !s.lanes.contains lane.val then s else
    let s := s.setB (LANE_STATUS_LOS lane) lost
    if lost then s.probation lane 5 else s)

/-- SUPPLY_DROOP: a dip of the lane supply (R271); the histogram takes the rise at each checkpoint (R288). -/
def execSupplyDroop (s : State) : Host.Outcome State Fault Refusal := done s (s.count CNT_DROOP)

end Sys2Proof.Machine
end

