-- ==== Sys2Proof/Machine/Start.lean ====
section
/-! DEFINITION. The start stages that no other event passes (R296, R297), the interconnect checks of T4 and T5 (R305, R306), Service (R8, R272),
and detection repeated at an empty site (R19). -/

namespace Sys2Proof.Machine

/-! ### Service and repeated detection -/

/-- `SERVICE` is written in T9: the instance enters T10 and is Sealed, and `AGE_NEXT` is set where it is zero (R8, R272, R296). A schedule that
was refused leaves T9 failed in the START record. -/
def State.enterService (s : State) : State :=
  if !s.starting || s.stage != 9 then s else
  let s := if s.getF (START_OUT_OUT 9) = 2 then s else s.stageOut 9 0
  let s := ((s.setF START_STATUS_STAGE 10).stageOut 10 0).setB ID_SEAL_SEALED true
  let s := if s.getW AGE_NEXT = 0 then s.putW AGE_NEXT ((s.tick + 2 ^ 38) % 2 ^ 64) else s
  s.endStart 0 0

/-- START_CTRL_SERVICE (R296). -/
def execStartCtrlService (s : State) : Host.Outcome State Fault Refusal := done s (s.regCmd START_CTRL (s.rd START_CTRL ||| 4) State.enterService)

/-- At an empty site T4 is repeated: the start is in progress again (R19). -/
def State.detectAgain (s : State) : State :=
  if !s.getB LINK_STATUS_EMPTY then s else
  let s := s.setFs [(LINK_STATUS_EMPTY, 0), (START_STATUS_RESULT, 15)]
  ({ s with strt := { s.strt with done := false, recorded := false, stageAt := s.now } }).stageEnter 4

/-- START_CTRL_DETECT (R19). -/
def execStartCtrlDetect (s : State) : Host.Outcome State Fault Refusal := done s (s.regCmd START_CTRL (s.rd START_CTRL ||| 1) State.detectAgain)

/-! ### Stages -/

/-- STAGE_ADVANCE: what a stage waits for has come. T0 passes with the clocks, T1 with the last crossing, T2 with image and restore, T3 with SB, T7
with credits and loop, T8 with the synchronised die; T4–T6 pass with their own events and T9 with `SERVICE`. `step` is the step by which the parent
instance of the die synchronises the counter that they share (R139, R142). -/
def execStageAdvance (step : Option (BitVec 64)) (s : State) : Host.Outcome State Fault Refusal :=
  done s (
    match (if s.clockRuns && !s.getB TIME_STATUS_SYNCED && !s.getB TIME_CTRL_MASTER then step else none) with
    | some d => s.stepDie d
    | none =>
      if !s.starting || !s.clockRuns then s
      else if s.stage = 0 then s.clocksOn.stagePass 0 0
      else if s.stage = 1 then s.crossingsOpen
      else if s.stage = 2 then s.passT2
      else if s.stage = 3 then (s.setFs [(LANE_STATUS_STATE 18, 3), (LANE_STATUS_MODE 18, 3)]).stagePass 3 0
      else if s.stage = 7 then (if s.getB DLV_STATUS_INITDONE && s.getB DLV_LOOP_VALID then s.stagePass 7 0 else s)
      else if s.stage = 8 then (if s.getB TIME_STATUS_SYNCED then s.stagePass 8 0 else s)
      else s)

/-- STAGE_TIMEOUT: the current stage reaches its limit and fails with its code, or passes by its other path (R296). T4–T6 have their own limits; T7
and T9 have none. -/
def execStageTimeout (s : State) : Host.Outcome State Fault Refusal :=
  let to_ (n : Nat) : State := s.advanceTo (s.strt.stageAt + n)
  done s (
    if !s.starting then s
    else if s.stage = 0 then (to_ (2 ^ 16)).startFail 0x81
    else if s.stage = 1 then (if s.getF ISL_XING_RESYNC = 0 then s else (to_ (2 ^ 12)).startFail 0x82)
    else if s.stage = 2 then
      (to_ (2 ^ 31)).startFail (if s.getB LME_STATUS_IMGOK then 0x85 else if s.lme.badSeen then 0x84 else 0x83)
    else if s.stage = 3 then ((to_ (2 ^ 22)).setB START_STATUS_SBABSENT true).stagePass 3 1
    else if s.stage = 8 then ((to_ (max 1 (s.getF START_LIMIT_T8WAIT) * 2 ^ 24)).setB START_STATUS_UNSYNCED true).stagePass 8 1
    else s)

/-! ### The interconnect checks, R305 and R306 -/

/-- The end of the field check: the lanes that failed are excluded and go to Probation, and T4 passes or fails by the lanes left (R306). A check that begins
afresh leaves those of an earlier one as they are (R302). -/
def State.fieldCheckEnds (s : State) : State :=
  ((s.lanes.filter (fun l => bitOf (s.getF START_T4FAIL_LANES) l && !bitOf s.excl l)).foldl
    (fun s l => (((s.exclude (2 ^ l)).setVerdict l 2 6).count CNT_T4_LANE).setLane l 1) s).passT4

/-- T4's checks may run: Detect has ended with lanes that go forward. -/
def State.t4Check (s : State) : Bool := s.starting && s.stage == 4 && s.detected && !s.forward.isEmpty

/-- Steps of the walking ones: every data and spare transmit pair of both ends, or of a Far instance's own, in the manufacturing test (R305); each
lane under check at each end in the field check (R306). -/
def State.walkSteps (s : State) : Nat :=
  if s.getB START_CTRL_MFGDONE then 2 * s.forward.length else if s.far then 5 else 36

/-- The lane of this end whose transmit pair the step in hand drives with 1, if it is one of this end's: the end with the lower instance index drives
first, and a Far instance in its own loopback drives alone (R305). -/
def State.walkDriven (s : State) : Option Nat :=
  let own := if s.getB START_CTRL_MFGDONE then s.forward else s.lanes
  let first := s.far || (match peerIndex s.place with | some p => decide (s.place < p) | none => true)
  if first then own[s.strt.walk]? else if s.strt.walk < own.length then none else own[s.strt.walk - own.length]?

/-- What a lane transmits (R29). -/
inductive LaneSends where
  /-- Powered down, or at electrical idle. -/
  | nothing
  /-- Its share of the flit stream. -/
  | flits
  /-- The 8 UI square wave of R52. -/
  | square
  /-- A static level of the walking ones (R305). -/
  | level (one : Bool)
  /-- PRBS31, with training blocks between on a Far instance (R110, R129). -/
  | prbs31
  /-- The pattern of a code of `LANE_PAT.PATTERN`. -/
  | pattern (code : Nat)
  deriving DecidableEq, Repr

/-- What a lane transmits by its state, the link's, and the pattern that runs on it: the square wave in Detect (R113) and in the gap of a rate-lower
Shift (R126), a static level in the interconnect check of T4, which a Far field check makes with PRBS31 (R305, R306), otherwise PRBS31 where it trains or is
measured. -/
def State.laneSends (s : State) (l : Nat) : LaneSends :=
  let st := s.laneState l
  if st = 3 then (if s.lnk.gap then .square else .flits)
  else if st = 2 || st == 4 then
    (if s.getB (LANE_PAT_RUN l) then .pattern (s.getF (LANE_PAT_PATTERN l))
     else if s.t4Check && !(s.far && s.getB START_CTRL_MFGDONE) then .level (s.walkDriven == some l)
     else if s.link = 1 && !s.t4Check then .square else .prbs31)
  else .nothing

/-- The SB toggle of the manufacturing test on a Near instance: 1,024 toggles, then 1,024 frames of type 0x01 with 1,024-byte payloads (R305). -/
def State.sbToggle (s : State) : State := if s.far then s else s.emit (.sbTest 1024 1024 1024)

/-- WALKING_ONES_STEP: one step of 4,096 ticks ends, with the lanes at which it failed; bit 18 stands for the SB toggle, which runs with the last
step. The field check's first step begins 16,384 ticks after Detect (R305, R306). A Far field check has no such step. -/
def execWalkingOnesStep (bad : BitVec 24) (s : State) : Host.Outcome State Fault Refusal :=
  let mfg := !s.getB START_CTRL_MFGDONE
  done s (
    if !s.t4Check || (!mfg && s.far) then s else
    let n := s.walkSteps
    let fwd := s.forward
    let s := s.elapse (4096 + (if !mfg && s.strt.walk == 0 then 16384 else 0))
    let s := if mfg && s.strt.walk + 1 == n then s.sbToggle else s
    let fails := bad.toNat &&& (if mfg then maskOf s.lanes else maskOf fwd)
    let s := s.setF START_T4FAIL_LANES (s.getF START_T4FAIL_LANES ||| fails)
    let s := { s with strt := { s.strt with walk := s.strt.walk + 1 } }
    if mfg && (fails != 0 || (!s.far && bitOf bad.toNat 18)) then s.startScrap 0x86
    else if s.strt.walk < n then s
    else if mfg then s.passT4
    else s.fieldCheckEnds)

/-- MFG_PRBS_END: a PRBS31 test ends. The Far field check counts errored bytes of the lanes under check and lets one pass (R306); the manufacturing
test of T5 counts bits in error of each lane and lets none pass; a lane that Detect did not take forward is one that failed (R305). -/
def execMfgPrbsEnd (errs : PrbsEnd) (s : State) : Host.Outcome State Fault Refusal :=
  let fwd := s.forward
  let mine := (s.lanes.zip errs.counts).filter (fun p => fwd.contains p.1)
  done s (
    if s.t4Check && s.far && s.getB START_CTRL_MFGDONE then
      let s := mine.foldl (fun s p => s.prbsErrs p.1 p.2) s
      let fails := maskOf ((mine.filter (fun p => decide (1 < p.2))).map (·.1))
      (s.setF START_T4FAIL_LANES (s.getF START_T4FAIL_LANES ||| fails)).fieldCheckEnds
    else if s.link = 2 && !s.getB START_CTRL_MFGDONE && !s.lnk.passSent && s.strt.eyes.isNone then
      let s := (mine.foldl (fun s p => if s.getB (LANE_PAT_LOCK p.1) then s.bump (LANE_PRBS_ERR_COUNT p.1) p.2 else s) s).setInverted errs.inverted.toNat
      let fails := maskOf (((mine.filter (fun p => p.2 != 0)).map (·.1)) ++ s.lanes.filter (fun l => !fwd.contains l))
      if fails != 0 then s.mfgFails fails else (s.sendResult s.lnk.eqMode (maskOf fwd)).modeChoice
    else s)

end Sys2Proof.Machine
end

