-- ==== Sys2Proof/Machine/Firewall.lean ====
section
/-! DEFINITION. The guest firewall of HG0 and HG1 (R237–R247): windows, remapping, violations, quarantine, and the commands that act on it. -/

namespace Sys2Proof.Machine

/-- Quarantine is entered (R245, R238). -/
def State.quarantineOn (s : State) : State :=
  if s.getB FW_CTRL_QUAR then s else ((s.setB FW_CTRL_QUAR true).setB FW_CTRL_DBG_UNLOCK false).raise 0x0902

/-- Quarantine ends and the count is cleared (R245, R246). -/
def State.quarantineOff (s : State) : State := s.setFs [(FW_CTRL_QUAR, 0), (FW_VIOL_COUNT, 0)]

/-- A violation (R244); the one that reaches `QLIMIT` begins quarantine, which the other instance shares (R245, R246). -/
def State.violation (s : State) (reason : Nat) (m : List Pip) : State :=
  let h := msgHead m
  let s := (s.bump FW_VIOL_COUNT).setFs [(FW_LAST_REASON, reason), (FW_LAST_CHAN, h.chan), (FW_LAST_OP, h.op)]
  let s := if h.chan = 0 then s.putW FW_LAST_GA (msgGa m) else s
  let quiet := match s.violAt with | some t => decide (s.now < t + 2 ^ 20) | none => false
  let s := if quiet then s else ({ s with violAt := some s.now }).raise 0x0901
  let lim := s.getF FW_CTRL_QLIMIT
  if lim != 0 && decide (lim ≤ s.getF FW_VIOL_COUNT) && !s.getB FW_CTRL_QUAR then (s.quarantineOn).emit (.quarantine true) else s

/-- A word of an address window (R240). -/
def State.fwWord (s : State) (w k : Nat) : Nat := (s.fw.get (4 * w + k)).toNat

/-- A window grants a request for a GA: `bit` is the place of its permission (R240). -/
def State.grants (s : State) (w bit ga : Nat) : Bool :=
  let a := s.fwWord w 0
  let o := bitsOf ga 16 32
  bitOf a 31 && bitOf a bit && bitsOf a 26 2 == gaSpace ga && bitsOf a 17 9 == gaPod ga && bitsOf a 12 5 == gaDie ga
    && decide (s.fwWord w 1 ≤ o ∧ o ≤ s.fwWord w 2)

/-- Some window grants the request. -/
def State.granted (s : State) (bit ga : Nat) : Bool :=
  ((s.fw.filter (fun e => e.1 % 4 == 0)).map (fun e => e.1 / 4)).any (fun w => s.grants w bit ga)

/-- A REQ that is refused is answered (R237). -/
def State.denyReq (s : State) (m : List Pip) : State :=
  if (msgHead m).chan = 0 then s.queueMsg (msgReqErr 2 (msgHead m).tag (msgOw m)) false else s

/-- The check of R237: the message that is delivered, if any, and the state. -/
def State.firewall (s : State) (m : List Pip) : Option (List Pip) × State :=
  let h := msgHead m
  let ow := msgOw m
  if s.getB FW_CTRL_QUAR then (none, (s.count CNT_FW_QDROP).denyReq m)
  else if !bitOf (s.getF FW_CHAN_ALLOW) h.chan || h.chan == 2 then (none, s.violation 1 m)
  else if h.chan = 4 && !s.getB FW_CTRL_DBG_UNLOCK then (none, s.violation 2 m)
  else if carriesOw m && (owPod ow != s.pod_ || owDie ow != 0x14) then (none, (s.violation 3 m).denyReq m)
  else if carriesOw m && !bitOf (s.getF (FW_GUESTVI_VIS (owVi ow / 32))) (owVi ow % 32) then (none, (s.violation 4 m).denyReq m)
  else if carriesOw m && s.staleOw ow then (none, s.count CNT_VI_STALE)
  else if h.chan = 0 && (h.op == 1 || h.op == 3 || h.op == 4) && !s.granted (if h.op = 1 then 30 else 29) (msgGa m) then
    (none, (s.violation 5 m).denyReq m)
  else if h.chan = 3 && h.op == 1 then
    let g := bitsOf (msgWord m) 16 16
    if g ≤ 0xFF && s.getB (FW_IRQMAP_VALID g) then
      (some (msgInterrupt (s.getF (FW_IRQMAP_VECTOR g)) (s.getF (FW_IRQMAP_HOST g)) ow), s)
    else (none, s.violation 6 m)
  else if h.chan = 3 then (none, s.violation 7 m)
  else (some m, s)

/-! ### Commands -/

/-- Write `DBG_UNLOCK` (R238). -/
def State.dbgWrite (s : State) (on : Bool) : State :=
  let s := s.setB FW_CTRL_DBG_UNLOCK on
  if on then (s.raise 0x0903).recDbg else s

/-- FW_CTRL_DBG_UNLOCK (R238). -/
def execFwCtrlDbgUnlock (s : State) : Host.Outcome State Fault Refusal := done s (if s.guestEdge then s.regCmd FW_CTRL (s.rd FW_CTRL ||| 2 ^ 29) (State.dbgWrite · true) else s)

/-- `QCLEAR`: in both instances (R246). -/
def State.qclear (s : State) : State := s.quarantineOff.emit (.quarantine false)

/-- FW_CTRL_QCLEAR (R246). -/
def execFwCtrlQclear (s : State) : Host.Outcome State Fault Refusal := done s (if s.guestEdge then s.regCmd FW_CTRL (s.rd FW_CTRL ||| 2 ^ 30) State.qclear else s)

/-- QUARANTINE_PROPAGATE: the other instance has entered or left quarantine (R246). -/
def execQuarantinePropagate (quar : Bool) (s : State) : Host.Outcome State Fault Refusal :=
  done s (if !s.guestEdge then s else if quar then s.quarantineOn else s.quarantineOff)

/-- The bits of a window's word that are not Zero (R240, R5). -/
def fwMask (k : Nat) : Word := if k = 0 then 0xEFFFF000 else if k = 3 then 0 else 0xFFFFFFFF

/-- Four words replace a window (R241). -/
def State.fwPut (s : State) (w : Nat) (l : List Nat) : State :=
  { s with fw := s.fw.setAll ((List.range 4).map (fun k => (4 * w + k, BitVec.ofNat 32 (l.getD k 0) &&& fwMask k))) }

/-- `FW_WIN_SEL` with `COMMIT` (R241). -/
def State.fwCommit (s : State) (w : Nat) : State :=
  (s.setF FW_WIN_SEL_INDEX w).fwPut w ((List.range 4).map (fun k => s.getF (FW_WIN_D_WORD k)))

/-- FW_WIN_SEL_COMMIT (R241). -/
def execFwWinSelCommit (index : BitVec 12) (s : State) : Host.Outcome State Fault Refusal :=
  done s (if s.guestEdge then s.regCmd FW_WIN_SEL (2 ^ 31 + index.toNat) (State.fwCommit · index.toNat) else s)

/-- `FW_WIN_SEL` with `READ` (R241). -/
def State.fwLoad (s : State) (w : Nat) : State :=
  (List.range 4).foldl (fun t k => t.setF (FW_WIN_D_WORD k) (s.fwWord w k)) (s.setF FW_WIN_SEL_INDEX w)

/-- FW_WIN_SEL_READ (R241). -/
def execFwWinSelRead (index : BitVec 12) (s : State) : Host.Outcome State Fault Refusal :=
  done s (if s.guestEdge then s.regCmd FW_WIN_SEL (2 ^ 30 + index.toNat) (State.fwLoad · index.toNat) else s)

end Sys2Proof.Machine
end

