-- ==== Sys2Proof/Machine/Forward.lean ====
section
/-! DEFINITION. STRETCH and GEN-NOTICE forwarded over a Far link: the answer, the repeat and its limit (R161, R233). -/

namespace Sys2Proof.Machine

/-- The answer of a forwarded message is here: its command ends `OK` (R328). -/
def State.onForwardAnswer (s : State) (body : List Byte) : State :=
  let r := s.fwdDone body
  match r.1 with
  | none => s
  | some f => r.2.wvReply f.h f.opc 0 [] false

/-- Unanswered messages of one type are sent again; after 64 sends they stop, and their commands end `TIMEOUT` (R161, R233). -/
def State.repeatForwards (s : State) (lctype : Nat) : State :=
  let mine (f : Fwd) : Bool := f.body.head? == some (BitVec.ofNat 8 lctype)
  let lost := s.tim.fwds.filter (fun f => mine f && decide (64 ≤ f.sends))
  let live := s.tim.fwds.filter (fun f => !(mine f && decide (64 ≤ f.sends)))
  let s := { s with tim := { s.tim with fwds := live.map (fun f => if mine f then { f with sends := f.sends + 1 } else f) } }
  let s := (live.filter mine).foldl (fun s f => s.queueLc f.body) s
  lost.foldl (fun s f => (s.raise 0x0309).wvReply f.h f.opc 0x0E [] false) s

/-- STRETCH arrives: a request of the peer's hub or the answer to this end's (R161). -/
def State.onStretchMsg (s : State) (m : StretchMsg) : State :=
  if m.got then s.onForwardAnswer (stretchBody false m.lower m.k.toNat m.seq.toNat m.origin.toNat m.e.toNat) else s.onStretch m

/-- STRETCH_RECEIVE (R161). -/
def execStretchReceive (m : StretchMsg) (s : State) : Host.Outcome State Fault Refusal := done s (s.hear.onStretchMsg m)

/-- STRETCH_REPEAT: every 64 flit times (R161). -/
def execStretchRepeat (s : State) : Host.Outcome State Fault Refusal := done s (s.repeatForwards 0x26)

/-- GEN-NOTICE arrives (R233). -/
def State.onGenMsg (s : State) (m : GenMsg) : State :=
  if m.got then s.onForwardAnswer (genBody false m.origin.toNat m.vi.toNat m.gen.toNat m.nseq.toNat) else s.onGen m

/-- GEN_NOTICE_RECEIVE (R233). -/
def execGenNoticeReceive (m : GenMsg) (s : State) : Host.Outcome State Fault Refusal := done s (s.hear.onGenMsg m)

/-- GEN_NOTICE_REPEAT: every 64 flit times (R233). -/
def execGenNoticeRepeat (s : State) : Host.Outcome State Fault Refusal := done s (s.repeatForwards 0x27)

end Sys2Proof.Machine
end

