-- ==== Sys2Proof/Machine/Turn.lean ====
section
/-! DEFINITION. The fit check (R164) with the lag model of R159, and arming and halting a schedule (R165). -/

namespace Sys2Proof.Machine

/-! ### The lag of a direction, R159 -/

/-- Scheduled ticks of the stream flits of a direction over two passes of the cycle, from tick 0, with the base flit time `bft`, Round length
`len` and Stretch `k`; `runs c` is the list of program `c` of `n`. -/
def sigmas (runs : Nat → List Run) (n bft len k : Nat) : List Nat :=
  (List.range (2 * n)).flatMap (fun i =>
    ((runs (i % n)).filter Run.isStream).flatMap (fun r =>
      (List.range r.len).map (fun j => i * (len * (16 + k) / 16) + stretched ((r.off + j) * bft) k)))

/-- `worst` of R159 in units of 1/`den` ticks for the flit time `num`/`den`. -/
def worstLag (num den : Nat) (l : List Nat) : Nat :=
  (l.foldl (fun (p : Option Nat × Nat) t =>
    let a := match p.1 with | none => t * den | some a => max (t * den) (a + num)
    (some a, max p.2 (a - t * den))) (none, 0)).2

/-- The peak number of flits held at once, in times of 1/`den` ticks: they leave the peer in the order and spacing of R159 at a flit time of
`num`, each arrives `one` later and is held until its due tick, `decl` ticks after its scheduled one (R164 row 0x05; log entry 35). -/
def peakHeld (num den one decl : Nat) (l : List Nat) : Nat :=
  (l.foldl (fun (p : Option Nat × List Nat × List Nat × Nat × Nat) t =>
    -- p: the last to leave; due times not yet counted out, oldest first and newest first; how many are held; the peak
    let a := match p.1 with | none => t * den | some a => max (t * den) (a + num)
    let q := if p.2.1.isEmpty then (p.2.2.1.reverse, []) else (p.2.1, p.2.2.1)
    let gone := (q.1.takeWhile (fun x => decide (x ≤ a + one))).length
    let n := p.2.2.2.1 + 1 - gone
    (some a, q.1.drop gone, (t + decl) * den :: q.2, n, max p.2.2.2.2 n)) (none, [], [], 0, 0)).2.2.2.2

/-! ### The fit check, R164 -/

/-- The entry reader of the fit check: frames for the resident pages, `deck` for the Deck pages (R149, R155). -/
def State.checkEntry (s : State) (deck : List (List Word)) (i : Nat) : Nat :=
  let p := i / pageEntries s.place
  if s.getF TURN_DECK_NDECK = 0 || p < 14 then (if p < 16 then (s.trn.frames.get (8192 * p + i % pageEntries s.place)).toNat else 0)
  else ((deck.getD (p - 14) []).getD (i % pageEntries s.place) 0).toNat

/-- Pages of the image (R149, R155). -/
def State.imagePages (s : State) : Nat := if s.getF TURN_DECK_NDECK = 0 then 16 else 14 + s.getF TURN_DECK_NDECK

/-- Programs of the cycle. -/
def State.cycle (s : State) : Nat := s.getF TURN_LEN_CYCLE + 1

/-- Entry index at which a list starts. -/
def State.dirStart (s : State) (tx : Bool) (c : Nat) : Nat := s.getF (if tx then TURN_DIR_TX_START c else TURN_DIR_RX_START c)
/-- The directory entry is `VALID`. -/
def State.dirValid (s : State) (tx : Bool) (c : Nat) : Bool := s.getB (if tx then TURN_DIR_TX_VALID c else TURN_DIR_RX_VALID c)
/-- The directory marks the list as a Deck program's. -/
def State.dirDeck (s : State) (tx : Bool) (c : Nat) : Bool := s.getB (if tx then TURN_DIR_TX_DECK c else TURN_DIR_RX_DECK c)

/-- The run list of a program as the fit check reads it; no further than the end of the image. -/
def State.checkRuns (s : State) (deck : List (List Word)) (tx : Bool) (c : Nat) : List Run :=
  readRuns (s.checkEntry deck) s.roundTimes (s.imagePages * pageEntries s.place + 1 - s.dirStart tx c) (s.dirStart tx c) 0

/-- The pages that a list touches: first and last. -/
def State.listPages (s : State) (deck : List (List Word)) (tx : Bool) (c : Nat) : Nat × Nat :=
  let a := s.dirStart tx c
  (a / pageEntries s.place, (a + (s.checkRuns deck tx c).length - 1) / pageEntries s.place)

/-- A result of the fit check: its code and what it concerns, if anything. -/
abbrev FitFail := Nat × Option Nat

/-- Row 0x01 for one program. -/
def State.fitSize (s : State) (deck : List (List Word)) (c : Nat) : Bool :=
  let t := s.listPages deck true c
  let r := s.listPages deck false c
  let ok (v : Bool) (p : Nat × Nat) : Bool := !v || decide (p.2 < s.imagePages)
  let deckOk := s.getF TURN_DECK_NDECK != 0 && decide (14 ≤ t.1) && t == (t.1, t.1) && r == t && s.dirDeck true c && s.dirDeck false c
  let resOk (v : Bool) (p : Nat × Nat) : Bool := !v || s.getF TURN_DECK_NDECK == 0 || decide (p.2 < 14)
  let vt := s.dirValid true c
  let vr := s.dirValid false c
  ok vt t && ok vr r && (if vt && s.dirDeck true c || vr && s.dirDeck false c then deckOk else resOk vt t && resOk vr r)

/-- Row 0x02 for one list: nothing, or what fails. -/
def State.fitFormat (s : State) (deck : List (List Word)) (tx : Bool) (c : Nat) : Option Nat :=
  if !s.dirValid tx c then some c else
  let l := s.checkRuns deck tx c
  if l.any (fun r => r.cls == 0 || decide (4 < r.cls)) || (l.map (·.len)).sum != s.roundTimes then some c
  else
    let st := l.filter Run.isStream
    match st.find? (fun r => decide (1023 < r.stream) || !s.descValid r.stream || s.descRx r.stream == tx
        || streamCount l r.stream != (s.descBytes r.stream + 239) / 240) with
    | some r => some r.stream
    | none => none

/-- Row 0x03 for one list (`CHANS`[6] for STR; `FOLD`[0] for receiving and `FOLD`[1] for sending FLD, R117). -/
def State.fitCaps (s : State) (deck : List (List Word)) (tx : Bool) (c : Nat) : Option Nat :=
  ((s.checkRuns deck tx c).find? (fun r => (r.cls == 1 && !bitOf (s.used 11) 6) || (r.cls == 4 && !bitOf (s.used 12) (if tx then 1 else 0)))).map (·.stream)

/-- The first element of a list of answers that is one. -/
def firstSome {α : Type} (l : List (Option α)) : Option α := (l.filterMap id).head?

/-- Both lists of every program in order. -/
def State.fitLists (s : State) (f : Bool → Nat → Option Nat) : Option Nat :=
  firstSome ((List.range s.cycle).flatMap (fun c => [f true c, f false c]))

/-- Row 0x05 at a width, mode and Stretch: the one-way time is 103 ticks and a flit time on a Near link, half of what `LOOP` leaves after
four ticks on a Far one (R91; log entry 35). -/
def State.fitStrbuf (s : State) (rx : Nat → List Run) (w m k : Nat) : Bool :=
  let f := flitTime w m
  let one := if s.far then (s.getF DLV_LOOP_LOOP - 4) / 2 * f.2 else 103 * f.2 + f.1
  decide (strbufCap s.place < peakHeld f.1 f.2 one s.decl (sigmas rx s.cycle (baseFlit s.place) (s.getF TURN_LEN_LEN) k))

/-- Row 0x06 at a width, mode and Stretch (R159). -/
def State.fitLag (s : State) (tx : Nat → List Run) (w m k : Nat) : Bool :=
  let f := flitTime w m
  decide (s.getF TURN_LAG_BUDGET * f.2 < worstLag f.1 f.2 (sigmas tx s.cycle (baseFlit s.place) (s.getF TURN_LEN_LEN) k) + f.1)

/-- The width, mode and Stretch that rows 0x05 and 0x06 take (R166). -/
def State.fitAt (s : State) : Nat × Nat × Nat :=
  if s.getB TURN_WHATIF_EN then (s.getF TURN_WHATIF_WIDTH, s.getF TURN_WHATIF_MODE, s.getF TURN_WHATIF_K)
  else (s.mapList.length, s.getF LINK_STATUS_MODE, s.k)

/-- The fit check: the first row of R164 that fails. `LEN` is tested first in row 0x02, then the programs in ascending order, TX before RX. -/
def State.fitCheck (s : State) (deck : List (List Word)) : FitFail :=
  let n := s.getF TURN_DECK_NDECK
  let len := s.getF TURN_LEN_LEN
  let a := s.fitAt
  if 16 < n then (1, none) else
  match (List.range s.cycle).find? (fun c => !s.fitSize deck c) with
  | some c => (1, some c)
  | none =>
    if len % 64 != 0 || len < 4096 || 2 ^ 24 < len then (2, none) else
    match s.fitLists (s.fitFormat deck) with
    | some d => (2, some d)
    | none =>
      match s.fitLists (s.fitCaps deck) with
      | some d => (3, some d)
      | none =>
        if s.getF TURN_ASSUME_DECL < s.decl then (4, none)
        else if s.fitStrbuf (s.checkRuns deck false) a.1 a.2.1 a.2.2 then (5, none)
        else if s.fitLag (s.checkRuns deck true) a.1 a.2.1 a.2.2 then (6, none)
        else if n != 0 && len < s.getF TURN_DECK_LIMIT * 256 + 1024 then (7, none)
        else if (max 2 (s.getF TURN_FLOOD_LEAD) - 1) * len < s.getF TURN_FLOOD_FLOOD then (8, none)
        else (0, none)

/-- `ARM` (R165, R296): without a pass, before the die is synchronised, or on a link with the base capability set it changes nothing. -/
def State.arm (s : State) : State :=
  if !s.getB TURN_CHECK_PASS || !s.getB TIME_STATUS_SYNCED || s.getB LINK_STATUS_BASECAP then s.refused TURN_CTRL
  else { s with trn := { s.trn with armed := some (s.getW TURN_START) } }

/-- TURN_CTRL_ARM (R165). -/
def execTurnCtrlArm (s : State) : Host.Outcome State Fault Refusal := done s (s.regCmd TURN_CTRL 8 State.arm)

/-- `HALT` (R165): at the next boundary; while `RUN` is 0 it cancels an armed activation. -/
def State.haltNow (s : State) : State :=
  { s with trn := if s.run then { s.trn with halt := true } else { s.trn with armed := none } }

/-- TURN_CTRL_HALT (R165). -/
def execTurnCtrlHalt (s : State) : Host.Outcome State Fault Refusal := done s (s.regCmd TURN_CTRL 4 State.haltNow)

/-! ### The end of the check -/

/-- FIT_CHECK_END: the check ends, with the Deck pages that it has read from UCS (R164). `DETAIL` is a free value where no program and no
stream is concerned; a pass records the CRC of each Deck page (R156). A LOAD-TURNS command ends (R329). A refusal in T9
marks the stage as failed, and no later pass takes that back (R296). -/
def State.endCheck (s : State) (deck : List (List Word)) : State :=
  if !s.trn.checking then s else
  let r := s.fitCheck deck
  let d := match r.2 with | some d => d | none => s.freeNow.toNat
  let s := if r.1 != 0 && r.2.isNone then s.takeFree else s
  let s := { s with trn := { s.trn with checking := false, deck := deck.take (s.getF TURN_DECK_NDECK) } }
  let s := s.setFs [(TURN_CHECK_DONE, 1), (TURN_CHECK_PASS, if r.1 = 0 then 1 else 0), (TURN_CHECK_RESULT, r.1)]
  let s := if s.stage = 9 && !s.strt.done && r.1 != 0 then s.setF (START_OUT_OUT 9) 2 else s
  if r.1 = 0 then
    let crcs := (deck.take (s.getF TURN_DECK_NDECK)).map (fun p =>
      BitVec.ofNat 32 (crc32 (((List.range (pageEntries s.place)).map (fun i => p.getD i 0)).flatMap (fun w => beBytes 4 w.toNat))))
    let s := { s with trn := { s.trn with crcs := crcs } }
    let arm := s.lme.runs.any (fun r => r.opc == 0x30 && r.arg == 1)
    let ok := s.getB TIME_STATUS_SYNCED
    let s := if arm && ok then s.arm else s
    s.runEnds 0x30 (if arm && !ok then 5 else 0) (beBytes 4 (s.rd TURN_CHECK))
  else
    let s := s.setF TURN_CHECK_DETAIL d
    s.runEnds 0x30 0x10 (beBytes 4 (s.rd TURN_CHECK))

/-- FIT_CHECK_END (R164). -/
def execFitCheckEnd (deck : List (List Word)) (s : State) : Host.Outcome State Fault Refusal := done s (s.endCheck deck)

end Sys2Proof.Machine
end

