-- ==== Sys2Proof/Machine/Rx.lean ====
section
/-! DEFINITION. Receiving a flit: decoding (R39), classification (R79, R80), messages (R60–R64, R73, R99), stream flits (R65) and link-control
messages (R123). -/

namespace Sys2Proof.Machine

/-! ### Messages -/

/-- A message is complete: at HG0 and HG1 it passes the firewall (R237); then it waits for delivery. -/
def State.msgDone (s : State) (m : List Pip) : State :=
  let c := (msgHead m).chan
  let s := { s with dlv := { s.dlv with part := [], due := 0, accepted := s.dlv.accepted + 1 } }
  let keep (s : State) (m : List Pip) : State :=
    { s with dlv := { s.dlv with rx := s.dlv.rx ++ [⟨c, m, s.dlv.accepted, s.trn.acceptedStr, s.now⟩] } }
  if s.guestEdge then
    match s.firewall m with
    | (some m', s) => keep s m'
    | (none, s) => s.freeHeld c m.length
  else keep s m

/-- A message is discarded at its head: this pip and those that follow are freed as they come (R73, R99). -/
def State.skipMsg (s : State) (p : Pip) : State :=
  let h := headOf p
  let s := if h.chan ≤ 5 then s.owe h.chan 1 else s
  if h.pips = 1 then s else { s with dlv := { s.dlv with part := [p], due := h.pips - 1, skip := true } }

/-- A slot in which a message may begin: the checks of R63, R73 and R99. -/
def State.rxHead (s : State) (p : Pip) : State :=
  let h := headOf p
  if h.chan = 15 then (if h.pips = 1 then s else s.count CNT_MSG_BAD)
  else if 5 < h.chan then ((s.count CNT_MSG_BAD).raise 0x0207).skipMsg p
  else match opPips h.chan h.op with
    | none =>
      if h.chan = 0 then ((s.count CNT_MSG_BAD).queueMsg (msgReqErr 4 h.tag (p.toNat % 2 ^ 32)) false).skipMsg p
      else ((s.count CNT_MSG_BAD).raise 0x0207).skipMsg p
    | some n =>
      if n != 0 && n != h.pips then ((s.count CNT_MSG_BAD).raise 0x0207).skipMsg p
      else
        let held := s.getF (DLV_RXBUF_HELD h.chan)
        if rxCap s.place h.chan < held + h.pips then ((s.count CNT_CR_OVER).raise 0x0204).skipMsg p
        else
          let s := s.setF (DLV_RXBUF_HELD h.chan) (held + 1)
          if h.pips = 1 then s.msgDone [p] else { s with dlv := { s.dlv with part := [p], due := h.pips - 1, skip := false } }

/-- One slot of a message flit (R61). -/
def State.rxPip (s : State) (p : Pip) : State :=
  match s.dlv.part with
  | [] => s.rxHead p
  | h :: r =>
    let c := (headOf h).chan
    let n := s.dlv.due - 1
    if s.dlv.skip then
      let s := if c ≤ 5 then s.owe c 1 else s
      { s with dlv := { s.dlv with due := n, part := if n = 0 then [] else s.dlv.part, skip := n != 0 } }
    else
      let s := s.setF (DLV_RXBUF_HELD c) (s.getF (DLV_RXBUF_HELD c) + 1)
      if n = 0 then s.msgDone (h :: r ++ [p]) else { s with dlv := { s.dlv with due := n, part := h :: r ++ [p] } }

/-- The partly received message is discarded, and the credit of all its pips is owed (R62). -/
def State.dropPart (s : State) : State :=
  match s.dlv.part with
  | [] => s
  | h :: r =>
    let c := (headOf h).chan
    let s' := if s.dlv.skip then s else s.freeHeld c (r.length + 1)
    let s' := if c ≤ 5 then s'.owe c s.dlv.due else s'
    { s' with dlv := { s'.dlv with part := [], due := 0, skip := false } }

/-- The slots of an accepted message flit (R62). -/
def State.rxSlots (s : State) (fh : Nat) (slots : List Pip) : State :=
  if fh = min 15 s.dlv.due then slots.foldl State.rxPip s
  else (slots.drop fh).foldl State.rxPip ((s.dropPart.count CNT_FRAME_ERR).raise 0x0206)

/-! ### Link control, R123 -/

/-- A LANE-EQ message (R133). One whose `OP` is above 0x6 has no effect (DESIGN CHOICE, log entry 132). -/
def State.onLaneEq (s : State) (l : List Byte) : State :=
  let r := byteAt l 1
  let x := byteAt l 2
  let v := readVals l 4
  if 18 ≤ x then s
  else if byteAt l 3 = 0 then s.onPrep r x
  else if byteAt l 3 = 1 then s.onSet r x v
  else if byteAt l 3 = 2 then s.onSetDone r x v
  else if byteAt l 3 = 3 then s.onQual x
  else if byteAt l 3 = 4 then s.laneFails x
  else if byteAt l 3 = 5 then s.onMeasure r x
  else if byteAt l 3 = 6 then s.onRelease r x
  else s

/-- A link-control message, from `LCTYPE` on. Arrival times are whole ticks with free sixteenths (log entry 32). -/
def State.onLinkControl (s : State) (l : List Byte) : State :=
  let t := byteAt l 0
  if t = 0x21 then s.onShiftReq (readShift l)
  else if t = 0x22 then s.onShiftAck (readShift l)
  else if t = 0x23 then s.onRetrain (byteAt l 1)
  else if t = 0x24 then s.onLaneEq l
  else if t = 0x25 then
    let r := readSync l (16 * s.tick + s.freeNow.toNat % 16)
    if r.1 then s.takeFree.onSyncReply r.2 else s.takeFree.onSyncReq r.2
  else if t = 0x26 then s.onStretchMsg (readStretch l)
  else if t = 0x27 then s.onGenMsg (readGen l)
  else if t = 0x28 then s.onNotice
  else if t = 0x29 then (if byteAt l 1 = 1 then s.onEcho (byteAt l 2) (bytesAt l 4 2) else s.onProbe (byteAt l 2))
  else if t = 0x41 then s.onInit (readCredit l)
  else if t = 0x42 then s.onTally (readCredit l)
  else s.count CNT_LC_UNKNOWN

/-! ### Flits, R79 and R80 -/

/-- The tick of an acceptance, and `RXSEQ` before the first of that tick (R82). -/
def State.noteAccept (s : State) : State :=
  if s.dlv.acc.map (·.1) == some s.now then s else { s with dlv := { s.dlv with acc := some (s.now, s.getF DLV_SEQ_RXSEQ) } }

/-- A payload flit is accepted in sequence (R80, R97). -/
def State.acceptPayload (s : State) (h : Hdr) (flit : List Byte) : State :=
  let s := s.noteAccept.setFs [(DLV_SEQ_RXSEQ, h.seq), (DLV_STATUS_RWAIT, 0)]
  let passed := s.dlv.rseqPassed || h.seq == (s.dlv.peerRseq.toNat + 1) % 2 ^ 16
  let s := { s with dlv := { s.dlv with rseqPassed := passed } }
  let s := s.applyAckNak h.ack h.nak
  let s := if h.kind = 3 && !passed then s else s.applyCredit h.cch h.cpips
  if h.strm then s.bindStream ((flit.drop 8).take 240) else s.rxSlots h.firsthead (flitSlots flit)

/-- A flit with a good CRC (R80). -/
def State.onFlit (s : State) (flit : List Byte) : State :=
  let h := hdrOf (bytesAt flit 0 8)
  let s := if h.beat then s.onBeat else s
  if h.kind = 1 then (s.applyAckNak h.ack h.nak).applyCredit h.cch h.cpips
  else if h.kind = 2 then ((s.applyAckNak h.ack h.nak).applyCredit h.cch h.cpips).onLinkControl ((flit.drop 8).take 240)
  else
    let d := (h.seq + 2 ^ 17 - (s.getF DLV_SEQ_RXSEQ + 1)) % 2 ^ 16
    if d = 0 then s.acceptPayload h flit
    else if d < 0x8000 then ((s.count CNT_OOS).enterWait).applyAckNak h.ack h.nak
    else (s.count CNT_DUP).applyAckNak h.ack h.nak

/-- A flit is discarded as a CRC failure (R80, R81). -/
def State.crcFails (s : State) : State := (s.count CNT_CRC_FAIL).enterWait

/-- The corrected symbols of a decoded codeword are charged to the lanes that carried them (R39, R40). -/
def State.charge (s : State) (fixed : List Nat) : State :=
  let m := s.lnk.rxMap
  fixed.foldl (fun s j =>
    let l := m.getD (wirePos (max 1 m.length) s.lnk.fRx j) 0
    if s.lanes.contains l then s.putW (LANE_FECCORR l) (min (2 ^ 48 - 1) (s.getW (LANE_FECCORR l) + 1)) else s) s

/-- The receiver's place in its flit groups moves on (R38, R122). -/
def State.rxGroup (s : State) : State :=
  let n := groupSize s.lnk.rxMap.length
  if s.lnk.fRx + 1 < n then { s with lnk := { s.lnk with fRx := s.lnk.fRx + 1 } }
  else { s with lnk := { s.lnk with fRx := 0, gRx := s.lnk.gRx + 1 } }

/-- A wire flit arrives (R39). -/
def State.onWire (s : State) (w : BitVec 2176) : State :=
  if !s.linkRuns then s else
  let d := decodeFlit (scramble s.lnk.rxMap s.lnk.gRx s.lnk.fRx (wireBytes w))
  let s := (s.charge d.fixed).rxGroup
  let s := d.hist.foldl (fun s n => s.count (CNT_FEC_HIST n)) s
  let s := s.count CNT_FEC_UNCORR d.uncorr
  match d.flit with
  | none => s.crcFails
  | some f => if crc64 (f.take 248) = bytesAt f 248 8 then s.onFlit f else (s.count CNT_FEC_MISCORR).crcFails

/-- FLIT_RECEIVE: `dt` ticks after the last command a wire flit arrives (R39, R79, R80). While crossing 0 is closed its bytes wait there (R255; log
entry 150). -/
def execFlitReceive (dt : Nat) (wire : BitVec 2176) (s : State) : Host.Outcome State Fault Refusal :=
  done s ((s.elapse dt).through [0] (.flitReceive 0 wire) (·.hear.onWire wire))

end Sys2Proof.Machine
end

