-- ==== Sys2Proof/Machine/Tx.lean ====
section
/-! DEFINITION. Sending a flit (R148): replay (R85, R86), stream flits, link control, message flits with the arbitration of R74, credit
returns (R96), Beats (R143); and messages offered by the core side. -/

namespace Sys2Proof.Machine

/-! ### Headers -/

/-- Pips that can be returned on a channel: the owed count, bounded by the bucket of a capped channel (R96, R243). -/
def State.returnable (s : State) (c : Nat) : Nat :=
  let o := s.getF (DLV_RXBUF_OWED c)
  if s.guestEdge && s.getF (FW_RATE_RATE c) != 0 then min o (s.dlv.buckets.getD c 0) else o

/-- The channel with the largest owed count, the lowest code among equals (R96). -/
def State.mostOwed (s : State) : Nat :=
  (List.range 6).foldl (fun a c => if s.getF (DLV_RXBUF_OWED a) < s.getF (DLV_RXBUF_OWED c) then c else a) 0

/-- The credit return of the next first-time flit: channel, pips and the state with them returned (R96, R101, R243; log entry 36). -/
def State.takeReturn (s : State) : Nat × Nat × State :=
  let c := s.mostOwed
  let n := min 1023 (s.returnable c)
  if !s.getB DLV_STATUS_INITDONE || n = 0 then (15, 0, s)
  else
    let s := s.setF (DLV_RXBUF_OWED c) (s.getF (DLV_RXBUF_OWED c) - n)
    (c, n, { s with dlv := { s.dlv with buckets := listSet s.dlv.buckets c (s.dlv.buckets.getD c 0 - n) } })

/-- The next flit carries a Beat: a boundary has come, and no more than a flit time has passed (R143). -/
def State.beatNow (s : State) : Bool :=
  let f := flitTime s.mapList.length (s.getF LINK_STATUS_MODE)
  s.tim.beatDue && decide ((s.tick - s.b) * f.2 ≤ f.1)

/-- The transmitter's place in its flit groups moves on (R38, R122). -/
def State.txGroup (s : State) : State :=
  let n := groupSize s.mapList.length
  if s.lnk.fTx + 1 < n then { s with lnk := { s.lnk with fTx := s.lnk.fTx + 1 } }
  else { s with lnk := { s.lnk with fTx := 0, gTx := s.lnk.gTx + 1 } }

/-- The `ACK` of a header formed now: `RXSEQ` as the acceptances of earlier ticks left it (R82, R90). -/
def State.ackNow (s : State) : Nat :=
  match s.dlv.acc with
  | some (t, before) => if t = s.now then before else s.getF DLV_SEQ_RXSEQ
  | none => s.getF DLV_SEQ_RXSEQ

/-- The `NAK` of a header formed now: one is due for a failure of an earlier tick (R81, R82). -/
def State.nakNow (s : State) : Bool := s.dlv.nakDue && decide (s.dlv.nakAt < s.now)

/-- The header as sent now: `ACK`, `NAK` and `BEAT` are formed afresh (R82, R86). -/
def State.stampHdr (s : State) (h : Hdr) : Hdr := { h with ack := s.ackNow, nak := s.nakNow, beat := s.beatNow }

/-- A flit leaves (R53, R35–R38). -/
def State.sendFlit (s : State) (h : Hdr) (slots : List Pip) : State :=
  let bytes := scramble s.mapList s.lnk.gTx s.lnk.fTx (encodeFlit (flitBytes (s.stampHdr h).bits slots))
  let n := if s.getB DLV_STATUS_INITDONE then 1 else 0
  let s := (s.emit (.wire (wireOf bytes))).txGroup
  { s with dlv := { s.dlv with nakDue := s.dlv.nakDue && !s.nakNow, flits := s.dlv.flits + 1, tally := s.dlv.tally + n, sinceExch := s.dlv.sinceExch + n }
           tim := { s.tim with beatDue := false } }

/-- A header of a first-time flit with a credit return, and the state with it taken. -/
def State.newHdr (s : State) (kind seq : Nat) (strm : Bool) (fh : Nat) : Hdr × State :=
  let r := s.takeReturn
  (⟨seq, 0, r.1, r.2.1, kind, false, strm, false, fh⟩, r.2.2)

/-- An idle flit (R57). -/
def State.sendIdle (s : State) : State :=
  let r := s.newHdr 1 (s.getF DLV_SEQ_TXSEQ) false 15
  r.2.sendFlit r.1 []

/-- A first-time payload flit takes the next `SEQ` and enters the Bank (R55, R84); the ack timer starts with the first entry (R88). -/
def State.sendPayload (s : State) (strm : Bool) (fh : Nat) (slots : List Pip) (pips : List Nat) : State :=
  let seq := (s.getF DLV_SEQ_TXSEQ + 1) % 2 ^ 16
  let r := s.newHdr 0 seq strm fh
  let s := r.2.setF DLV_SEQ_TXSEQ seq
  let e : BankEntry := ⟨BitVec.ofNat 64 (s.stampHdr r.1).bits, slots, pips⟩
  let s := if s.dlv.bank.isEmpty then { s with dlv := { s.dlv with ackAt := s.now } } else s
  let s := { s with dlv := { s.dlv with bank := s.dlv.bank ++ [e] } }
  s.sendFlit r.1 slots

/-! ### Replay, R85 -/

/-- The next replayed flit leaves. -/
def State.sendReplay (s : State) (q : BitVec 16) : State :=
  let i := (q.toNat + 2 ^ 17 - (s.getF DLV_BANK_ACKED + 1)) % 2 ^ 16
  match s.dlv.bank[i]? with
  | none => { s with dlv := { s.dlv with replay := none } }
  | some e =>
    let s := if s.dlv.fresh && s.getB TRACE_CTRL_REPLAY then
        s.trace 5 (beBytes 2 q.toNat ++ beBytes 2 (s.getF DLV_SEQ_TXSEQ) ++ beBytes 1 (if s.dlv.timer then 1 else 0) ++ beBytes 3 0 ++ beBytes 8 s.tick)
      else s
    let s := if s.dlv.fresh then { s.count CNT_REPLAY with dlv := { s.dlv with fresh := false, noProgress := s.dlv.noProgress + 1 } } else s
    let s := s.count CNT_REPLAY_FLITS
    let s := { s with dlv := { s.dlv with replay := if i + 1 < s.dlv.bank.length then some (q + 1) else none } }
    s.sendFlit { hdrOf e.hdr.toNat with kind := 3 } e.slots

/-! ### Link control -/

/-- What is filled in when a link-control message leaves: the snapshot of CREDIT-INIT and TALLY, the times of TIME-SYNC, the start of a
probe, the `TURN` of an echo and the `EFFG` of a Shift (R92, R101, R104, R125, R141; log entry 32). -/
def State.fillLc (s : State) (m : LcOut) : List Byte × State :=
  let t := byteAt m.body 0
  if t = 0x41 then
    let s := if s.dlv.exch then s.foldOwed else s
    (s.creditBody 0x41 (s.getB DLV_STATUS_CREDIT_OK), s)
  else if t = 0x42 then (s.creditBody 0x42 false, s)
  else if t = 0x21 || t == 0x22 then s.fixEffg m.body
  else if t = 0x25 then
    let x := 16 * s.tick + s.freeNow.toNat % 16
    let b := m.body.take 3 ++ beBytes 1 (if s.getB TIME_STATUS_SYNCED then 1 else 0) ++ beBytes 4 0 ++ beBytes 8 (x / 16) ++ beBytes 1 (x % 16)
      ++ m.body.drop 17
    let s := s.takeFree
    if byteAt m.body 1 = 1 then (b, s)
    else (b, { s with tim := { s.tim with sync := s.tim.sync.filter (fun p => p.1 != byteAt m.body 2) ++ [(byteAt m.body 2, x)] } })
  else if t = 0x29 then
    if byteAt m.body 1 = 1 then (probeBody true (byteAt m.body 2) (min 0xFFFF (s.now - m.at_)), s)
    else (m.body, { s with dlv := { s.dlv with
      probes := s.dlv.probes ++ [(byteAt m.body 2, s.now)]
      probeSent := s.dlv.probeSent + 1, probeAt := s.now, probeFlit := s.dlv.flits } })
  else (m.body, s)

/-- A link-control flit (R57, R123). Its header takes its credit return before the message is filled in: what a TALLY reports as owed is what this
flit does not return (R104, R105). -/
def State.sendLc (s : State) (m : LcOut) : State :=
  let h := s.newHdr 2 (s.getF DLV_SEQ_TXSEQ) false 15
  let r := h.2.fillLc m
  r.2.sendFlit h.1 (bytesPips r.1)

/-! ### Messages, R61 and R74 -/

/-- Channels of the round robin in order: RSP, COH, REQ, DBG. -/
def rrOrder : List Nat := [1, 2, 0, 4]

/-- The quantum of a round-robin channel by its place in the order; zero acts as one. -/
def State.quantum (s : State) (i : Nat) : Nat :=
  max 1 (s.getF (if i = 0 then DLV_ARB_RSP_Q else if i = 1 then DLV_ARB_COH_Q else if i = 2 then DLV_ARB_REQ_Q else DLV_ARB_DBG_Q))

/-- The first place from `i` on, over `n` places, whose channel qualifies and has quantum left. -/
def State.robin (s : State) : Nat → Nat → Option Nat
  | 0, _ => none
  | n + 1, i =>
    if s.qualifies (rrOrder.getD i 0) && decide (s.dlv.spent.getD i 0 < s.quantum i) then some i else s.robin n ((i + 1) % 4)

/-- The channel that starts a message in this slot, and the state of the arbitration after it (R74). -/
def State.choose (s : State) : Option Nat × State :=
  if s.qualifies 3 then (some 3, s)
  else if s.qualifies 5 then (some 5, s)
  else
    let start (s : State) (i : Nat) : Option Nat × State :=
      let c := rrOrder.getD i 0
      let n := ((s.headOfChan c).map (·.m.length)).getD 0
      (some c, { s with dlv := { s.dlv with rr := c, spent := listSet s.dlv.spent i (s.dlv.spent.getD i 0 + n) } })
    let i0 := rrOrder.idxOf s.dlv.rr % 4
    match s.robin 4 i0 with
    | some i => start s i
    | none =>
      let s := { s with dlv := { s.dlv with spent := [0, 0, 0, 0] } }
      match s.robin 4 i0 with
      | some i => start s i
      | none => (none, s)

/-- The NUL pip (R63). -/
def nulPip : Pip := BitVec.ofNat 128 (15 * 2 ^ 124)

/-- The log entry that a message of MGT brings when its last pip leaves: that of the last packet of a reply of this instance (R327). -/
def State.logOfMsg (s : State) (t : TxMsg) : Option WvLog :=
  if !t.fromCore && (msgHead t.m).chan == 5 && (msgHead t.m).op == 2 then s.logOf .mgt (msgContent t.m) else none

/-- A message of MGT has left whole: what it brings to the log is logged with the tick (R308, R327). -/
def State.mgtLeft (s : State) (c : Nat) : State :=
  if c != 5 then s else
  match s.lme.leaving with
  | none => s
  | some e => ({ s with lme := { s.lme with leaving := none } }).wvLog { e with tick := s.die }

/-- The next pip of a message flit, the channel it belongs to, and the state after it (R61, R74). -/
def State.nextPip (s : State) : Pip × Option Nat × State :=
  match s.dlv.cur with
  | h :: p :: r =>
    let c := (headOf h).chan
    let t : State := { s.noteBusy c with dlv := { (s.noteBusy c).dlv with cur := if r.isEmpty then [] else h :: r } }
    (p, some c, if r.isEmpty then t.mgtLeft c else t)
  | _ =>
    match s.choose with
    | (none, s) => (nulPip, none, s)
    | (some c, s) =>
      match s.headOfChan c with
      | none => (nulPip, none, s)
      | some t =>
        let s := (s.setF (DLV_WIN_WINDOW c) (s.window c - t.m.length)).noteBusy c
        let s := { s with dlv := { s.dlv with tx := s.dlv.tx.erase t, cur := if t.m.length ≤ 1 then [] else t.m } }
        let s := if c = 5 then { s with lme := { s.lme with leaving := s.logOfMsg t } } else s
        (t.m.headD nulPip, some c, if t.m.length ≤ 1 then s.mgtLeft c else s)

/-- `n` pips of a message flit with the pips of each channel. -/
def State.fillSlots : Nat → State → List Pip → List Nat → List Pip × List Nat × State
  | 0, s, l, k => (l, k, s)
  | n + 1, s, l, k =>
    match s.nextPip with
    | (p, none, s) => State.fillSlots n s (l ++ [p]) k
    | (p, some c, s) => State.fillSlots n s (l ++ [p]) (listSet k c (k.getD c 0 + 1))

/-- A message flit (R62, R74). -/
def State.sendMsgFlit (s : State) : State :=
  let fh := min 15 (s.dlv.cur.length - 1)
  let r := State.fillSlots 15 s [] [0, 0, 0, 0, 0, 0]
  r.2.2.sendPayload false fh r.1 r.2.1

/-! ### Streams -/

/-- The stream flit that can leave now: its position's Round, its scheduled tick and place, its bytes, and the state with them taken
(R148). -/
def State.streamNow (s : State) : Option (Nat × Nat × Pos × List Byte × State) :=
  match s.curPos true with
  | none => none
  | some (n, p) =>
    match s.sigma n p.off with
    | none => none
    | some t =>
      if s.isVoid n || s.tick < t then none
      else (s.takeData n p).map (fun d => (n, t, p, d.1, d.2))

/-- A stream flit (R65, R153); its lag is recorded (R159). -/
def State.sendStream (s : State) (n t : Nat) (p : Pos) (data : List Byte) : State :=
  let s := s.setF TURN_LAG_MAXLAG (max (s.getF TURN_LAG_MAXLAG) (min 0xFFFF (s.tick - t)))
  let s := { s with trn := { s.trn with txRound := n, txIdx := p.idx + 1 } }
  s.sendPayload true 15 (bytesPips (padTo 240 data)) [0, 0, 0, 0, 0, 0]

/-! ### The choice, R148 -/

/-- While DBG is locked, DBG toward the guest is discarded (R238). -/
def State.dropDbg (s : State) : State :=
  if !s.guestEdge || (bitOf (s.getF FW_CHAN_ALLOW) 4 && s.getB FW_CTRL_DBG_UNLOCK) then s
  else
    let dbg (t : TxMsg) : Bool := (msgHead t.m).chan == 4
    let n := (s.dlv.tx.filter dbg).length
    let s := if n = 0 then s else s.noteBusy 4
    { s.count CNT_FW_QDROP n with dlv := { s.dlv with tx := s.dlv.tx.filter (fun t => !dbg t) } }

/-- What the flit time gives when no replay and no urgent message is to be sent. -/
def State.sendByClass (s : State) : State :=
  let cls := s.classAt s.tick
  let room := decide (s.dlv.bank.length < bankCap s.place)
  match (if cls != 3 && room then s.streamNow else none) with
  | some (n, t, p, data, s) => s.sendStream n t p data
  | none =>
    match s.dlv.lc with
    | m :: r => ({ s with dlv := { s.dlv with lc := r } }).sendLc m
    | [] =>
      if cls = 2 && room && (!s.dlv.cur.isEmpty || (List.range 6).any s.qualifies) then s.sendMsgFlit else s.sendIdle

/-- The first of the urgent messages leaves. After the last RETRAIN flit of a Far instance its training blocks begin (R129). -/
def State.sendUrgent (s : State) (m : LcOut) (r : List LcOut) : State :=
  let s := ({ s with dlv := { s.dlv with urgent := r } }).sendLc m
  if s.link = 6 && r.isEmpty then s.resend else s

/-- A message of the core side joins those that wait for the link (R61, R238). -/
def State.offer (s : State) (m : List Pip) : State := (s.queueMsg m true).dropDbg

/-- In Hold the core side keeps its messages, and while it keeps any, later ones join them (R253, R265; log entry 150). -/
def State.coreKeeps (s : State) : Bool := s.link == 7 || s.isl.wait.any (fun p => p.1 == 7)

/-- Messages that the core side kept are taken, in order, once the link is out of Hold and crossing 2 is open. -/
def State.takeOffers (s : State) : State :=
  if s.link = 7 || !s.xOpen 2 then s else
  let l := s.isl.wait.filterMap (fun p => match p with | (7, .message m) => some m | _ => none)
  l.foldl State.offer { s with isl := { s.isl with wait := s.isl.wait.filter (fun p => p.1 != 7) } }

/-- The next flit is sent through crossing 1, and none while that is closed (R148, R255, R264). In Retrain only the four RETRAIN messages of a Far link leave (R129). After the four notices of R264 only
idle flits follow. -/
def State.transmit (s : State) : State :=
  if !(s.linkRuns || (s.link == 6 && !s.dlv.urgent.isEmpty)) || s.lnk.gap || !s.xOpen 1 then s else
  let s := s.settleVoid.takeOffers.dropDbg
  match s.dlv.replay, s.dlv.urgent with
  | some q, [] => if s.dlv.idleOnly then s.sendIdle else s.sendReplay q
  | some q, m :: r => if s.link = 6 then s.sendUrgent m r else s.sendReplay q
  | none, m :: r => s.sendUrgent m r
  | none, [] => if s.dlv.idleOnly then s.sendIdle else s.sendByClass

/-- A flit chosen after an arrival leaves in the next tick at the earliest: it reflects no arrival of its own tick (R82, R85, R90; log entry 158). -/
def State.afterArrivals (s : State) : State := if s.dlv.heard == some s.now then s.elapse 1 else s

/-- TRANSMIT_FLIT: `dt` ticks after the last command a flit's first symbol is sent, where an arrival came in that tick one tick later (R90, R148). -/
def execTransmitFlit (dt : Nat) (s : State) : Host.Outcome State Fault Refusal := done s (((s.elapse dt).afterArrivals).transmit)

/-- CORE_MESSAGE_OFFER: the die's core side hands over a message for the link (R2, R61, R238). While crossing 2 is closed it waits in the crossing, and
while that is full, or the link is in Hold, with the core side (R253, R265; log entry 150). -/
def execCoreMessageOffer (m : List Pip) (s : State) : Host.Outcome State Fault Refusal :=
  done s (if 5 < (msgHead m).chan || m.isEmpty then s
    else
      let s := s.takeOffers
      if s.coreKeeps then s.hold 7 (.message m)
      else if s.xOpen 2 then s.offer m
      else s.offerAt 2 (.message m))

end Sys2Proof.Machine
end

