-- ==== Sys2Proof/Machine/Microcode.lean ====
section
/-! DEFINITION. The microcode of the LME: loading, its check, and the update in place (R310–R314), and the mailbox registers (R321, R334). -/

namespace Sys2Proof.Machine

/-! ### Loading, R311 -/

/-- `LOAD`: the pointer returns to the image's first byte; refused while the LME runs. -/
def State.lmeLoad (s : State) : State := if s.getB LME_STATUS_RUNNING then s.refused LME_CTRL else s.setF LME_PTR_PTR 0

/-- LME_CTRL_LOAD (R311). -/
def execLmeCtrlLoad (s : State) : Host.Outcome State Fault Refusal := done s (s.regCmd LME_CTRL 1 State.lmeLoad)

/-- A word of the image enters the RAM at the pointer, which advances; a word beyond the RAM has no place in it. -/
def State.lmeWord (s : State) (v : Word) : State :=
  if s.getB LME_STATUS_RUNNING then s.refused LME_LOAD
  else
    let p := s.getF LME_PTR_PTR
    let s := s.setF LME_PTR_PTR (p + 4)
    if p < 65536 then { s with lme := { s.lme with ram := s.lme.ram.set (p / 4) v } } else s

/-- LME_LOAD_WORD (R311). -/
def execLmeLoadWord (v : Word) (s : State) : Host.Outcome State Fault Refusal := done s (s.regCmd LME_LOAD v.toNat (State.lmeWord · v))

/-- The instance was left without a running image when its Hold expired: it stays so until its instance reset (R313; log entry 152). -/
def State.imageLost (s : State) : Bool := !s.getB LME_STATUS_RUNNING && s.stage == 10 && s.link == 8

/-- `START`: the check of the loaded image begins; it has nothing to act on while the LME runs, or once the instance was left without an image. -/
def State.lmeStart (s : State) : State :=
  if s.getB LME_STATUS_RUNNING || s.imageLost then s else { s with lme := { s.lme with checking := true } }

/-- LME_CTRL_START (R311). -/
def execLmeCtrlStart (s : State) : Host.Outcome State Fault Refusal := done s (s.regCmd LME_CTRL 2 State.lmeStart)

/-! ### The check, R310–R313 -/

/-- The first check of R311 that the loaded image fails; 0 when it passes. -/
def State.imageCheck (s : State) : Nat :=
  let len := s.imgWord 2
  if s.imgWord 0 != 0x4C4D4531 then 1
  else if !bitOf (bitsOf (s.imgWord 1) 8 8) (if s.far then 1 else 0) then 2
  else if len < 32 || 65536 < len || len % 4 != 0 || len != s.getF LME_PTR_PTR || len ≤ s.imgWord 3 then 3
  else if s.imageCrc len != s.imgWord 4 then 4
  else 0

/-- The LME has started: what it held of the peer is acted on, and a Hold of its own update ends with a Retrain (R266, R312, R313). -/
def State.lmeStarts (s : State) : State :=
  let held := s.lnk.peerHeld
  let s := { s with lnk := { s.lnk with peerHeld := [] } }
  let s := (held.filter (fun m => m.tcode == 1)).foldl (fun s m => s.onDetect (readDetect m.body) 0) s
  let s := if s.link = 7 && s.getF ISL_HOLD_STAT_CAUSE == 6 then
      (s.countIf (decide (s.isl.holdAt + 1024 * max 1 (s.getF ISL_HOLD_HOLDTIME) ≤ s.now)) CNT_NEAR_MISS 1).holdOwn
    else s
  (held.filter (fun m => m.tcode == 8)).foldl (fun s m => s.onRetrain (byteAt m.body 0)) s

/-- The check passes: the image is in force and the LME runs (R311). -/
def State.imagePasses (s : State) : State :=
  let upd := s.getB LME_STATUS_UPDATING
  let v := s.imgWord 1 / 2 ^ 16
  let s := (s.setFs [(LME_STATUS_IMGOK, 1), (LME_STATUS_RUNNING, 1), (LME_STATUS_CHECK, 0), (LME_STATUS_VERSION, v), (LME_IMGCRC_CRC, s.imgWord 4)]).count
    CNT_UCODE_LOAD
  let s := s.recUcode upd 0 v (s.imgWord 4) s.lme.oldCrc.toNat
  (({ s with lme := { s.lme with badSeen := false } }).lmeStarts).passT2

/-- The check fails with a code; the first refusal of each T2 or update is recorded (R311, R314). -/
def State.imageFails (s : State) (code : Nat) : State :=
  let s := ((s.setF LME_STATUS_CHECK code).count CNT_UCODE_BAD).raise 0x0804
  if s.lme.badSeen then s
  else ({ s with lme := { s.lme with badSeen := true } }).recUcode (s.getB LME_STATUS_UPDATING) code (s.imgWord 1 / 2 ^ 16) (s.imgWord 4) s.lme.oldCrc.toNat

/-- UCODE_CHECK_END (R311). -/
def execUcodeCheckEnd (s : State) : Host.Outcome State Fault Refusal :=
  done s (
    if !s.lme.checking then s else
    let s := { s with lme := { s.lme with checking := false } }
    let c := s.imageCheck
    if c != 0 then s.imageFails c else if s.imageLost then s else s.imagePasses)

/-! ### The update in place, R312 -/

/-- MGT has a packet that can leave. -/
def State.mgtGoes (s : State) : Bool :=
  s.qualifies 5 || (match s.dlv.cur with | h :: _ => (headOf h).chan == 5 | [] => false)

/-- Flits are sent, one a flit time, while a condition holds. -/
def State.sendWhile (p : State → Bool) : Nat → State → State
  | 0, s => s
  | n + 1, s => if p s then State.sendWhile p n ((s.elapse (s.flitTicks 1)).transmit) else s

/-- The accepted update (R312 steps 1–3): the reply leaves, then four HOLD-NOTICEs; Hold of cause 0x6 is entered, the LME stops, and the management
island is reset. An epoch in progress will restart from its first lane. -/
def State.updateStart (s : State) : State :=
  let s := State.sendWhile State.mgtGoes (s.dlv.bank.length + 16) s
  let s := State.sendWhile (fun s => !s.dlv.urgent.isEmpty) (s.dlv.bank.length + 8) (s.sendNotice 3)
  let crc := s.regs.get LME_IMGCRC
  let s := (s.enterHold 6).setFs [(LME_STATUS_RUNNING, 0), (LME_STATUS_IMGOK, 0), (LME_STATUS_UPDATING, 1)]
  let s := { s with lme := { s.lme with oldCrc := crc, badSeen := false, checking := false, asm := [] }, shadow := [], held := [] }
  let s := s.resync [4, 5]
  if s.getB AGE_STATUS_ACTIVE then s.epochBegin else s

/-- Why MICROCODE-UPDATE is refused: a status of R326, 0 when it is not (R312, R328). -/
def State.updateStatus (s : State) : Nat :=
  if s.getB LME_STATUS_UPDATING then 1
  else if !s.inService || s.link != 4 || s.run || s.getB LINK_STATUS_CASTLING then 5
  else 0

/-! ### Mailbox, R321 -/

/-- `SEND`: the packet in `MBX_CMD` awaits acceptance; refused while one does. -/
def State.mbxSend (s : State) : State :=
  if s.getB MBX_STATUS_CMDFULL then s.refused MBX_CTRL else s.setB MBX_STATUS_CMDFULL true

/-- MBX_CTRL_SEND (R321). -/
def execMbxCtrlSend (s : State) : Host.Outcome State Fault Refusal := done s (s.regCmd MBX_CTRL 2 State.mbxSend)

/-- `NEXT`: the reply packet in `MBX_RPL` is freed, and the next one appears. -/
def State.mbxNext (s : State) : State := { s with lme := { s.lme with rpl := s.lme.rpl.drop 1 } }.mbxShows

/-- MBX_CTRL_NEXT (R321). -/
def execMbxCtrlNext (s : State) : Host.Outcome State Fault Refusal := done s (s.regCmd MBX_CTRL 1 State.mbxNext)

/-- Bytes of `MBX_CMD` (R334). -/
def State.mbxBytes (s : State) : List Byte := (List.range 255).flatMap (fun w => beBytes 4 (s.rd (MBX_CMD w)))

end Sys2Proof.Machine
end

