-- ==== Sys2Proof/Machine/Window.lean ====
section
/-! DEFINITION. What a read returns: the register window (R336–R349), with the registers that show other state, and the
state spaces of R332. -/

namespace Sys2Proof.Machine

/-! ### Rows of the register tables -/

/-- Where an offset lies in a block of `cnt` words `stride` bytes apart from `base`. -/
def rowOf (off base stride cnt : Nat) : Option Nat :=
  if base ≤ off ∧ (off - base) % stride = 0 ∧ (off - base) / stride < cnt then some ((off - base) / stride) else none

/-- The access codes of the word at an offset; none where it has no writable field (R7). -/
def accOf (off : Nat) : Option Acc := accTable.find? (fun a => (rowOf off a.base a.stride a.cnt).isSome)

/-- The offset is the low word of a 64-bit register (R10). -/
def wideLow (off : Nat) : Bool := wideTable.any (fun p => (rowOf off p.1 p.2.1 p.2.2).isSome)

/-- The offset is the high word of a 64-bit register. -/
def wideHigh (off : Nat) : Bool := decide (4 ≤ off) && wideLow (off - 4)

/-- The instance has the register block at an offset (R27, R294, R315, R337, R340). -/
def State.present (s : State) (off : Nat) : Bool :=
  if 0x800 ≤ off ∧ off < 0xCC0 then
    lanePresent s.place ((off - 0x800) / 0x40)
      && !((off - 0x800) / 0x40 == 18 && [0x08, 0x0C, 0x10, 0x14, 0x20, 0x24].contains ((off - 0x800) % 0x40))
  else if 0x4900 ≤ off ∧ off < 0x4B40 then s.lanes.contains ((off - 0x4900) / 0x20)
  else if 0x6040 ≤ off ∧ off < 0x6088 then s.lanes.contains ((off - 0x6040) / 4)
  else if 0x6100 ≤ off ∧ off < 0x62B0 then s.lanes.contains ((off - 0x6100) / 0x18)
  else if 0x7000 ≤ off ∧ off < 0x8000 then s.guestEdge
  else true

/-! ### Histograms, R288 and R349 -/

/-- The bin at place `j` of state space 0x0E: eye heights and CSR by lane, temperature, replays, droop (R288). -/
def State.histWord (s : State) (j : Nat) : Nat :=
  let n := 32 * s.lanes.length
  (if j < n then s.age.hist.get (histEye (s.lanes.getD (j / 32) 0) + j % 32)
   else if j < 2 * n then s.age.hist.get (histCsr (s.lanes.getD ((j - n) / 32) 0) + j % 32)
   else if j < 2 * n + 64 then s.age.hist.get (histTemp + (j - 2 * n))
   else 0).toNat

/-! ### The register window -/

/-- A mask of the movers that run a descriptor. -/
def State.moverMask (s : State) : Nat := maskOf ((List.range 4).filter (fun m => (s.eng m).active))

/-- What `TIME_ROUND` shows: the Round in force, and after an instance reset its reset value until a Round begins (R11, R166; log entry 138). -/
def State.roundShown (s : State) : Nat := if s.tim.atReset then 0 else s.tim.round

/-- The word that a register shows, with the fields that show other state in their places; absent blocks read zero (R337). -/
def State.view (s : State) (off : Nat) : Nat :=
  if !s.present off then 0
  else if off = ID_DIE then 0x4C210000 + (if isHub s.place then 0x11 else 0x12)
  else if off = ID_VER then 0x2010100
  else if off = ID_PLACE then idPlace s.place
  else if off = ID_TWIN then s.rd ID_TWIN / 256 * 256 + twinIndex s.place
  else if off = ID_CAPS then idCaps s.place
  else if off = TIME_TICK.off then s.tick % 2 ^ 32
  else if off = TIME_TICK.off + 4 then s.tick / 2 ^ 32
  else if off = TIME_ROUND.off then s.roundShown % 2 ^ 32
  else if off = TIME_ROUND.off + 4 then s.roundShown / 2 ^ 32 % 2 ^ 32
  else if off = DLV_STATUS then DLV_STATUS_REPLAY.put (s.rd off) (if s.dlv.replay.isSome then 1 else 0)
  else if off = DLV_BANK then DLV_BANK_OCC.put (s.rd off) s.dlv.bank.length
  else if off = TURN_CTRL then TURN_CTRL_DECK_ON.put (s.rd off) (if s.getF TURN_DECK_NDECK = 0 then 0 else 1)
  else if off = TURN_STRETCH then
    TURN_STRETCH_FULL.put (TURN_STRETCH_PENDING.put (s.rd off) s.tim.reqs.length) (if 8 ≤ s.tim.reqs.length then 1 else 0)
  else if off = MOV_STATUS then s.fetching % 32 * 2 ^ 8 + (if s.tagBad then 2 ^ 7 else 0) + s.moverMask
  else if 0x2010 ≤ off ∧ off < 0x2020 then
    let e := s.eng ((off - 0x2010) / 4)
    if e.active then 2 ^ 31 + e.ring % 64 * 2 ^ 24 + min 1024 (s.engTags ((off - 0x2010) / 4)).length else 0
  else if off = FOLD_STATUS then s.segFree % 64 * 2 ^ 8 + maskOf ((List.range 8).filter (fun j => s.getB (FOLD_XJ_CFG_GO j)))
  else if off = ISL_PEERDIE then (if s.far then 2 else s.rd off)
  else if off = AGE_LQ then
    AGE_LQ_EVQ.put (AGE_LQ_CKQ.put (s.rd off) (s.recBytes Rec.isCkpt / 16)) (s.recBytes (fun r => !r.isCkpt) / 16)
  else if off = EVT_STATUS then EVT_STATUS_QUEUED.put (s.rd off) s.evq.length
  else if off = TRACE_SEQ then TRACE_SEQ_QUEUED.put (s.rd off) s.trq.length
  else if 0x5800 ≤ off ∧ off < 0x6000 then s.histWord (512 * s.getF HIST_PAGE_PAGE + (off - 0x5800) / 4)
  else if off = MBX_STATUS then
    MBX_STATUS_RPLVALID.put (MBX_STATUS_QUEUED.put (s.rd off) s.lme.queue.length) (if s.lme.rpl.isEmpty then 0 else 1)
  else if 0x6800 ≤ off ∧ off < 0x6BFC then bytesAt (s.lme.rpl.headD []) (off - 0x6800) 4
  else s.rd off

/-- The word of the paged window at 0x8000: a Turn frame, or the descriptors at page 0x10 (R166). -/
def State.winView (s : State) (i : Nat) : Nat :=
  let p := s.getF TURN_WINPAGE_PAGE
  if p < 16 then (if i < pageEntries s.place then (s.trn.frames.get (8192 * p + i)).toNat else 0)
  else if p = 16 then (if i < 4096 then (s.trn.descs.get i).toNat else 0)
  else 0

/-- The value that a read of an aligned offset returns. -/
def State.readReg (s : State) (off : Nat) : Nat := if off < 0x8000 then s.view off else s.winView ((off - 0x8000) / 4)

/-! ### Values that change on their own, R260 -/

/-- Link-core values that move as flits are sent and accepted: the states, sequence numbers, Bank, windows and buffers of reliable delivery, the corrected
symbols of each lane, and their counters with those of messages and VIs (R108, R343). -/
def flitWord (off : Nat) : Bool :=
  [DLV_STATUS, DLV_SEQ, DLV_BANK, DLV_LOOP, DLV_TALLY, DLV_WATCH, TIME_STATUS, TIME_ERR].contains off
    || (List.range 6).any (fun c => off == DLV_WIN c || off == DLV_RXBUF c) || (List.range 18).any (fun l => off == (LANE_FECCORR l).off)
    || decide ((0x5000 ≤ off ∧ off < 0x5080) ∨ (0x50E0 ≤ off ∧ off < 0x50F8) ∨ (0x5100 ≤ off ∧ off < 0x5148) ∨ (0x5164 ≤ off ∧ off < 0x5170)
      ∨ (0x519C ≤ off ∧ off < 0x51A8))

/-- Values that move while the link trains, shifts or is repaired. -/
def trainWord (off : Nat) : Bool :=
  [LINK_STATUS, LINK_FAIL, LINK_EXCL, LINK_SHIFT, LINK_EFFG, LINK_PEER_EFFG].contains off
    || (List.range 18).any (fun l => off == LANE_STATUS l || off == LANE_SNR l || off == LANE_EYE l) || decide (0x5148 ≤ off ∧ off < 0x5164)

/-- Values that change at a Round boundary. -/
def roundWord (off : Nat) : Bool := [TIME_ROUND.off, TURN_STRETCH, TURN_CTRL].contains off

/-- Values that move with a schedule. -/
def streamWord (off : Nat) : Bool := off == TURN_LAG || decide (0x5080 ≤ off ∧ off < 0x5098) || off == CNT_HOLD_VOID.off || decide (0x5170 ≤ off ∧ off < 0x517C)

/-- Values of the movers and rings, and of the stream windows. -/
def moverWord (off : Nat) : Bool :=
  off == MOV_STATUS || (List.range 4).any (fun m => off == MOV_ENG m) || (List.range 64).any (fun n => off == MOV_RING_TAIL n || off == MOV_RING_DONE n)
    || (List.range 32).any (fun w => off == MOV_SWIN_PROD w || off == MOV_SWIN_CONS w) || decide ((0x5098 ≤ off ∧ off < 0x50C0) ∨ (0x517C ≤ off ∧ off < 0x5190))

/-- Values of the Fold unit. -/
def foldWord (off : Nat) : Bool :=
  off == FOLD_STATUS || off == FOLD_FLAGS || (List.range 32).any (fun c => off == FOLD_CTX_STATUS c) || (List.range 8).any (fun j => off == FOLD_XJ_STATUS j)
    || decide ((0x50C0 ≤ off ∧ off < 0x50E0) ∨ (0x5190 ≤ off ∧ off < 0x519C))

/-- The ticks of 24 management cycles, within which a read by Doubles ends (R260). -/
def doublesTicks : Nat := 188

/-- Flits that change something are being sent or accepted: a link that passes idle flits alone is quiet (R260). -/
def State.flitsMove (s : State) : Bool :=
  s.linkRuns && (s.dlv.replay.isSome || !s.dlv.urgent.isEmpty || !s.dlv.lc.isEmpty || s.wouldSend || s.getB DLV_STATUS_RWAIT
    || (match s.dlv.acc with | some p => decide (s.now ≤ p.1 + doublesTicks) | none => false) || (List.range 6).any s.crStalled || s.paced)

/-- A value may change between two samples: what changes it is going on (R260; log entry 12). -/
def State.mayChange (s : State) (off : Nat) : Bool :=
  let folds := s.run || (List.range 8).any (fun j => s.getB (FOLD_XJ_CFG_GO j))
  let moves := s.mov.eng.any (·.active) || !s.mov.tags.isEmpty || s.run
  s.clockRuns && (off == TIME_TICK.off || (roundWord off && decide (s.b + s.lenNow ≤ s.tick + doublesTicks)) || (flitWord off && s.flitsMove)
    || (trainWord off && (decide (1 ≤ s.link ∧ s.link ≤ 6 ∧ s.link ≠ 4) || s.lnk.repair.isSome || s.age.sweep.isSome))
    || (List.range 18).any (fun l => off == LANE_PRBS_ERR l && s.getB (LANE_PAT_RUN l))
    || (streamWord off && s.run) || (moverWord off && (moves || s.fetchStalled || s.tagStalled)) || (foldWord off && folds))

/-- A register is read by Doubles (R260): each disagreeing sample counts, and after eight in a row the read ends by a freeze. The tick counter differs in
any two samples; a Round boundary makes one pair differ at most; how many of any other value disagree depends on where the samples fall, and is free (log
entry 12). -/
def State.doubles (s : State) (off : Nat) : State :=
  if s.mayChange off then
    let free := s.freeNow.toNat
    let n := if off = TIME_TICK.off then 8 else if roundWord off then free % 2 else free % 9
    let t := s.takeFree.count CNT_DOUBLES_RETRY n
    if n = 8 then t.count CNT_DOUBLES_FALLBACK else t
  else s

/-- A read by a requester (R10): the low word of a 64-bit register leaves its high word in the requester's shadow, which the next read of the
high word returns. -/
def State.readBy (s : State) (r : Requester) (off : Nat) : Nat × State :=
  match s.shadow.find? (fun (p : (Requester × Nat) × Word) => p.1 == (r, off)) with
  | some p => (p.2.toNat, { s with shadow := s.shadow.filter (fun (q : (Requester × Nat) × Word) => q.1 != (r, off)) })
  | none =>
    let v := s.readReg off
    let t := s.doubles off
    if wideLow off then
      (v, { t with shadow := s.shadow.filter (fun (q : (Requester × Nat) × Word) => q.1 != (r, off + 4))
                               ++ [((r, off + 4), BitVec.ofNat 32 (s.readReg (off + 4)))] })
    else (v, t)

/-! ### State spaces, R332 -/

/-- The bytes of a state space; none where the instance has none such. -/
def State.spaceSize (s : State) (sp : Nat) : Option Nat :=
  match sp with
  | 0x00 => some 0x8000
  | 0x01 => some (16 * 4 * pageEntries s.place)
  | 0x02 => some 0x4000
  | 0x03 => some (256 * bankCap s.place)
  | 0x04 => some (16 * ((List.range 6).map (rxCap s.place)).sum)
  | 0x05 => some (256 * strbufCap s.place)
  | 0x06 => some 128
  | 0x07 => some 8192
  | 0x08 => some (8 * 2 ^ 15)
  | 0x09 => some (256 * 1024)
  | 0x0A => some 16384
  | 0x0B => some 256
  | 0x0C => if s.guestEdge then some 65536 else none
  | 0x0D => some 65536
  | 0x0E => some (256 * s.lanes.length + 256)
  | 0x0F => if s.far then some (256 * 1024) else none
  | _ => none

/-- The pips held of a channel, oldest first. -/
def State.heldPips (s : State) (c : Nat) : List Pip :=
  ((s.dlv.rx.filter (fun x => x.chan == c)).flatMap (·.m))
    ++ (match s.dlv.part with | p :: r => if (headOf p).chan = c && !s.dlv.skip then p :: r else [] | [] => [])

/-- Word `i` of the receive buffers (space 0x04). -/
def State.rxWord (s : State) (i : Nat) : Nat :=
  let first (c : Nat) : Nat := ((List.range c).map (rxCap s.place)).sum
  let c := ((List.range 6).find? (fun c => decide (i / 4 < first (c + 1)))).getD 5
  bitsOf ((s.heldPips c).getD (i / 4 - first c) 0).toNat (96 - 32 * (i % 4)) 32

/-- A word of a Bank entry (space 0x03): the flit as first sent, pips by channel, valid. -/
def State.bankWord (s : State) (i : Nat) : Nat :=
  match s.dlv.bank.find? (fun e => (hdrOf e.hdr.toNat).seq % bankCap s.place == i / 64) with
  | none => 0
  | some e =>
    let l := beBytes 8 e.hdr.toNat ++ padTo 240 (pipsBytes e.slots) ++ e.pips.map (BitVec.ofNat 8) ++ [1, 0]
    bytesAt l (4 * (i % 64)) 4

/-- A word of the stream buffer (space 0x05). The late bit is 0: a late flit is released in the tick of its acceptance and never held (R153). -/
def State.sbufWord (s : State) (i : Nat) : Nat :=
  match s.trn.sbuf[i / 64]? with
  | none => 0
  | some e => bytesAt (padTo 240 e.data ++ beBytes 8 ((s.dueOf e.round e.off).getD 0) ++ beBytes 2 e.stream ++ [1, 0, 0, 0, 0, 0]) (4 * (i % 64)) 4

/-- A word of the Stretch requests (space 0x06). -/
def State.reqWord (s : State) (i : Nat) : Nat :=
  match s.tim.reqs[i / 4]? with
  | none => 0
  | some q => bytesAt (beBytes 1 1 ++ beBytes 1 q.k ++ beBytes 1 (if q.lower then 1 else 0) ++ beBytes 5 0 ++ beBytes 8 q.e) (4 * (i % 4)) 4

/-- A 64-bit word cut at place `i` of its two halves, high half first. -/
def half (v i : Nat) : Nat := if i % 2 = 0 then v / 2 ^ 32 % 2 ^ 32 else v % 2 ^ 32

/-- A word of the ring write sets (space 0x07). -/
def State.wsetWord (s : State) (i : Nat) : Nat :=
  match (s.wsetOf (i / 32))[i % 32 / 2]? with
  | none => 0
  | some (pod, die, route) => half (2 ^ 63 + pod % 512 * 2 ^ 53 + die % 32 * 2 ^ 48 + route % 4 * 2 ^ 46) i

/-- The mover of a tag: none holds one of a descriptor fetch, a job, a window, a context, a Deck page or a load (R177). -/
def Tag.mover (t : Tag) : Option Nat := if t.kind ≤ 4 || t.kind == 6 then some (t.owner % 4) else none

/-- The ring of a tag: that of the descriptor, of the fetch, or of the job (R176, R177, R221). -/
def State.tagRing (s : State) (t : Tag) : Option Nat :=
  if t.kind ≤ 4 || t.kind == 6 then some (t.ring % 64)
  else if t.kind = 5 then some (t.owner % 64)
  else if t.kind = 7 || t.kind == 8 then some (s.getF (FOLD_XJ_CFG_RING t.owner))
  else none

/-- A word of the adapter tags (space 0x08). What a tag without a mover, or without a ring, shows there is a free value (log entry 101). -/
def State.tagWord (s : State) (i : Nat) : Nat :=
  match s.mov.tags.find? (fun t => t.tag % 0x8000 == i / 2) with
  | none => 0
  | some t =>
    let f := (Config.spaceRest s.now (2 ^ 19 + i / 2)).toNat
    let who := t.mover.getD (bitsOf f 6 2) * 64 + (s.tagRing t).getD (bitsOf f 0 6)
    half (2 ^ 63 + who * 2 ^ 54 + t.gen % 1024 * 2 ^ 44 + t.die % 2 ^ 40) i

/-! The staging buffer (space 0x09): R217 says what segments hold. Contexts have their segments in ascending order, jobs those after them, each with
what it holds from its first byte on (log entry 101). -/

/-- What a context holds in its segments: IN and relayed data, operand data, anchors, results that wait (R217). -/
def Ctx.staged (x : Ctx) : List Byte := x.inQ.filterMap id ++ x.opQ ++ x.ancQ ++ x.held.flatMap (beBytes 8) ++ x.outQ

/-- What a job holds in its segments: lines and bytes of its source, converted bytes (R221). -/
def Job.staged (j : Job) : List Byte := j.src.flatMap (fun p => beBytes 128 p.2.toNat) ++ j.inB ++ j.out

/-- What the segments hold, each piece with the byte of the buffer at which it begins. -/
def State.staged (s : State) : List (Nat × List Byte) :=
  let cs := (List.range 32).filter s.ctxEn
  let first (c : Nat) : Nat := ((cs.filter (fun i => decide (i < c))).map s.ctxSegs).sum
  cs.map (fun c => (8192 * first c, (s.ctx c).staged)) ++ [(8192 * first 32, s.fold.jobs.flatMap Job.staged)]

/-- A word of the staging buffer: the bytes that stand there; where none do, what it shows is a free value (log entry 101). -/
def State.segWord (s : State) (i : Nat) : Nat :=
  match s.staged.find? (fun p => decide (p.1 ≤ 4 * i ∧ 4 * i < p.1 + p.2.length)) with
  | some p => bytesAt (padTo (4 * i - p.1 + 4) p.2) (4 * i - p.1) 4
  | none => (Config.spaceRest s.now i).toNat

/-- A word of the reply log (space 0x0B, R327). -/
def State.logWord (s : State) (i : Nat) : Nat :=
  match s.lme.log[i / 4]? with
  | none => 0
  | some e =>
    let path := match e.h.path with | .mailbox => 0 | .core => 1 | .mgt => 2 | .sb => 3
    bytesAt (beBytes 1 e.opc ++ [e.h.origin] ++ beBytes 2 e.h.tag.toNat ++ beBytes 1 e.status ++ beBytes 1 path ++ [0, 0] ++ beBytes 8 e.tick.toNat)
      (4 * (i % 4)) 4

/-- Word `i` of a state space (R332). -/
def State.spaceWord (s : State) (sp i : Nat) : Nat :=
  match sp with
  | 0x00 => s.view (4 * i)
  | 0x01 => (s.trn.frames.get (8192 * (i / pageEntries s.place) + i % pageEntries s.place)).toNat
  | 0x02 => (s.trn.descs.get i).toNat
  | 0x03 => s.bankWord i
  | 0x04 => s.rxWord i
  | 0x05 => s.sbufWord i
  | 0x06 => s.reqWord i
  | 0x07 => s.wsetWord i
  | 0x08 => s.tagWord i
  | 0x09 => s.segWord i
  | 0x0A => bytesAt (s.age.recs.flatMap (fun r => padTo (recSize r.payload.length) (r.bytes s.place))) (4 * i) 4
  | 0x0B => s.logWord i
  | 0x0C => (s.fw.get i).toNat
  | 0x0D => (s.lme.ram.get i).toNat
  | 0x0E => s.histWord i
  | 0x0F => bitsOf (s.pod.get (2 * i)).toNat 0 10 * 2 ^ 16 + (if (s.podGen 0 (2 * i)).isSome then 2 ^ 31 else 0)
      + bitsOf (s.pod.get (2 * i + 1)).toNat 0 10 + (if (s.podGen 0 (2 * i + 1)).isSome then 2 ^ 15 else 0)
  | _ => 0

/-- `n` words of a state space from word `i`, as bytes; a read changes nothing (R307). -/
def State.readSpace (s : State) (sp i n : Nat) : List Byte := (List.range n).flatMap (fun k => beBytes 4 (s.spaceWord sp (i + k)))

end Sys2Proof.Machine
end

