-- ==== Sys2Proof/Machine/Registers.lean ====
section
/-! DEFINITION. Accesses to the register window (R7–R10, R337, R338): the generic write by access codes, the registers whose write does more,
and the commands of the register rows. -/

namespace Sys2Proof.Machine

/-! ### The write that the access codes give, R7 and R8 -/

/-- The instance is Sealed. -/
def State.sealed_ (s : State) : Bool := s.getB ID_SEAL_SEALED

/-- A write is dropped: the instance is Sealed and the write would change an RWL field of the register (R8). -/
def State.dropsWrite (s : State) (off v : Nat) : Bool :=
  s.sealed_ && s.present off &&
    match accOf off with
    | none => false
    | some a => (s.rd off ^^^ v) &&& a.rwl != 0

/-- The write that the access codes give: RW fields, RWL fields until sealing, and W1C bits (R7). -/
def State.fieldsWrite (s : State) (off v : Nat) : State :=
  match accOf off with
  | none => s
  | some a =>
    let m := a.rw ||| (if s.sealed_ then 0 else a.rwl)
    let n := (s.rd off &&& (0xFFFFFFFF ^^^ m)) ||| (v &&& m)
    s.wr off (n &&& (0xFFFFFFFF ^^^ (v &&& a.w1c)))

/-! ### Link, lanes, time -/

/-- `LINK_CTRL`: fields; `DOWN` takes the link to Down, else `RETRAIN` starts a Retrain (R137). -/
def State.linkCtrlWrite (s : State) (v : Nat) : State :=
  let s := s.fieldsWrite LINK_CTRL v
  if bitOf v 1 then s.linkDown 0x0C else if bitOf v 0 then s.retrainAtQui 5 else s

/-- A pattern may start on a lane: in Training or Measure, none running (R341). -/
def State.patMay (s : State) (l : Nat) : Bool := (s.laneState l == 2 || s.laneState l == 4) && !s.getB (LANE_PAT_RUN l)

/-- A pattern starts on a lane that may run one (R341). `came` are the first bits that the checker receives, each with whether it is in
error: `LOCK` is set by 64 of them in a row without error, and those in error after it count. Where no command tells them, `LOCK` is 0 until ticks pass
(`State.patLocks`). -/
def State.patStart (s : State) (l : Nat) (came : Option (List Bool)) : State :=
  if !s.patMay l then s.refused (LANE_PAT l) else
  let s := (s.setB (LANE_PAT_RUN l) true).setB (LANE_PAT_LOCK l) false
  match came with
  | none => s
  | some b => (s.setB (LANE_PAT_LOCK l) (checkBits b).1).bump (LANE_PRBS_ERR_COUNT l) (checkBits b).2.2

/-- A pattern stops, with the bits that its checker found in error: they count only where it had locked (R341). -/
def State.patStop (s : State) (l errs : Nat) : State :=
  if !s.getB (LANE_PAT_RUN l) then s else
  let s := if s.getB (LANE_PAT_LOCK l) then s.bump (LANE_PRBS_ERR_COUNT l) errs else s
  (s.setB (LANE_PAT_RUN l) false).setB (LANE_PAT_LOCK l) false

/-- `LANE_PAT`: `PATTERN`, then `START`, then `STOP` (R341). A `START` that is refused leaves `PATTERN` as it is. What the checker had
counted by a `STOP` is a free value. -/
def State.patWrite (s : State) (l v : Nat) (came : Option (List Bool)) : State :=
  let s := if bitOf v 30 && !s.patMay l then s else s.fieldsWrite (LANE_PAT l) v
  let s := if bitOf v 30 then s.patStart l came else s
  if bitOf v 29 then (s.patStop l s.freeNow.toNat).takeFree else s

/-- `TIME_CTRL`: a `ROLE` that becomes 0b01 is held against the die's other instances (R140). -/
def State.timeCtrl (s : State) (v : Nat) : State :=
  let t := s.fieldsWrite TIME_CTRL v
  if t.getF TIME_CTRL_ROLE != 1 then { t with tim := { t.tim with rival := none } }
  else if s.getF TIME_CTRL_ROLE = 1 then t
  else t.roleTaken

/-- `TURN_CTRL`: `CHECK`, then `HALT`, then `ARM` (R163, R165). -/
def State.turnCtrlWrite (s : State) (v : Nat) : State :=
  let s := if bitOf v 1 then s.startCheck else s
  let s := if bitOf v 2 then s.haltNow else s
  if bitOf v 3 then s.arm else s

/-- A register that R163 governs: nothing changes while `RUN` is 1; otherwise the check must be made again. -/
def State.governedWrite (s : State) (off v : Nat) : State := if s.run then s.refused off else (s.fieldsWrite off v).uncheck

/-- A word of the paged window (R163, R166). -/
def State.winRegWrite (s : State) (off v : Nat) : State :=
  let p := s.getF TURN_WINPAGE_PAGE
  let i := (off - 0x8000) / 4
  let w : Word := BitVec.ofNat 32 v
  if p < 16 then (if i < pageEntries s.place then s.writeFrame p i off w else s)
  else if p = 16 && decide (i < 4096) then (if s.run then s.refused off else s.writeDesc (i / 4) off [(i % 4, w)])
  else s

/-! ### Movers, R173, R182 and R190 -/

/-- `MOV_RING_HEAD`: a value that posts more descriptors than the ring holds changes nothing (R173). -/
def State.ringHead (s : State) (n v : Nat) (core : Bool) : State :=
  if 2 ^ s.getF (MOV_RING_CFG_LOG2SIZE n) < (v + 2 ^ 16 - s.getF (MOV_RING_DONE_DONE n)) % 2 ^ 16 then s.refused (MOV_RING_HEAD n) core
  else s.setF (MOV_RING_HEAD_HEAD n) v

/-- `MOV_RING_CFG` (R173, R190): an enabled ring takes only a write that clears `EN`; `EN` stays 0 without a VI; a new `EN` drops what
was posted. -/
def State.ringCfg (s : State) (n v : Nat) : State :=
  let off := MOV_RING_CFG n
  let size := bitsOf v 12 4
  if s.getB (MOV_RING_CFG_EN n) then
    if bitOf v 31 then s.refused off
    else
      let s := (s.setB (MOV_RING_CFG_EN n) false).setB (MOV_RING_CFG_STOPERR n) (bitOf v 29)
      if size = s.getF (MOV_RING_CFG_LOG2SIZE n) then s else s.refused off
  else if size < 4 || 12 < size then s.refused off
  else
    let s := (s.setB (MOV_RING_CFG_STOPERR n) (bitOf v 29)).setF (MOV_RING_CFG_LOG2SIZE n) size
    if !bitOf v 31 then s
    else if !s.getB (MOV_RING_CFG_BOUND n) then s.refused off
    else ((s.setB (MOV_RING_CFG_EN n) true).setB (MOV_RING_CFG_STOPPED n) false).dropPosted n

/-- A GA at which a stream window may start: scratchpad or UCS of the own die, or scratchpad of a compute die bonded to it (R182). -/
def State.winBaseOk (s : State) (ga : Nat) : Bool :=
  s.place < 36 && gaPod ga == s.pod_ &&
    ((gaSpace ga == 0 && decide (8 ≤ gaDie ga ∧ gaDie ga < 20) && baseDie (gaDie ga) == dieOf s.place) || (gaSpace ga == 1 && gaDie ga == dieOf s.place))

/-- `MOV_SWIN_CFG` (R182, R190): an enabled window takes only a write that clears `EN`; `EN` is refused at another base. -/
def State.swinCfg (s : State) (w v : Nat) : State :=
  let off := MOV_SWIN_CFG w
  if s.winEn w && bitOf v 31 then s.refused off
  else if bitOf v 31 && !s.winBaseOk (s.getW (MOV_SWIN_BASE w)) then s.refused off
  else (s.fieldsWrite off v).refillWindow w

/-- `MOV_SWIN_PROD`: software is the producer of a transmit window (R182). -/
def State.swinProd (s : State) (w v : Nat) : State := if s.winRx w then s else (s.setF (MOV_SWIN_PROD_PROD w) v).refillWindow w

/-- `MOV_SWIN_CONS`: software is the consumer of a receive window (R182). -/
def State.swinCons (s : State) (w v : Nat) : State := if s.winRx w then s.setF (MOV_SWIN_CONS_CONS w) v else s

/-! ### Fold, R199, R221 and R222 -/

/-- `FOLD_CTRL`: jobs that waited for `JOBPAUSE` start. -/
def State.foldCtrl (s : State) (v : Nat) : State := (s.fieldsWrite FOLD_CTRL v).jobsRun

/-- A context's staging is emptied, with what was being read for it, and it counts its Rounds anew. -/
def State.ctxClear (s : State) (c : Nat) : State :=
  let s := s.setCtx c Ctx.empty
  { s with trn := { s.trn with ahead := s.trn.ahead.filter (fun a => a.key != 0x10000 + c && a.key != 0x20000 + c) } }

/-- `FOLD_CTX_CFG`: writing `EN` = 1 validates the context and claims its segments, 0 releases them; refused while `RUN` is 1 (R199, R217). -/
def State.ctxCfg (s : State) (c v : Nat) : State :=
  let off := FOLD_CTX_CFG c
  if s.run then s.refused off
  else
    let s := (s.fieldsWrite off v).ctxClear c
    let s := if bitOf v 31 then s.validate c else (s.setB (FOLD_CTX_STATUS_OK c) false).setF (FOLD_CTX_STATUS_WHY c) 0
    s.jobsRun

/-- A register of a context other than `CFG` and `STATUS`. -/
def State.ctxWrite (s : State) (off v : Nat) : State := if s.run then s.refused off else s.fieldsWrite off v

/-- `FOLD_XJ_CFG`: fields, then `GO`; while `GO` is 1 only a write of `GO` alone has anything to do, and that nothing (R221). -/
def State.jobCfg (s : State) (j v : Nat) (core : Bool) : State :=
  let off := FOLD_XJ_CFG j
  if s.getB (FOLD_XJ_CFG_GO j) then
    if (s.rd off ^^^ v) &&& 0x3FFFF800 = 0 && bitOf v 31 then s else s.refused off core
  else
    let s := s.fieldsWrite off v
    if !bitOf v 31 then s
    else if !s.getB (MOV_RING_CFG_BOUND (s.jobRing j)) then s.refused off core
    else s.jobGo j

/-- A register of a job other than `CFG` (R221). -/
def State.jobWrite (s : State) (j off v : Nat) (core : Bool) : State :=
  if s.getB (FOLD_XJ_CFG_GO j) then s.refused off core else s.fieldsWrite off v

/-! ### Islands, ageing, start, mailbox, firewall -/

/-- `ISL_CTRL` (R261, R269). -/
def State.islCtrl (s : State) (v : Nat) : State :=
  let s := s.fieldsWrite ISL_CTRL v
  if bitOf v 1 then s.arst else s

/-- `ISL_VOID_END`: a Hold's void that lasts still ends there, at the next boundary at the earliest; it has no effect on that of an entry to Down (R267,
R358). -/
def State.voidEndWrite (s : State) (v : Nat) : State :=
  let s := s.putW ISL_VOID_END v
  if s.trn.void && decide (s.tim.round < s.trn.voidEnd ∧ s.trn.voidEnd < 2 ^ 64) then { s with trn := { s.trn with voidEnd := max v (s.tim.round + 1) } } else s

/-- `AGE_CTRL` (R272, R287). -/
def State.ageCtrl (s : State) (v : Nat) : State :=
  let s := s.fieldsWrite AGE_CTRL v
  let s := if bitOf v 4 then s.epochNow else s
  if bitOf v 5 then s.ckptNow else s

/-- `START_CTRL` (R19, R296, R305). -/
def State.startCtrl (s : State) (v : Nat) : State :=
  let s := s.fieldsWrite START_CTRL v
  let s := if bitOf v 0 then s.detectAgain else s
  if bitOf v 2 then s.enterService else s

/-- `START_MEM`: the value of an `INST-RESET` with `OVR` stands through T2 against every other write (R301, R328). -/
def State.startMem (s : State) (v : Nat) : State := if s.strt.keepMem && decide (s.stage ≤ 2) then s else s.fieldsWrite START_MEM v

/-- `LME_CTRL` (R311). -/
def State.lmeCtrl (s : State) (v : Nat) : State :=
  let s := if bitOf v 0 then s.lmeLoad else s
  if bitOf v 1 then s.lmeStart else s

/-- `MBX_CTRL` (R321). -/
def State.mbxCtrl (s : State) (v : Nat) : State :=
  let s := if bitOf v 0 then s.mbxNext else s
  if bitOf v 1 then s.mbxSend else s

/-- `FW_CTRL` (R238, R245, R246). -/
def State.fwCtrl (s : State) (v : Nat) : State :=
  let s := (s.setF FW_CTRL_QLIMIT v).dbgWrite (bitOf v 29)
  if bitOf v 30 then s.qclear else s

/-- `FW_RATE` of a channel: its bucket gains at the old rate up to now, and at the new one from now on (R243). -/
def State.fwRate (s : State) (c v : Nat) : State := ((s.refillBucket c).fieldsWrite (FW_RATE c) v).refillBucket c

/-- `FW_WIN_SEL` (R241). -/
def State.fwSel (s : State) (v : Nat) : State :=
  let w := v % 4096
  let s := s.fieldsWrite FW_WIN_SEL v
  let s := if bitOf v 31 then s.fwCommit w else s
  if bitOf v 30 then s.fwLoad w else s

/-! ### One write -/

/-- A 64-bit register is written whole (R10). An address that R190 wants aligned is stored as it is written (DESIGN CHOICE, log entry 160). -/
def State.wideWrite (s : State) (off v : Nat) (core : Bool) : State :=
  let plain : State := s.putW ⟨off⟩ v
  if off = TURN_DECK_BASE.off then (if s.run then s.refused off else plain.uncheck)
  else if off = ISL_VOID_END.off then s.voidEndWrite v
  else match rowOf off 0x2400 0x20 64 with
  | some n => if s.getB (MOV_RING_CFG_EN n) then s.refused off else plain
  | none =>
  match rowOf off 0x2C00 0x20 32 with
  | some w => if s.winEn w then s.refused off else plain
  | none =>
  match rowOf off 0x3114 0x20 32 with
  | some _ => if s.run then s.refused off else plain
  | none =>
  match rowOf (off / 16 * 16) 0x3500 0x20 8 with
  | some j => if s.getB (FOLD_XJ_CFG_GO j) then s.refused off core else plain
  | none => plain

/-- A lane's register that does more than its access codes say. -/
def State.laneWrite (s : State) (l o v : Nat) : State :=
  if o = 0x08 then s.writeTx l v else if o = 0x0C then s.writeRx l v else if o = 0x18 then s.patWrite l v none
  else s.fieldsWrite (0x800 + 0x40 * l + o) v

/-- A register of a ring. -/
def State.ringWrite (s : State) (n o v : Nat) (core : Bool) : State :=
  if o = 0x08 then s.ringCfg n v else if o = 0x0C then s.ringHead n (v % 2 ^ 16) core else s.fieldsWrite (0x2400 + 0x20 * n + o) v

/-- A register of a stream window. -/
def State.swinWrite (s : State) (w o v : Nat) : State :=
  if o = 0x08 then s.swinCfg w v else if o = 0x0C then s.swinProd w v else if o = 0x10 then s.swinCons w v
  else s.fieldsWrite (0x2C00 + 0x20 * w + o) v

/-- A register of a Fold context. -/
def State.ctxRegWrite (s : State) (c o v : Nat) : State :=
  let off := 0x3100 + 0x20 * c + o
  if o = 0 then s.ctxCfg c v else if o = 0x1C then s.fieldsWrite off v else s.ctxWrite off v

/-- A register of a transcode job. -/
def State.jobRegWrite (s : State) (j o v : Nat) (core : Bool) : State :=
  if o = 0x14 then s.jobCfg j v core else if o = 0x1C then (if s.getB (FOLD_XJ_CFG_GO j) then s.refused (0x351C + 0x20 * j) core else s) else s.jobWrite j (0x3500 + 0x20 * j + o) v core

/-- A word is written to a register that is no 64-bit one. -/
def State.wordWrite (s : State) (off v : Nat) (core : Bool) : State :=
  if 0x8000 ≤ off then s.winRegWrite off v
  else if off = LINK_CTRL then s.linkCtrlWrite v
  else if 0x800 ≤ off ∧ off < 0xCC0 then s.laneWrite ((off - 0x800) / 0x40) ((off - 0x800) % 0x40) v
  else if off = TIME_CTRL then s.timeCtrl v
  else if off = TURN_CTRL then s.turnCtrlWrite v
  else if off = TURN_LEN || off == TURN_ASSUME || off == TURN_FLOOD || off == TURN_DECK || decide (0x1900 ≤ off ∧ off < 0x1A00) then s.governedWrite off v
  else if off = TURN_LAG then (let t := s.fieldsWrite off v; if s.run then t else t.uncheck)
  else if 0x2400 ≤ off ∧ off < 0x2C00 then s.ringWrite ((off - 0x2400) / 0x20) ((off - 0x2400) % 0x20) v core
  else if 0x2C00 ≤ off ∧ off < 0x3000 then s.swinWrite ((off - 0x2C00) / 0x20) ((off - 0x2C00) % 0x20) v
  else if off = FOLD_CTRL then s.foldCtrl v
  else if 0x3100 ≤ off ∧ off < 0x3500 then s.ctxRegWrite ((off - 0x3100) / 0x20) ((off - 0x3100) % 0x20) v
  else if 0x3500 ≤ off ∧ off < 0x3600 then s.jobRegWrite ((off - 0x3500) / 0x20) ((off - 0x3500) % 0x20) v core
  else if off = ISL_CTRL then s.islCtrl v
  else if off = AGE_CTRL then s.ageCtrl v
  else if off = START_CTRL then s.startCtrl v
  else if off = START_MEM then s.startMem v
  else if off = LME_CTRL then s.lmeCtrl v
  else if off = LME_LOAD then s.lmeWord (BitVec.ofNat 32 v)
  else if off = MBX_CTRL then s.mbxCtrl v
  else if off = FW_CTRL then s.fwCtrl v
  else if off = FW_CHAN then s.fieldsWrite off (putBit v 2 false)
  else if off = FW_WIN_SEL then s.fwSel v
  else if 0x7080 ≤ off ∧ off < 0x7098 then s.fwRate ((off - 0x7080) / 4) v
  else s.fieldsWrite off v

/-- The low word that a requester last wrote of a 64-bit register; zero where it has written none (R338). -/
def State.heldLow (s : State) (r : Requester) (off : Nat) : Nat :=
  match s.held.find? (fun (p : (Requester × Nat) × Word) => p.1 == (r, off)) with | some p => p.2.toNat | none => 0

/-- A write of an aligned word by a requester (R7–R10, R337): an absent block takes none, a dropped write is counted, the low word of a 64-bit
register is held until the high word comes. -/
def State.writeReg (s : State) (r : Requester) (off v : Nat) : State :=
  let core := r == .coreSide
  if !s.present off then s else
  let s := if s.dropsWrite off v then s.bump ID_SEAL_DROPS else s
  if wideLow off then
    if (accOf off).isNone then s else
    { s with held := s.held.filter (fun (p : (Requester × Nat) × Word) => p.1 != (r, off)) ++ [((r, off), BitVec.ofNat 32 v)] }
  else if wideHigh off then
    if (accOf off).isNone then s else s.wideWrite (off - 4) (s.heldLow r (off - 4) + 2 ^ 32 * v) core
  else s.wordWrite off v core

/-- An access at an offset that is not aligned, or of another width, changes nothing (R9). -/
def State.accessWrite (s : State) (r : Requester) (off v : Nat) : State :=
  if off % 4 = 0 then s.writeReg r off v else s.badAccess off (r == .coreSide)

/-- A read at any offset, and the word that it returns. -/
def State.accessRead (s : State) (r : Requester) (off : Nat) : State :=
  if off % 4 = 0 then (let p := s.readBy r off; p.2.emit (.read (BitVec.ofNat 32 p.1)))
  else (s.badAccess off (r == .coreSide)).emit (.read 0xFFFFFFFF)

/-! ### Commands -/

/-- An access from the core side: an agent of the die reaches a resource of the VI that it names; one that names none is refused (R227, R337). -/
def State.coreAccess (s : State) (write : Bool) (vi : Option Nat) (off v : Nat) : State :=
  let ok := match vi with
    | none => false
    | some n => off % 4 != 0 || (coreReaches off && s.resourceVi off == some n && s.viActive n)
  if ok then (if write then s.accessWrite .coreSide off v else s.accessRead .coreSide off)
  else
    let t := s.viDeny off true
    if write then t else t.emit (.read 0xFFFFFFFF)

/-- An access by a requester, with the VI that one from the core side names. -/
def State.access (s : State) (r : Requester) (write : Bool) (vi : Option Nat) (off v : Nat) : State :=
  if r = .coreSide then s.coreAccess write vi off v else if write then s.accessWrite r off v else s.accessRead r off

/-- The crossing at which an access waits now, none where it reaches its register: one of the core side goes through crossing 2, and through crossing 3
to a job's registers (R252). -/
def State.waitsAt (s : State) (r : Requester) (off : Nat) : Option Nat :=
  if r = .coreSide then
    if !s.xOpen 2 then some 2 else if decide (0x3500 ≤ off ∧ off < 0x3600) && !s.xOpen 3 then some 3 else none
  else if s.reaches off then none else some (xOf off)

/-- An access is made, or waits at its crossing (R253). -/
def State.accessCmd (s : State) (r : Requester) (write : Bool) (vi : Option Nat) (off v : Nat) : State :=
  match s.waitsAt r off with
  | none => s.access r write vi off v
  | some x => s.offerAt x (.access r write vi off v)

/-- An access of a width other than 32 bits, or not aligned, is refused, a read with all ones, or waits at its crossing as any other (R9, R253). -/
def State.badCmd (s : State) (r : Requester) (write : Bool) (off : Nat) : State :=
  match s.waitsAt r off with
  | none => let t := s.badAccess off (r == .coreSide); if write then t else t.emit (.read 0xFFFFFFFF)
  | some x => s.offerAt x (.bad r write off)

/-- REGISTER_WRITE: a write from the management side (R7, R9, R10). One from the core side that names no VI is refused (R227, R337). -/
def execRegisterWrite (r : Requester) (off : BitVec 16) (v : Word) (s : State) : Host.Outcome State Fault Refusal :=
  done s (s.accessCmd r true none off.toNat v.toNat)

/-- UNALIGNED_ACCESS: of a width other than 32 bits, or not aligned (R9). -/
def execUnalignedAccess (r : Requester) (write : Bool) (off : BitVec 16) (s : State) : Host.Outcome State Fault Refusal :=
  done s (s.badCmd r write off.toNat)

/-- LOW_WORD_READ: a read from the management side, which at the low word of a 64-bit register leaves the shadow of its high word (R10). One from
the core side that names no VI is refused (R227, R337). -/
def execLowWordRead (r : Requester) (off : BitVec 16) (s : State) : Host.Outcome State Fault Refusal :=
  done s (s.accessCmd r false none off.toNat 0)

/-- CORE_SIDE_ACCESS: an agent of the die with a VI reaches a resource of that VI (R227, R337). -/
def execCoreSideAccess (write : Bool) (vi : Byte) (off : BitVec 16) (v : Word) (s : State) : Host.Outcome State Fault Refusal :=
  done s (s.accessCmd .coreSide write (some vi.toNat) off.toNat v.toNat)

/-- LANE_TXEQ_WRITE (R43, R44). -/
def execLaneTxeqWrite (lane : Fin 18) (v : Word) (s : State) : Host.Outcome State Fault Refusal :=
  done s (if s.lanes.contains lane.val then s.regCmd (LANE_TXEQ lane) v.toNat (State.writeTx · lane v.toNat) else s)

/-- LANE_RXEQ_WRITE (R341). -/
def execLaneRxeqWrite (lane : Fin 18) (v : Word) (s : State) : Host.Outcome State Fault Refusal :=
  done s (if s.lanes.contains lane.val then s.regCmd (LANE_RXEQ lane) v.toNat (State.writeRx · lane v.toNat) else s)

/-- LANE_PAT_START: `START` is written with a pattern; `pat.came` tells of each of the first bits received whether it is in error (R341). -/
def execLanePatStart (lane : Fin 18) (pat : PatStart) (s : State) : Host.Outcome State Fault Refusal :=
  let v := 2 ^ 30 + pat.pat.toNat
  done s (if s.lanes.contains lane.val then s.regCmd (LANE_PAT lane) v (State.patWrite · lane v (some pat.came)) else s)

/-- LANE_PAT_STOP: `STOP` is written, with the bits that the checker found in error while the pattern ran (R341). -/
def execLanePatStop (lane : Fin 18) (errs : Word) (s : State) : Host.Outcome State Fault Refusal :=
  done s (if s.lanes.contains lane.val then s.regCmd (LANE_PAT lane) (2 ^ 29 + s.getF (LANE_PAT_PATTERN lane)) (State.patStop · lane errs.toNat) else s)

/-- LINK_CTRL_DOWN (R137, R131). -/
def execLinkCtrlDown (s : State) : Host.Outcome State Fault Refusal := done s (s.regCmd LINK_CTRL (s.rd LINK_CTRL ||| 2) (State.linkDown · 0x0C))

/-- LINK_CTRL_RETRAIN (R137, R128). -/
def execLinkCtrlRetrain (s : State) : Host.Outcome State Fault Refusal := done s (s.regCmd LINK_CTRL (s.rd LINK_CTRL ||| 1) (State.retrainAtQui · 5))

/-- MOV_RING_HEAD_WRITE (R173). -/
def execMovRingHeadWrite (ring : Fin 64) (v : BitVec 16) (s : State) : Host.Outcome State Fault Refusal := done s (s.regCmd (MOV_RING_HEAD ring) v.toNat (State.ringHead · ring v.toNat false))

/-- MOV_RING_ENABLE: `EN` of a ring is written, its other fields as they are (R173, R190). -/
def execMovRingEnable (ring : Fin 64) (en : Bool) (s : State) : Host.Outcome State Fault Refusal :=
  let v := (MOV_RING_CFG_EN ring).put (s.rd (MOV_RING_CFG ring)) (if en then 1 else 0)
  done s (s.regCmd (MOV_RING_CFG ring) v (State.ringCfg · ring v))

/-- MOV_SWIN_ENABLE: `MOV_SWIN_CFG` is written (R182, R190). -/
def execMovSwinEnable (w : Fin 32) (v : Word) (s : State) : Host.Outcome State Fault Refusal := 
  done s (s.regCmd (MOV_SWIN_CFG w) v.toNat (State.swinCfg · w v.toNat))

/-- MOV_SWIN_PROD_WRITE (R182). -/
def execMovSwinProdWrite (w : Fin 32) (v : Word) (s : State) : Host.Outcome State Fault Refusal := 
  done s (s.regCmd (MOV_SWIN_PROD w) v.toNat (State.swinProd · w v.toNat))

/-- MOV_SWIN_CONS_WRITE (R182). -/
def execMovSwinConsWrite (w : Fin 32) (v : Word) (s : State) : Host.Outcome State Fault Refusal := 
  done s (s.regCmd (MOV_SWIN_CONS w) v.toNat (State.swinCons · w v.toNat))

/-- FOLD_CTX_ENABLE: `EN` of a context is written, its other fields as they are (R199). -/
def execFoldCtxEnable (c : Fin 32) (en : Bool) (s : State) : Host.Outcome State Fault Refusal :=
  let v := (FOLD_CTX_CFG_EN c).put (s.rd (FOLD_CTX_CFG c)) (if en then 1 else 0)
  done s (s.regCmd (FOLD_CTX_CFG c) v (State.ctxCfg · c v))

/-- FOLD_XJ_GO: `GO` of a job is written (R221). -/
def execFoldXjGo (j : Fin 8) (s : State) : Host.Outcome State Fault Refusal := 
  done s (s.regCmd (FOLD_XJ_CFG j) (s.rd (FOLD_XJ_CFG j) ||| 2 ^ 31) (State.jobGo · j))

end Sys2Proof.Machine
end

