-- ==== Sys2Proof/Machine/Wilvel.lean ====
section
/-! DEFINITION. Wilvel commands (chapter 13): acceptance and order (R323–R325), the opcodes (R328–R330, R332, R333), and the commands whose rows
stand in the table. -/

namespace Sys2Proof.Machine

/-! ### Opcodes, R323 and R328 -/

/-- The classes of R323. -/
inductive WvClass where
  | read | serial | long | forward | preempt
  deriving DecidableEq, Repr

/-- The class of a command; none where the opcode is not in the tables, or is one that an instance never takes (0x60, 0x62). -/
def wvClass (opc : Nat) (p : List Byte) : Option WvClass :=
  if opc ≤ 3 then some .read
  else if [0x04, 0x17, 0x21, 0x23, 0x31, 0x32, 0x34, 0x40, 0x41, 0x42, 0x43, 0x44, 0x45, 0x50, 0x51, 0x52, 0x61, 0x63, 0x64].contains opc then some .serial
  else if [0x10, 0x12, 0x13, 0x14, 0x15, 0x16, 0x22, 0x30].contains opc then some .long
  else if opc = 0x11 || opc == 0x20 then some .preempt
  else if opc = 0x33 then some (if bitOf (byteAt p 1) 2 then .forward else .serial)
  else if opc = 0x46 then some .forward
  else none

/-- The length of a command's parameters fits its opcode (R328). The count of REG-READ and REG-WRITE fixes theirs. -/
def wvLengthOk (opc : Nat) (p : List Byte) : Bool :=
  let n := p.length
  if opc = 0x01 then n == 8
  else if opc = 0x03 then n == 4 + 4 * bytesAt p 0 2 && decide (4 ≤ n)
  else if opc = 0x04 then n == 4 + 8 * bytesAt p 0 2 && decide (4 ≤ n)
  else if opc = 0x30 then n == 312
  else if opc = 0x16 || opc == 0x45 then n == 12
  else if opc = 0x33 || opc == 0x43 || opc == 0x44 then n == 16
  else if opc = 0x31 || opc == 0x40 || opc == 0x46 then n == 8
  else if opc = 0x50 then n == 20
  else if [0x02, 0x12, 0x13, 0x14, 0x15, 0x20, 0x34, 0x41, 0x42, 0x52, 0x61].contains opc then n == 4
  else n == 0

/-- What a command that ends at once answers: the state, the status and the data. -/
abbrev WvEnd := State × Nat × List Byte

/-- A command ends. -/
def wvEnd (h : CmdHdr) (opc : Nat) (r : WvEnd) : State := r.1.wvReply h opc r.2.1 r.2.2 false

/-! ### State and registers -/

/-- READ-STATE (R332). -/
def State.cmdReadState (s : State) (p : List Byte) : WvEnd :=
  let sp := byteAt p 0
  let off := bytesAt p 1 3
  let len := bytesAt p 4 4
  if off % 4 != 0 || len % 4 != 0 then (s, 3, [])
  else match s.spaceSize sp with
    | none => (s, 9, [])
    | some n =>
      if len < 4 || 2 ^ 20 < len || n < off + len then (s, 9, [])
      else (s, 0, s.readSpace sp (off / 4) (len / 4))

/-- DUMP (R333). -/
def State.cmdDump (s : State) (p : List Byte) : WvEnd :=
  let mask := bytesAt p 0 4
  let want := (List.range 16).filter (fun sp => mask = 0 || bitOf mask sp)
  (s, 0, want.flatMap (fun sp =>
    match s.spaceSize sp with
    | none => []
    | some n => beBytes 1 sp ++ beBytes 3 0 ++ beBytes 4 n ++ beBytes 8 s.tick ++ s.readSpace sp 0 (n / 4)))

/-- REG-READ: each word is read as a 32-bit access, without a shadow. -/
def State.cmdRegRead (s : State) (p : List Byte) : WvEnd :=
  let n := bytesAt p 0 2
  let offs := (List.range n).map (fun i => bytesAt p (4 + 4 * i) 4)
  if n = 0 || 250 < n then (s, 9, [])
  else if offs.any (fun o => decide (0xFFFF < o)) then (s, 3, [])
  else
    let t := offs.foldl (fun s o => if o % 4 = 0 then s else s.badAccess o false) s
    (offs.foldl State.doubles t, 0, offs.flatMap (fun o => beBytes 4 (if o % 4 = 0 then s.readReg o else 0xFFFFFFFF)))

/-- REG-WRITE: each write in order, as a management write. -/
def State.cmdRegWrite (s : State) (p : List Byte) : WvEnd :=
  let n := bytesAt p 0 2
  let ws := (List.range n).map (fun i => (bytesAt p (4 + 8 * i) 4, bytesAt p (8 + 8 * i) 4))
  if n = 0 || 125 < n then (s, 9, [])
  else if ws.any (fun w => decide (0xFFFF < w.1)) then (s, 3, [])
  else
    let r := ws.foldl (fun (a : State × Bool) (w : Nat × Nat) =>
      (a.1.accessWrite .lme w.1 w.2, a.2 || (w.1 % 4 == 0 && a.1.dropsWrite w.1 w.2))) (s, false)
    (r.1, if r.2 then 6 else 0, [])

/-! ### Link and lanes -/

/-- The opcodes of class L. -/
def isLong (opc : Nat) : Bool := wvClass opc [] == some .long

/-- A running L command is aborted (R323). -/
def State.abortLong (s : State) : State :=
  let s := if s.trn.load.isSome then s.loadFails else s
  s.runsEnd (fun r => isLong r.opc) 0x0D []

/-- RETRAIN: ends at Up; a Retrain in progress is joined (R325). -/
def State.cmdRetrain (s : State) (h : CmdHdr) : State :=
  if s.link = 4 || s.link == 5 then (s.runStart h 0x10 0).retrainAtQui 5
  else if s.link = 6 then s.runStart h 0x10 0
  else wvEnd h 0x10 (s, 5, [])

/-- LINK-DOWN. -/
def State.cmdLinkDown (s : State) : WvEnd := (s.abortLong.linkDown 0x0C, 0, [])

/-- SHIFT: `REASON` 0x07 for a new width, 0x06 for a slower mode. -/
def State.cmdShift (s : State) (h : CmdHdr) (p : List Byte) : State :=
  let w := byteAt p 0
  let m := byteAt p 1
  let cw := s.mapList.length
  let cm := s.getF LINK_STATUS_MODE
  let no (c : Nat) : State := wvEnd h 0x12 (s, c, [])
  if s.getF LINK_SHIFT_PHASE != 0 || s.getB LINK_STATUS_CASTLING then no 1
  else if s.link != 4 then no 5
  else if (w != cw && m != cm) || (w == cw && m == cm) || m < cm || 2 < m || !s.usedWidths.contains w || !bitOf (s.used 9) m then no 3
  else if s.usableLanes.length < w then no 9
  else match (if w = cw then some s.mapList else buildMap s.place w s.usableLanes s.mapList) with
    | none => no 9
    | some map =>
      let t := (s.runStart h 0x12 0).propose (if w = cw then 6 else 7) w m s.excl map
      if t.lnk.shiftOwn.isNone then t.runEnds 0x12 0x0D [] else t

/-- RETIRE-LANE: ends when the lane is Retired, outside Up at once. -/
def State.cmdRetire (s : State) (h : CmdHdr) (p : List Byte) : State :=
  let l := byteAt p 0
  if !s.lanes.contains l then wvEnd h 0x13 (s, 3, [])
  else if s.link != 4 then
    let t := s.retireLane l 7
    wvEnd h 0x13 (t, 0, beBytes 1 (t.getF LINK_STATUS_WIDTH) ++ beBytes 3 0)
  else ((s.runStart h 0x13 l).retireLane l 7).retireEnds

/-- CASTLE: the condition is that of R135; R279's on the last Standby lane is for epochs alone. -/
def State.cmdCastle (s : State) (h : CmdHdr) (p : List Byte) : State :=
  let l := byteAt p 0
  let no (c : Nat) : State := wvEnd h 0x14 (s, c, [])
  if !s.lanes.contains l then no 3
  else if s.getB LINK_STATUS_CASTLING || s.lnk.repair.isSome || s.age.sweep.isSome then no 1
  else if s.link != 4 || !s.getB LINK_STATUS_INITIATOR || !s.castleMay || !s.mapList.contains l then no 5
  else (s.runStart h 0x14 l).castleStart l

/-- SWEEP. -/
def State.cmdSweep (s : State) (h : CmdHdr) (p : List Byte) : State :=
  let l := byteAt p 0
  if !s.lanes.contains l then wvEnd h 0x15 (s, 3, [])
  else if s.age.sweep.isSome then wvEnd h 0x15 (s, 1, [])
  else if !(s.laneState l == 3 || s.laneState l == 4) then wvEnd h 0x15 (s, 5, [])
  else (s.runStart h 0x15 l).beginSweep l false

/-- PATTERN: the run's argument holds the lane, the count of errors at its start and the tick at which it ends. -/
def State.cmdPattern (s : State) (h : CmdHdr) (p : List Byte) : State :=
  let l := byteAt p 0
  let pat := byteAt p 1
  let n := bytesAt p 8 4
  if !s.lanes.contains l || 3 < pat then wvEnd h 0x16 (s, 3, [])
  else if n = 0 || 2 ^ 31 < n then wvEnd h 0x16 (s, 9, [])
  else if !s.patMay l then wvEnd h 0x16 (s, 5, [])
  else
    let s := if pat = 3 then s.setF (LANE_USERPAT_WORD l) (bytesAt p 4 4) else s
    let arg := l + 32 * s.getF (LANE_PRBS_ERR_COUNT l) + 2 ^ 37 * (s.now + n)
    ((s.setF (LANE_PAT_PATTERN l) pat).patStart l none).runStart h 0x16 arg

/-- The given time of a PATTERN has passed: the checker's errors count, and the command ends with their rise. -/
def State.patternEnds (s : State) (errs : Nat) : State :=
  match s.lme.runs.find? (fun r => r.opc == 0x16) with
  | none => s
  | some r =>
    let l := r.arg % 32
    let s := s.advanceTo (r.arg / 2 ^ 37)
    if !s.getB (LANE_PAT_RUN l) then s.runEnds 0x16 0x0D []
    else
      let s := s.patStop l errs
      s.runEnds 0x16 0 (beBytes 4 (s.getF (LANE_PRBS_ERR_COUNT l) - r.arg / 32 % 2 ^ 32))

/-- DETECT. -/
def State.cmdDetect (s : State) : WvEnd := if s.getB LINK_STATUS_EMPTY then (s.detectAgain, 0, []) else (s, 5, [])

/-! ### Instance -/

/-- INST-RESET: 1,024 ticks after acceptance; with `OVR` the value stands in `START_MEM` (R301). It has no reply. -/
def State.cmdInstReset (s : State) (ovr : Bool) (p : List Byte) : State :=
  let s := (s.abortLong.elapse 1024).instReset
  if ovr then
    let s := (s.wr START_MEM (bytesAt p 0 4 &&& 0xFE03FFFF)).setB START_STATUS_OVR true
    { s with strt := { s.strt with keepMem := true } }
  else s

/-- SERVICE. -/
def State.cmdService (s : State) : WvEnd := if s.starting && s.stage == 9 then (s.enterService, 0, []) else (s, 5, [])

/-- MICROCODE-UPDATE: ends at acceptance (R312). -/
def State.cmdUpdate (s : State) (h : CmdHdr) : State :=
  let c := s.updateStatus
  let t := wvEnd h 0x22 (s, c, [])
  if c = 0 then t.updateStart else t

/-- ARITH-RESET: `STATE` where the write of `ARST` would change nothing. -/
def State.cmdArith (s : State) : WvEnd :=
  if s.run || (List.range 8).any (fun j => s.getB (FOLD_XJ_CFG_GO j)) then (s, 5, []) else (s.arst, 0, [])

/-! ### Schedule and time -/

/-- LOAD-TURNS: the registers are written, then pages and descriptors read (R329). -/
def State.cmdLoad (s : State) (h : CmdHdr) (p : List Byte) : State :=
  if s.run then wvEnd h 0x30 (s, 5, [])
  else if bytesAt p 40 2 = 0 || 16 < bytesAt p 40 2 then wvEnd h 0x30 (s, 9, [])
  else
    let s := { s with trn := { s.trn with checking := false } }
    let s := (((s.fieldsWrite TURN_LEN (bytesAt p 0 4)).fieldsWrite TURN_DECK (bytesAt p 4 4)).fieldsWrite TURN_ASSUME (bytesAt p 8 4)).fieldsWrite
      TURN_FLOOD (bytesAt p 12 4)
    let s := (s.putW TURN_DECK_BASE (bytesAt p 16 8)).putW TURN_START (bytesAt p 24 8)
    let s := (List.range 64).foldl (fun s i => s.fieldsWrite (0x1900 + 4 * i) (bytesAt p (56 + 4 * i) 4)) s
    let l : Load := ⟨bytesAt p 32 8, bytesAt p 40 2, bytesAt p 48 8, 0, 0⟩
    let s := (({ s.uncheck with trn := { s.uncheck.trn with load := some l } }).runStart h 0x30 (byteAt p 42 % 2))
    s.loadIssue

/-- ARM. -/
def State.cmdArm (s : State) (p : List Byte) : WvEnd :=
  if !s.getB TURN_CHECK_PASS || !s.getB TIME_STATUS_SYNCED || s.run || s.getB LINK_STATUS_BASECAP then (s, 5, [])
  else ((s.putW TURN_START (bytesAt p 0 8)).arm, 0, [])

/-- HALT: ends when `RUN` clears. -/
def State.cmdHalt (s : State) (h : CmdHdr) : State :=
  if s.run then s.haltNow.runStart h 0x32 0 else wvEnd h 0x32 (s.haltNow, 0, [])

/-- A Stretch request is held, if fewer than eight are (R160). -/
def State.holdStretch (s : State) (k : Nat) (lower : Bool) (e : Nat) : State :=
  let s := if e ≤ s.tim.round then s.raise 0x0307 else s
  { s with tim := { s.tim with reqs := s.tim.reqs ++ [⟨k, lower, e⟩] } }

/-- A message is forwarded over the Far link until its `GOT` comes (R161, R233). -/
def State.forwardMsg (s : State) (h : CmdHdr) (opc : Nat) (body : List Byte) : State :=
  let s := s.queueLc body
  { s with tim := { s.tim with fwds := s.tim.fwds ++ [⟨h, opc, body, 1⟩] } }

/-- SET-STRETCH: with `APPLY` a request, with `FORWARD` STRETCH on the Far link. -/
def State.cmdStretch (s : State) (h : CmdHdr) (p : List Byte) : State :=
  let k := byteAt p 0
  let lower := bitOf (byteAt p 1) 0
  let app := bitOf (byteAt p 1) 1
  let fwd := bitOf (byteAt p 1) 2
  let e := bytesAt p 8 8
  if 16 < k || !(app || fwd) || (fwd && !s.far) then wvEnd h 0x33 (s, 3, [])
  else if app && 8 ≤ s.tim.reqs.length then wvEnd h 0x33 (s, 8, [])
  else
    let s := if app then s.holdStretch k lower e else s
    if fwd then s.forwardMsg h 0x33 (stretchBody false lower k (byteAt p 2) (bytesAt p 4 2 % 512) e) else wvEnd h 0x33 (s, 0, [])

/-- WHATIF: rows 0x05 and 0x06 of R164 at the given values, over the resident pages and the Deck pages that the last fit check read; DETAIL of a
row that fails is a free value (log entry 107). -/
def State.cmdWhatif (s : State) (p : List Byte) : WvEnd :=
  let k := byteAt p 0
  let w := byteAt p 1
  let m := byteAt p 2
  if s.trn.checking then (s, 1, [])
  else if !s.whatifOk k w m then (s, 3, [])
  else
    let rx := s.fitStrbuf (s.checkRuns s.trn.deck false) w m k
    let tx := s.fitLag (s.checkRuns s.trn.deck true) w m k
    let code := if rx then 5 else if tx then 6 else 0
    if code = 0 then (s, 0, beBytes 4 0) else (s.takeFree, 0, beBytes 1 code ++ beBytes 1 0 ++ beBytes 2 s.freeNow.toNat)

/-! ### VIs, R226 -/

/-- VI-CREATE. -/
def State.cmdViCreate (s : State) (p : List Byte) : WvEnd :=
  let v := byteAt p 0
  if v = 0 || 7 < byteAt p 1 then (s, 3, [])
  else if s.getF (VI_ENT_STATE v) != 0 then (s, 5, [])
  else (s.setFs [(VI_ENT_STATE v, 1), (VI_ENT_HOST v, byteAt p 1), (VI_ENT_GUEST v, byteAt p 2 % 2), (VI_ENT_SHARE_PEND v, 0), (VI_SHR_SHARE v, byteAt p 3),
    (VI_SHR_SHARE_NEXT v, byteAt p 3), (VI_SHR_SBASE4 v, byteAt p 4), (VI_SHR_SCNT4 v, byteAt p 5)], 0, [])

/-- VI-BIND. -/
def State.cmdViBind (s : State) (p : List Byte) : WvEnd :=
  let n := byteAt p 0
  let v := byteAt p 1
  let off := bitOf (byteAt p 2) 0
  if 63 < n || (!off && (!s.viActive v || s.getB (VI_ENT_GUEST v))) then (s, 3, [])
  else if s.getB (MOV_RING_CFG_EN n) then (s, 5, [])
  else (s.setFs [(MOV_RING_CFG_BOUND n, if off then 0 else 1), (MOV_RING_CFG_VI n, if off then 0 else v)], 0, [])

/-- VI-SHARE (R229). -/
def State.cmdViShare (s : State) (p : List Byte) : WvEnd :=
  let v := byteAt p 0
  if !s.viActive v then (s, 5, []) else (s.setFs [(VI_SHR_SHARE_NEXT v, byteAt p 1), (VI_ENT_SHARE_PEND v, 1)], 0, [])

/-- The VI is named by a `VALID` stream descriptor or an enabled context. -/
def State.viNamed (s : State) (v : Nat) : Bool :=
  s.trn.descs.any (fun e => e.1 % 4 == 0 && s.descValid (e.1 / 4) && s.descVi (e.1 / 4) == v)
    || (List.range 32).any (fun c => s.ctxEn c && s.ctxVi c == v)

/-- VI-RESET and VI-DESTROY: refusals in the order of their rows, E held against the Round in which the command was accepted (R226, R328). One whose E has
begun when it starts is applied at the next boundary (R234; log entry 148). -/
def State.cmdViEnd (s : State) (destroy : Bool) (p : List Byte) (rnd : Nat) : WvEnd :=
  let v := byteAt p 0
  let e := bytesAt p 8 8
  if v = 0 then (s, 3, [])
  else if !s.viActive v then (s, 5, [])
  else if 2 ≤ s.getF (VI_ENT_STATE v) then (s, 0x0A, [])
  else if e ≤ rnd || rnd + 255 < e then (s, 9, [])
  else if destroy && s.run && s.viNamed v then (s, 0x0B, [])
  else
    let t := s.setFs [(VI_ENT_STATE v, if destroy then 3 else 2), (VI_ENT_E8 v, max e (s.tim.round + 1) % 256)]
    (if e ≤ s.tim.round then t.raise 0x0404 else t, 0, [])

/-- VI-RESTORE (R226, R298). -/
def State.cmdViRestore (s : State) (p : List Byte) : WvEnd :=
  let v := byteAt p 0
  let ent := bytesAt p 4 4
  let shr := bytesAt p 8 4
  if s.sealed_ then (s, 6, [])
  else
    let s := if v = 0 then s else
      s.setFs [(VI_ENT_STATE v, bitsOf ent 30 2), (VI_ENT_HOST v, bitsOf ent 27 3), (VI_ENT_GUEST v, bitsOf ent 26 1), (VI_ENT_GEN v, bitsOf ent 16 10),
        (VI_ENT_SHARE_PEND v, bitsOf ent 15 1), (VI_ENT_E8 v, bitsOf ent 0 8), (VI_SHR_SHARE v, bitsOf shr 24 8), (VI_SHR_SHARE_NEXT v, bitsOf shr 16 8),
        (VI_SHR_SBASE4 v, bitsOf shr 8 8), (VI_SHR_SCNT4 v, bitsOf shr 0 8)]
    if bitOf (byteAt p 1) 0 then ((s.setB START_STATUS_VIOK true).passT2, 0, []) else (s, 0, [])

/-- VI-NOTICE: GEN-NOTICE on the Far link (R233). -/
def State.cmdNotice (s : State) (h : CmdHdr) (p : List Byte) : State :=
  if !s.far then wvEnd h 0x46 (s, 4, [])
  else s.forwardMsg h 0x46 (genBody false (bytesAt p 6 2 % 512) (byteAt p 0) (bytesAt p 2 2 % 1024) (byteAt p 4))

/-! ### Firewall and Ledger -/

/-- FW-WINDOW (R241). -/
def State.cmdFwWindow (s : State) (p : List Byte) : WvEnd :=
  let w := bytesAt p 0 2
  if !s.guestEdge then (s, 4, [])
  else if 4095 < w then (s, 3, [])
  else (s.fwPut w ((List.range 4).map (fun k => bytesAt p (4 + 4 * k) 4)), 0, [])

/-- FW-QCLEAR (R246). -/
def State.cmdFwQclear (s : State) : WvEnd := if s.guestEdge then (s.qclear, 0, []) else (s, 4, [])

/-- FW-DBG (R238). -/
def State.cmdFwDbg (s : State) (p : List Byte) : WvEnd := if s.guestEdge then (s.dbgWrite (bitOf (byteAt p 0) 0), 0, []) else (s, 4, [])

/-- LEDGER-TAKE: the acknowledged records are freed, and the oldest still queued is answered (R330). -/
def State.cmdTake (s : State) (p : List Byte) : WvEnd :=
  let a := bytesAt p 0 2
  let s := if bitOf (byteAt p 2) 0 then
      { s with age := { s.age with recs := s.age.recs.filter (fun r => decide (0x7FFF < (a + 2 ^ 16 - r.iseq) % 2 ^ 16)) } } else s
  (s, 0, match s.age.recs with | r :: _ => r.bytes s.place | [] => [])

/-! ### Starting and accepting, R323–R325 -/

/-- A command starts: it ends at once, or runs on. -/
def State.wvStart (s : State) (h : CmdHdr) (opc : Nat) (ovr : Bool) (p : List Byte) (rnd : Nat) : State :=
  let fin (r : WvEnd) : State := wvEnd h opc r
  if !wvLengthOk opc p then fin (s, 3, []) else
  match opc with
  | 0x01 => fin (s.cmdReadState p)
  | 0x02 => fin (s.cmdDump p)
  | 0x03 => fin (s.cmdRegRead p)
  | 0x04 => fin (s.cmdRegWrite p)
  | 0x10 => s.cmdRetrain h
  | 0x11 => fin s.cmdLinkDown
  | 0x12 => s.cmdShift h p
  | 0x13 => s.cmdRetire h p
  | 0x14 => s.cmdCastle h p
  | 0x15 => s.cmdSweep h p
  | 0x16 => s.cmdPattern h p
  | 0x17 => fin s.cmdDetect
  | 0x20 => s.cmdInstReset ovr p
  | 0x21 => fin s.cmdService
  | 0x22 => s.cmdUpdate h
  | 0x23 => fin s.cmdArith
  | 0x30 => s.cmdLoad h p
  | 0x31 => fin (s.cmdArm p)
  | 0x32 => s.cmdHalt h
  | 0x33 => s.cmdStretch h p
  | 0x34 => fin (s.cmdWhatif p)
  | 0x40 => fin (s.cmdViCreate p)
  | 0x41 => fin (s.cmdViBind p)
  | 0x42 => fin (s.cmdViShare p)
  | 0x43 => fin (s.cmdViEnd false p rnd)
  | 0x44 => fin (s.cmdViEnd true p rnd)
  | 0x45 => fin (s.cmdViRestore p)
  | 0x46 => s.cmdNotice h p
  | 0x50 => fin (s.cmdFwWindow p)
  | 0x51 => fin s.cmdFwQclear
  | 0x52 => fin (s.cmdFwDbg p)
  | 0x61 => fin (s.cmdTake p)
  | 0x63 => fin (s.ckptNow, 0, [])
  | 0x64 => fin (s.epochNow, 0, [])
  | _ => fin (s, 0, [])

/-- The LME carries out a command now: what the command acts on beyond the management island is reached (R252). -/
def State.wvReaches (s : State) (opc : Nat) (p : List Byte) : Bool :=
  s.mgmtRuns && ([0x00, 0x20, 0x21, 0x22, 0x61].contains opc
    || (if opc = 3 then (List.range (bytesAt p 0 2)).all (fun i => s.reaches (bytesAt p (4 + 4 * i) 4))
        else if opc = 4 then (List.range (bytesAt p 0 2)).all (fun i => s.reaches (bytesAt p (4 + 8 * i) 4))
        else s.xOpen 4))

/-- A HALT waits for `RUN` to clear; it is the one S command that lasts. -/
def State.halting (s : State) : Bool := s.lme.runs.any (fun r => r.opc == 0x32)

/-- The class of a command of the queue. -/
def WvCmd.cls (c : WvCmd) : Option WvClass := wvClass c.opc c.params

/-- A command that no later S command overtakes in starting (R324). -/
def WvCmd.ordered (c : WvCmd) : Bool := c.cls == some .serial || c.cls == some .long || c.cls == some .forward

/-- A command may start, with those of the queue that stand before it: what it acts on is reached, and an S command overtakes no S, L or F command
(R253, R324; log entry 150). -/
def State.wvMay (s : State) (before : List WvCmd) (c : WvCmd) : Bool :=
  s.wvReaches c.opc c.params && !(c.cls == some .serial && (s.halting || before.any WvCmd.ordered))

/-- The first command of the queue that may start, and the queue without it. -/
def State.wvNext (s : State) (before : List WvCmd) : List WvCmd → Option (WvCmd × List WvCmd)
  | [] => none
  | c :: r => if s.wvMay before c then some (c, before ++ r) else s.wvNext (before ++ [c]) r

/-- A command starts. -/
def State.wvRun (s : State) (c : WvCmd) : State := s.wvStart c.h c.opc c.ovr c.params c.round

/-- Commands of the queue start in order as their classes allow (R324). -/
def State.drainQueue : Nat → State → State
  | 0, s => s
  | n + 1, s =>
    match s.wvNext [] s.lme.queue with
    | none => s
    | some (c, q) => State.drainQueue n (({ s with lme := { s.lme with queue := q } }).wvRun c)

/-- A command waits in the queue, an X command ahead of all but its own class (R323). -/
def State.wvQueue (s : State) (c : WvCmd) : State :=
  let isX (d : WvCmd) : Bool := d.cls == some .preempt
  let q := s.lme.queue
  let at_ := if isX c then (q.takeWhile isX).length else q.length
  { s with lme := { s.lme with queue := q.take at_ ++ c :: q.drop at_ } }

/-- Another command of the class is answered BUSY at once: an L command beside one that runs or waits, an F command beside eight (R323). -/
def State.wvFull (s : State) (c : WvClass) : Bool :=
  let waits := (s.lme.queue.filter (fun d => d.cls == some c)).length
  match c with
  | .long => decide (1 ≤ (s.lme.runs.filter (fun r => isLong r.opc)).length + waits)
  | .forward => decide (8 ≤ s.tim.fwds.length + waits)
  | _ => false

/-- A command is taken, or answered at once that it is not (R323, R324, R328). `ovr` is the packet's override flag (R317). -/
def State.wvCommand (s : State) (h : CmdHdr) (opc : Nat) (ovr : Bool) (p : List Byte) : State :=
  let no (c : Nat) : State := s.wvReply h opc c [] false
  if !s.getB LME_STATUS_RUNNING && opc != 1 && opc != 2 then no 1
  else match wvClass opc p with
    | none => no 2
    | some c =>
      if 16 ≤ s.lme.queue.length || s.wvFull c then no 1
      else
        let s := s.count CNT_WV_CMD
        let cmd : WvCmd := ⟨h, opc, ovr, p, s.tim.round⟩
        if s.wvMay s.lme.queue cmd then s.wvRun cmd else s.wvQueue cmd

/-! ### The rows of the table -/

/-- NOP. -/
def execNop (h : CmdHdr) (s : State) : Host.Outcome State Fault Refusal := done s (s.wvCommand h 0x00 false [])

/-- READ_STATE (R332): the address holds the space and the offset. -/
def execReadState (h : CmdHdr) (addr len : Word) (s : State) : Host.Outcome State Fault Refusal :=
  done s (s.wvCommand h 0x01 false (beBytes 4 addr.toNat ++ beBytes 4 len.toNat))

/-- DUMP (R333). -/
def execDump (h : CmdHdr) (mask : Word) (s : State) : Host.Outcome State Fault Refusal := done s (s.wvCommand h 0x02 false (beBytes 4 mask.toNat))

/-- REG_READ (R328). -/
def execRegRead (h : CmdHdr) (offs : List Word) (s : State) : Host.Outcome State Fault Refusal :=
  done s (s.wvCommand h 0x03 false (beBytes 2 offs.length ++ beBytes 2 0 ++ offs.flatMap (fun o => beBytes 4 o.toNat)))

/-- REG_WRITE (R328). -/
def execRegWrite (h : CmdHdr) (writes : List (Word × Word)) (s : State) : Host.Outcome State Fault Refusal :=
  done s (s.wvCommand h 0x04 false
    (beBytes 2 writes.length ++ beBytes 2 0 ++ writes.flatMap (fun (w : Word × Word) => beBytes 4 w.1.toNat ++ beBytes 4 w.2.toNat)))

/-- RETRAIN (R128, R325). -/
def execRetrain (h : CmdHdr) (s : State) : Host.Outcome State Fault Refusal := done s (s.wvCommand h 0x10 false [])

/-- LINK_DOWN (R131, R323). -/
def execLinkDown (h : CmdHdr) (s : State) : Host.Outcome State Fault Refusal := done s (s.wvCommand h 0x11 false [])

/-- SHIFT (R125, R325). -/
def execShift (h : CmdHdr) (width mode : Byte) (s : State) : Host.Outcome State Fault Refusal := done s (s.wvCommand h 0x12 false [width, mode, 0, 0])

/-- RETIRE_LANE (R277, R280). -/
def execRetireLane (h : CmdHdr) (lane : Byte) (s : State) : Host.Outcome State Fault Refusal := done s (s.wvCommand h 0x13 false [lane, 0, 0, 0])

/-- CASTLE (R135). -/
def execCastle (h : CmdHdr) (lane : Byte) (s : State) : Host.Outcome State Fault Refusal := done s (s.wvCommand h 0x14 false [lane, 0, 0, 0])

/-- SWEEP (R46). -/
def execSweep (h : CmdHdr) (lane : Byte) (s : State) : Host.Outcome State Fault Refusal := done s (s.wvCommand h 0x15 false [lane, 0, 0, 0])

/-- PATTERN (R52). -/
def execPattern (h : CmdHdr) (lane pat : Byte) (user ticks : Word) (s : State) : Host.Outcome State Fault Refusal :=
  done s (s.wvCommand h 0x16 false ([lane, pat, 0, 0] ++ beBytes 4 user.toNat ++ beBytes 4 ticks.toNat))

/-- PATTERN_TIME_END: the time of a PATTERN has passed, with the bits that its checker found in error (R52, R328, R341). -/
def execPatternTimeEnd (errs : Word) (s : State) : Host.Outcome State Fault Refusal := done s (s.patternEnds errs.toNat)

/-- DETECT (R19). -/
def execDetect (h : CmdHdr) (s : State) : Host.Outcome State Fault Refusal := done s (s.wvCommand h 0x17 false [])

/-- INST_RESET (R301, R328). -/
def execInstReset (h : CmdHdr) (ovr : Bool) (mem : Word) (s : State) : Host.Outcome State Fault Refusal :=
  done s (s.wvCommand h 0x20 ovr (beBytes 4 mem.toNat))

/-- SERVICE (R296). -/
def execService (h : CmdHdr) (s : State) : Host.Outcome State Fault Refusal := done s (s.wvCommand h 0x21 false [])

/-- MICROCODE_UPDATE (R312). -/
def execMicrocodeUpdate (h : CmdHdr) (s : State) : Host.Outcome State Fault Refusal := done s (s.wvCommand h 0x22 false [])

/-- ARITH_RESET (R261). -/
def execArithReset (h : CmdHdr) (s : State) : Host.Outcome State Fault Refusal := done s (s.wvCommand h 0x23 false [])

/-- LOAD_TURNS (R329): its 312 bytes of parameters. -/
def execLoadTurns (h : CmdHdr) (params : List Byte) (s : State) : Host.Outcome State Fault Refusal := done s (s.wvCommand h 0x30 false params)

/-- ARM (R165). -/
def execArm (h : CmdHdr) (round : BitVec 64) (s : State) : Host.Outcome State Fault Refusal := done s (s.wvCommand h 0x31 false (beBytes 8 round.toNat))

/-- HALT (R165). -/
def execHalt (h : CmdHdr) (s : State) : Host.Outcome State Fault Refusal := done s (s.wvCommand h 0x32 false [])

/-- SET_STRETCH_APPLY (R160). -/
def execSetStretchApply (h : CmdHdr) (k : Byte) (lower : Bool) (e : BitVec 64) (s : State) : Host.Outcome State Fault Refusal :=
  done s (s.wvCommand h 0x33 false ([k, if lower then 3 else 2, 0, 0, 0, 0, 0, 0] ++ beBytes 8 e.toNat))

/-- SET_STRETCH_FORWARD (R161). -/
def execSetStretchForward (h : CmdHdr) (k : Byte) (lower : Bool) (seq : Byte) (origin : BitVec 9) (e : BitVec 64) (s : State) :
    Host.Outcome State Fault Refusal :=
  done s (s.wvCommand h 0x33 false ([k, if lower then 5 else 4, seq, 0] ++ beBytes 2 origin.toNat ++ [0, 0] ++ beBytes 8 e.toNat))

/-- WHATIF (R159, R164). -/
def execWhatif (h : CmdHdr) (k width mode : Byte) (s : State) : Host.Outcome State Fault Refusal := done s (s.wvCommand h 0x34 false [k, width, mode, 0])

/-- VI_CREATE (R226). -/
def execViCreate (h : CmdHdr) (vi host : Byte) (guest : Bool) (share sbase4 scnt4 : Byte) (s : State) : Host.Outcome State Fault Refusal :=
  done s (s.wvCommand h 0x40 false [vi, host, if guest then 1 else 0, share, sbase4, scnt4, 0, 0])

/-- VI_BIND (R226). -/
def execViBind (h : CmdHdr) (ring vi : Byte) (unbind : Bool) (s : State) : Host.Outcome State Fault Refusal :=
  done s (s.wvCommand h 0x41 false [ring, vi, if unbind then 1 else 0, 0])

/-- VI_SHARE (R229). -/
def execViShare (h : CmdHdr) (vi share : Byte) (s : State) : Host.Outcome State Fault Refusal := done s (s.wvCommand h 0x42 false [vi, share, 0, 0])

/-- VI_RESET (R226, R234). -/
def execViReset (h : CmdHdr) (vi : Byte) (e : BitVec 64) (s : State) : Host.Outcome State Fault Refusal :=
  done s (s.wvCommand h 0x43 false ([vi, 0, 0, 0, 0, 0, 0, 0] ++ beBytes 8 e.toNat))

/-- VI_DESTROY (R226, R234). -/
def execViDestroy (h : CmdHdr) (vi : Byte) (e : BitVec 64) (s : State) : Host.Outcome State Fault Refusal :=
  done s (s.wvCommand h 0x44 false ([vi, 0, 0, 0, 0, 0, 0, 0] ++ beBytes 8 e.toNat))

/-- VI_RESTORE (R226, R298). -/
def execViRestore (h : CmdHdr) (vi : Byte) (last : Bool) (ent shr : Word) (s : State) : Host.Outcome State Fault Refusal :=
  done s (s.wvCommand h 0x45 false ([vi, if last then 1 else 0, 0, 0] ++ beBytes 4 ent.toNat ++ beBytes 4 shr.toNat))

/-- VI_NOTICE (R233). -/
def execViNotice (h : CmdHdr) (vi : Byte) (gen : BitVec 10) (nseq : Byte) (origin : BitVec 9) (s : State) : Host.Outcome State Fault Refusal :=
  done s (s.wvCommand h 0x46 false ([vi, 0] ++ beBytes 2 gen.toNat ++ [nseq, 0] ++ beBytes 2 origin.toNat))

/-- FW_WINDOW (R241). -/
def execFwWindow (h : CmdHdr) (index : BitVec 16) (w0 w1 w2 w3 : Word) (s : State) : Host.Outcome State Fault Refusal :=
  done s (s.wvCommand h 0x50 false
    (beBytes 2 index.toNat ++ [0, 0] ++ beBytes 4 w0.toNat ++ beBytes 4 w1.toNat ++ beBytes 4 w2.toNat ++ beBytes 4 w3.toNat))

/-- FW_QCLEAR (R246). -/
def execFwQclear (h : CmdHdr) (s : State) : Host.Outcome State Fault Refusal := done s (s.wvCommand h 0x51 false [])

/-- FW_DBG (R238). -/
def execFwDbg (h : CmdHdr) (unlock : Bool) (s : State) : Host.Outcome State Fault Refusal :=
  done s (s.wvCommand h 0x52 false [if unlock then 1 else 0, 0, 0, 0])

/-- LEDGER_TAKE (R330). -/
def execLedgerTake (h : CmdHdr) (ackseq : BitVec 16) (ackvalid : Bool) (s : State) : Host.Outcome State Fault Refusal :=
  done s (s.wvCommand h 0x61 false (beBytes 2 ackseq.toNat ++ [if ackvalid then 1 else 0, 0]))

/-- CHECKPOINT (R287). -/
def execCheckpoint (h : CmdHdr) (s : State) : Host.Outcome State Fault Refusal := done s (s.wvCommand h 0x63 false [])

/-- EPOCH (R272). -/
def execEpoch (h : CmdHdr) (s : State) : Host.Outcome State Fault Refusal := done s (s.wvCommand h 0x64 false [])

/-! ### What ends a HALT -/

/-- The commands that waited in the queue go on as far as they may. -/
def State.drain (s : State) : State := s.drainQueue (s.lme.queue.length + 1)

/-- ROUND_BOUNDARY (R146). -/
def execRoundBoundary (s : State) : Host.Outcome State Fault Refusal := done s s.roundDue.drain

end Sys2Proof.Machine
end

