-- ==== Sys2Proof/Machine/Packet.lean ====
section
/-! DEFINITION. Wilvel packets as they reach the instance (R317–R322): the length check, assembly of commands that span packets, routing, and
commands repeated on SB. -/

namespace Sys2Proof.Machine

/-- The parts of a packet (R317). -/
structure Packet where
  opc : Nat
  flags : Nat
  target : Nat
  h : CmdHdr
  status : Nat
  offset : Nat
  data : List Byte
  deriving DecidableEq, Repr

/-- Read a packet that came by a path. -/
def readPacket (path : WvPath) (b : List Byte) : Packet :=
  { opc := byteAt b 0, flags := byteAt b 1, target := byteAt b 2, h := ⟨path, b.getD 3 0, BitVec.ofNat 16 (bytesAt b 4 2)⟩, status := byteAt b 8
    offset := bytesAt b 12 4, data := b.drop 16 }

/-- The packet is a reply. -/
def Packet.reply (p : Packet) : Bool := bitOf p.flags 7
/-- Further packets of the same unit follow. -/
def Packet.more (p : Packet) : Bool := bitOf p.flags 6
/-- The override flag of INST-RESET. -/
def Packet.ovr (p : Packet) : Bool := bitOf p.flags 5

/-- `ORIGIN` and `TAG` are the same, whatever the paths (R322). -/
def sameTag (a b : CmdHdr) : Bool := a.origin == b.origin && a.tag == b.tag

/-- The command is one that the instance has running, or waiting (R322). -/
def State.runsAlready (s : State) (h : CmdHdr) (opc : Nat) : Bool :=
  s.lme.runs.any (fun r => sameTag r.h h && r.opc == opc) || s.lme.queue.any (fun c => sameTag c.h h && c.opc == opc)
    || s.tim.fwds.any (fun f => sameTag f.h h && f.opc == opc)

/-- A whole command has come: one that is repeated on SB is discarded, run again or answered from the log (R322). -/
def State.takeCommand (s : State) (h : CmdHdr) (opc : Nat) (ovr : Bool) (params : List Byte) : State :=
  if h.path != .sb then s.wvCommand h opc ovr params
  else if s.runsAlready h opc then s.count CNT_WV_DUP
  else match s.lme.log.reverse.find? (fun e => sameTag e.h h && e.opc == opc) with
    | none => s.wvCommand h opc ovr params
    | some e =>
      let s := s.count CNT_WV_DUP
      if opc ≤ 3 then s.wvCommand h opc ovr params else s.wvReply h opc e.status [] true

/-- A packet of a command of this instance: commands that span packets are assembled, and answered `FRAG` after their last packet where they are
malformed (R318). -/
def State.takePacket (s : State) (p : Packet) : State :=
  let a : WvAsm := (s.lme.asm.find? (fun a => a.h == p.h)).getD ⟨p.h, p.opc, [], false⟩
  let b : WvAsm := { a with got := a.got ++ p.data
                            bad := a.bad || p.opc != a.opc || p.offset != a.got.length || decide (8192 < a.got.length + p.data.length) }
  let rest := s.lme.asm.filter (fun x => x.h != p.h)
  if p.more then { s with lme := { s.lme with asm := rest ++ [b] } }
  else
    let s := { s with lme := { s.lme with asm := rest } }
    if b.bad then s.wvReply p.h b.opc 0x0F [] false else s.takeCommand p.h b.opc p.ovr b.got

/-- A packet for another target is handed on: from the link to the core side, from the core side to the link (R320). -/
def State.handOn (s : State) (path : WvPath) (rpl : Bool) (b : List Byte) : State :=
  match path with
  | .core => s.queueMsg (mkLong 5 (if rpl then 2 else 1) b) true
  | _ => s.emit (.packet .core b)

/-- A packet of good length is routed (R320). A Far instance, and HG0 and HG1, hand every packet from the link to the core side. A mailbox command for
another target is answered once, after its last packet. -/
def State.routePacket (s : State) (path : WvPath) (b : List Byte) : State :=
  let p := readPacket path b
  if (path = .mgt || path == .sb) && (s.far || s.guestEdge) then
    s.emit (.packet .core (if s.guestEdge then b.take 3 ++ [0xFD] ++ b.drop 4 else b))
  else if p.target = s.place || p.target == 0xFF then
    if p.reply then (if p.opc = 0x60 then s.onPutReply p.h.tag.toNat p.status else s) else s.takePacket p
  else if path = .mailbox then (if p.more then s else s.wvReply p.h p.opc 4 [] false)
  else s.handOn path p.reply b

/-- A packet comes in, carried by some bytes: its own length field bounds it (R318). -/
def State.packetIn (s : State) (path : WvPath) (l : List Byte) : State :=
  let n := bytesAt l 6 2
  if l.length < 16 || n < 16 || n % 4 != 0 || l.length < n then s.count CNT_WV_BAD else s.routePacket path (l.take n)

/-- The instance takes the packet in `MBX_CMD`, if one is offered (R321). -/
def State.mbxTake (s : State) : State :=
  if !s.getB MBX_STATUS_CMDFULL then s else (s.setB MBX_STATUS_CMDFULL false).packetIn .mailbox s.mbxBytes

/-- WILVEL_PACKET_RECEIVE: a packet by one of the four paths (R319, R320). The mailbox's is the one that its registers hold. -/
def execWilvelPacketReceive (path : WvPath) (packet : List Byte) (s : State) : Host.Outcome State Fault Refusal :=
  done s (if path = .mailbox then s.mbxTake else s.packetIn path packet)

end Sys2Proof.Machine
end

