-- ==== Sys2Proof/Machine/Delivery.lean ====
section
/-! DEFINITION. Delivery to the core side (R75–R77, R231, R232), stream releases at their due ticks (R153), training messages as SB frames and
training blocks carry them (R32, R110), and the queues of events and trace records (R345, R348). -/

namespace Sys2Proof.Machine

/-! ### Messages, R75–R77 -/

/-- The message is a FENCE. -/
def isFence (m : List Pip) : Bool := (msgHead m).chan == 0 && (msgHead m).op == 8

/-- The message names its source in an OW: those of R230, and COH (R67, R70). -/
def hasSource (m : List Pip) : Bool := carriesOw m || (msgHead m).chan == 2

/-- Two messages that carry an OW have one source: VI, die and pod (R67). -/
def sameSource (a b : List Pip) : Bool :=
  hasSource a && hasSource b && owVi (msgOw a) == owVi (msgOw b) && msgOw a % 2 ^ 14 == msgOw b % 2 ^ 14

/-- A FENCE may be delivered: every message of its source accepted before it has been, and every stream flit accepted before it was released
(R77). -/
def State.fenceFree (s : State) (x : RxMsg) : Bool :=
  !s.dlv.rx.any (fun y => decide (y.order < x.order) && sameSource y.m x.m) && decide (x.streams ≤ s.trn.released)

/-- Whether the message is stale by the table that R231 names for it, and the state with what the test has learned (R232). -/
def State.staleHere (s : State) (m : List Pip) : Bool × State :=
  let ow := msgOw m
  if !carriesOw m then (false, s)
  else if owPod ow = s.pod_ then (s.staleOw ow, s)
  else if s.far && (msgHead m).chan != 1 then s.podTest (owPod ow) (owVi ow) (owGen ow)
  else (false, s)

/-- A message goes where it belongs: an answer to its mover or job, a Wilvel packet through the routing of R320, everything else to the core
side. -/
def State.handMessage (s : State) (m : List Pip) : State :=
  if s.ownAnswer m then s.answer m
  else if (msgHead m).chan = 5 then s.packetIn .mgt (msgContent m)
  else s.emit (.core m)

/-- The message leaves its buffer; its pips are free and owed (R96). A stale one is discarded as consumed (R236). -/
def State.deliver (s : State) (x : RxMsg) : State :=
  let s := { s with dlv := { s.dlv with rx := s.dlv.rx.filter (fun y => y.order != x.order) } }
  let s := s.freeHeld x.chan x.m.length
  let r := s.staleHere x.m
  if r.1 then r.2.count CNT_VI_STALE else r.2.handMessage x.m

/-- The message can be delivered now: one for the core side through crossing 2, a packet to the LME through crossing 4; answers stay in the link-core
(R252, R253). -/
def State.canDeliver (s : State) (m : List Pip) : Bool :=
  s.ownAnswer m || (if (msgHead m).chan = 5 then s.xOpen 4 else s.xOpen 2)

/-- The oldest message of a channel that has not been delivered. -/
def State.rxFirst (s : State) (c : Nat) : Option RxMsg := s.dlv.rx.find? (fun x => x.chan == c)

/-- The oldest message of a channel is delivered, one link-core cycle after its acceptance at the earliest, a FENCE under R77. While its way is closed
it waits in its buffer (R253). -/
def State.deliverFirst (s : State) (c : Nat) : State :=
  match s.rxFirst c with
  | none => s
  | some x =>
    if !s.canDeliver x.m then s
    else if isFence x.m then
      if !s.fenceFree x then s else
      let t := s.advanceTo (x.at_ + 2)
      (t.countIf (decide (x.at_ + 8 < t.now)) CNT_FENCE_WAIT 1).deliver x
    else (s.advanceTo (x.at_ + 2)).deliver x

/-- MESSAGE_DELIVERY: the core side accepts the oldest message of a channel (R76, R96, R231). -/
def execMessageDelivery (c : Fin 6) (s : State) : Host.Outcome State Fault Refusal := done s (s.deliverFirst c)

/-- FENCE_DELIVERY: a FENCE at the head of REQ whose conditions hold is delivered (R77). -/
def execFenceDelivery (s : State) : Host.Outcome State Fault Refusal :=
  done s (match s.rxFirst 0 with
    | none => s
    | some x => if isFence x.m then s.deliverFirst 0 else s)

/-! ### Stream flits, R153 -/

/-- STREAM_DUE_TICK: the next due tick comes, and what is due then happens. -/
def execStreamDueTick (s : State) : Host.Outcome State Fault Refusal :=
  done s (match s.nextDue with
    | none => s
    | some (t, _) =>
      let s := s.advanceDie t
      if s.tick < t then s else
      let s := if s.trn.void then s.settleVoidTx 65536 else s
      s.dueNow)

/-! ### Training messages, R32 and R110 -/

/-- A training message: `seen` and `off` are the lanes that the receivers see, and those out of tolerance, as it comes (R111, R113). -/
def State.onTraining (s : State) (tcode : Nat) (body : List Byte) (seen off : Nat) : State :=
  match tcode with
  | 1 => s.detectSeen (readDetect body) seen off
  | 2 => s.onEqSet (readEq body)
  | 3 => s.onEqDone (readEq body)
  | 4 => s.onResult (byteAt body 0) (bytesAt body 1 3)
  | 5 => s.onCap (padTo 24 body)
  | 6 => s.onCapGot
  | 7 => s.onReady (readReady body)
  | 8 => s.onRetrain (byteAt body 0)
  | 9 => s.onAbort (byteAt body 0)
  | _ => s

/-- The sideband is up: Near only (R31). -/
def State.sbUp (s : State) : Bool := !s.far && s.getF (LANE_STATUS_STATE 18) == 3

/-- What SB sends between frames while it is up: K28.5 without end (R32). -/
def State.sbBetween (s : State) : Option SbChar := if s.sbUp then some sbComma else none

/-- SB_FRAME_RECEIVE: the characters between K27.7 and the end, whether a code error was met and whether K29.7 follows (R32). A frame of type 0x03
has done its work by arriving. -/
def execSbFrameReceive (codeError : Bool) (body : List Byte) (endsRight : Bool) (seen off : BitVec 24) (s : State) : Host.Outcome State Fault Refusal :=
  let ty := byteAt body 0
  let n := bytesAt body 1 2
  let bad := codeError || !endsRight || decide (1024 < n) || body.length != n + 5 || crc16 (body.take (n + 3)) != bytesAt body (n + 3) 2
    || ty == 0 || decide (3 < ty)
  let payload := (body.drop 3).take n
  done s (
    if !s.sbUp then s
    else if bad then s.count CNT_SB_BAD
    else if ty = 1 then s.onTraining (byteAt payload 0) (payload.drop 2) seen.toNat off.toNat
    else if ty = 2 then s.packetIn .sb payload
    else s)

/-- A good training block: the content beside its lane, and the lane. -/
def blockContent (b : List Byte) : List Byte × Nat := ((b.drop 4).take 1 ++ (b.drop 6).take 54, byteAt b 5)

/-- A good block is one more copy of the message acted on last: the content is the same, and this lane's copy had not come (R110; log entry 140). -/
def State.isCopy (s : State) (b : List Byte) : Bool :=
  match s.lnk.copy with
  | some p => p.1 == (blockContent b).1 && !p.2.contains (blockContent b).2
  | none => false

/-- A good block arrives: the first copy of a message is acted on (R110). -/
def State.onBlock (s : State) (b : List Byte) (seen off : Nat) : State :=
  let c := blockContent b
  if s.isCopy b then { s with lnk := { s.lnk with copy := s.lnk.copy.map (fun p => (p.1, c.2 :: p.2)) } }
  else ({ s with lnk := { s.lnk with copy := some (c.1, [c.2]) } }).onTraining (byteAt b 4) ((b.drop 8).take (min 52 (bytesAt b 6 2))) seen off

/-- TRAINING_BLOCK_RECEIVE: a 64-byte block on a Far instance (R110). -/
def execTrainingBlockReceive (block : BitVec 512) (seen off : BitVec 24) (s : State) : Host.Outcome State Fault Refusal :=
  let b := beBytes 64 block.toNat
  done s (
    if !s.far then s
    else if bytesAt b 0 4 != 0xBC4ABC4A || crc16 ((b.drop 4).take 56) != bytesAt b 60 2 then s.count CNT_SB_BAD
    else s.onBlock b seen.toNat off.toNat)

/-! ### Events and trace records -/

/-- EVENT_DELIVERY: the oldest event of the queue leaves to the core side (R345). -/
def execEventDelivery (s : State) : Host.Outcome State Fault Refusal :=
  done s (match s.evq with
    | [] => s
    | e :: r => if !(s.xOpen 2 && s.xOpen 4) then s else
      ({ s with evq := r }).emit (.core (msgEvent (evWord s.place e.cls e.code) e.tick.toNat)))

/-- TRACE_DELIVERY: the oldest record of the trace queue leaves to the core side as a TRACE message (R348). -/
def execTraceDelivery (s : State) : Host.Outcome State Fault Refusal :=
  done s (match s.trq with
    | [] => s
    | r :: l => if !(s.xOpen 2 && s.xOpen 4) then s else ({ s with trq := l }).emit (.core (mkLong 4 1 r)))

end Sys2Proof.Machine
end

