-- ==== Sys2Proof/Machine/FoldCmds.lean ====
section
/-! DEFINITION. The commands of the Fold unit (R196–R200, R219): combining an element, giving results out, relays; and the arrival of relayed
stream data (R181). -/

namespace Sys2Proof.Machine

/-- Operands and anchors are read ahead for a context (R200, R217). -/
def State.readAhead (s : State) (c : Nat) : State := (s.refill (0x10000 + c)).refill (0x20000 + c)

/-- An element that is ready takes its slots: 128 are spent in a cycle at most, and one that finds too few left waits for the next cycle, which
`CNT_FOLD_BUSY` counts (R192, R218, R353; log entry 114). -/
def State.takeSlots (s : State) (c : Nat) : State :=
  let q := s.slotCost c
  if s.slotsSpent + q ≤ 1024 then s.spendSlots q
  else ((s.count CNT_FOLD_BUSY).advanceTo (cycleStart (cycleOf s.now + 1))).spendSlots q

/-- ELEMENT_COMBINE: the next element of a context is combined when all of its inputs are present (R219) and it has its slots (R218). Contexts work only
while a schedule runs, only when valid (R199, R200), and only while the arithmetic island runs (R255). -/
def execElementCombine (c : Fin 32) (s : State) : Host.Outcome State Fault Refusal :=
  done s (if s.run && s.ctxOk c && s.clockRuns && s.clkSeen .arith then
      let s := s.readAhead c
      if (s.combineNext c).isNone then s else
      match (s.takeSlots c).combineNext c with
      | none => s
      | some t => t.readAhead c
    else s)

/-- The Round that the next results of a context for its window are of, and how many of them are (R200). -/
def State.outRound (s : State) (c : Nat) : Nat × Nat :=
  let x := s.ctx c
  match x.owed.find? (fun o => o.2 != 0) with
  | some o => o
  | none => (x.rounds.headD s.tim.round, x.outQ.length)

/-- Results of a context are written to its window, a line and a Round at a time, as far as its room allows (R200). -/
def State.outWindow (s : State) (c w : Nat) : Nat → State
  | 0 => s
  | fuel + 1 =>
    let x := s.ctx c
    let at_ := (s.winProd w + s.aheadOf (0x30000 + w)) % 128
    let r := s.outRound c
    let n := min (min r.2 (min x.outQ.length (s.winRoom w))) (128 - at_)
    if n = 0 then s else
    ((s.winWrite w (s.ctxVi c) r.1 (x.outQ.take n)).setCtx c
      { x with outQ := x.outQ.drop n, owed := x.owed.map (fun o => (o.1, o.2 - n)) }).outWindow c w fuel

/-- Rounds whose every result has been given to the window are due for publication (R182, R200). -/
def State.outPublish (s : State) (c w : Nat) : State :=
  let x := s.ctx c
  { s.setCtx c { x with owed := x.owed.filter (fun o => o.2 != 0) } with
    mov := { s.mov with pub := s.mov.pub ++ (x.owed.filter (fun o => o.2 == 0)).map (fun o => (w, o.1)) } }

/-- FOLD_OUTPUT: results leave a context for its window or its relay; those for a stream wait until its next flit takes them (R197, R198, R200). -/
def execFoldOutput (c : Fin 32) (s : State) : Host.Outcome State Fault Refusal :=
  let sel := s.getF (FOLD_CTX_DST_OUTSEL c)
  let dst := s.getF (FOLD_CTX_DST_OUTDST c)
  done s (if !(s.run && s.ctxOk c && s.xOpen 3) then s
    else if dst = 1 then (s.outWindow c (sel % 32) 4096).outPublish c (sel % 32)
    else if dst = 2 then
      let x := s.ctx c
      if x.outQ.isEmpty then s else (s.setCtx c { x with outQ := [], owed := [] }).emit (.relayFold (sel / 32) (sel % 32) x.outQ)
    else s)

/-- The results of a context of another instance of the die reach IN or OPND of this one, which must name it (R198, R219). An IN relay that finds no
room is an overrun; an OPND relay waits for room on the on-die network. -/
def State.relayIn (s : State) (c : Nat) (toOpnd : Bool) (d : RelayData) : State :=
  if !(s.run && s.ctxOk c) then s
  else if toOpnd then
    if s.getF (FOLD_CTX_SRC_OPSRC c) = 2 && s.getF (FOLD_CTX_SRC_OPSEL c) == d.src.toNat && decide (d.bytes.length ≤ s.ctxFree c) then s.stage_ (0x10000 + c) d.bytes else s
  else if s.getF (FOLD_CTX_SRC_INSRC c) = 2 && s.getF (FOLD_CTX_SRC_INSEL c) == d.src.toNat then s.feedIn c d.bytes else s

/-- RELAY_RECEIVE: the results of context `src` of another instance of the die come through crossings 2 and 3 (R198, R252). -/
def execRelayReceive (c : Fin 32) (toOpnd : Bool) (data : RelayData) (s : State) : Host.Outcome State Fault Refusal :=
  done s (s.through [2, 3] (.relayReceive c toOpnd data) (State.relayIn · c toOpnd data))

/-- Data that a receive stream of another instance released reaches the transmit stream here, which must name them, and is ready (R181). Where it does
not, its port is invalid: the data is discarded and counted (R183). -/
def State.streamIn (s : State) (id : Nat) (d : StreamData) : State :=
  if s.descValid id && !s.descRx id && s.portKind id == 3 && s.portOk id false && s.descPort id % 128 == d.inst.toNat
      && bitsOf (s.descPort id) 16 10 == d.src.toNat then s.stage_ id d.bytes
  else s.portBad id

/-- STREAM_RELAY_ARRIVAL: data of a stream of another instance of the die comes through crossing 2 (R181, R253). -/
def execStreamRelayArrival (stream : BitVec 10) (data : StreamData) (s : State) : Host.Outcome State Fault Refusal :=
  done s (s.through [2] (.streamRelayArrival stream data) (State.streamIn · stream.toNat data))

end Sys2Proof.Machine
end

