-- ==== Sys2Proof/Machine/Crossing.lean ====
section
/-! DEFINITION. Crossings that open again (R255, R256): what waited at them goes on in order, at the return of a clock and at the end of a
handshake. -/

namespace Sys2Proof.Machine

/-- A waiting entry can go on: what the core side keeps in Hold is taken otherwise (`State.takeOffers`). -/
def State.mayPass (s : State) (x : Nat) : XEnt → Bool
  | .access r _ _ off _ => if r = .coreSide then s.xOpen x else s.reaches off
  | .bad r _ off => if r = .coreSide then s.xOpen x else s.reaches off
  | _ => decide (x < 6) && s.xOpen x

/-- What a command brought takes its effect, or waits at the next crossing on its way. -/
def State.arrive (s : State) (i : Instr) : State :=
  match i with
  | .flitReceive _ w => s.hear.onWire w
  | .moverResponseReceive m => s.answer m
  | .descriptorFetchReturn tag st line => s.fetchReturns tag.toNat st.toNat line
  | .pathDownReport tag => s.pathDown tag.toNat
  | .acquireConfirm m => s.confirmed m
  | .deckFetchComplete page ok => s.deckCame page ok
  | .streamRelayArrival id d => s.streamIn id.toNat d
  | .relayReceive c o d => s.through [2, 3] i (State.relayIn · c o d)
  | _ => s

/-- A waiting entry goes on. -/
def State.enter (s : State) : XEnt → State
  | .message m => s.offer m
  | .access r w vi off v => s.accessCmd r w vi off v
  | .bad r w off => s.badCmd r w off
  | .arrival i => s.arrive i
  | .out (.packet .core b) => s.packetToCore b
  | .out o => s.emit o
  | .fold c n data => s.intoFold c n data

/-- The entries that can go on do so, oldest first. -/
def State.passEntries (s : State) : Nat → State
  | 0 => s
  | fuel + 1 =>
    match s.isl.wait.find? (fun p => s.mayPass p.1 p.2) with
    | none => s
    | some p => (({ s with isl := { s.isl with wait := s.isl.wait.erase p } }).enter p.2).passEntries fuel

/-- What waited at crossings that are open goes on, through a second crossing where its way takes it; then commands of the LME, and jobs. -/
def State.flush (s : State) : State := (s.passEntries (2 * s.isl.wait.length)).drain.jobsRun

/-- CLOCK_RETURN_DETECT: the clock is back; a crossing stays marked while another of its clocks is stopped (R255). With the management
clock the events that waited are counted (R258). What waited at the crossings goes on. -/
def execClockReturnDetect (c : Clk) (s : State) : Host.Outcome State Fault Refusal :=
  done s (if s.clkSeen c then s else
    let s := (if c = .mgmt then s.pendingEnds else s).setSeen c true
    let stopped := [Clk.linkCore, Clk.arith, Clk.core, Clk.mgmt].filter (fun d => !s.clkSeen d)
    (s.setF ISL_XING_STOPPED (maskOf (stopped.flatMap xingsOf))).flush)

/-- CROSSING_HANDSHAKE_STEP: the next of the steps 2–5 of R256 at a crossing, with the number of entries then unread. The last one reopens
it, and what waited goes on; T1 passes with the last crossing. -/
def execCrossingHandshakeStep (x : Fin 6) (unread : Nat) (s : State) : Host.Outcome State Fault Refusal :=
  let h := s.isl.hs.getD x 0
  let put (s : State) (v : Nat) : State := { s with isl := { s.isl with hs := listSet s.isl.hs x v } }
  done s (
    if h = 0 then s
    else if h < 4 then put (if h = 1 then s.discardUnread x unread else s) (h + 1)
    else
      let s := ((put s 0).setF ISL_XING_RESYNC (putBit (s.getF ISL_XING_RESYNC) x false)).count CNT_XING_RESYNC
      s.crossingsOpen.flush)

/-- DIE_CLOCK_RETURN: entries held across the stop are read in order (R255, R262, R268, R303). -/
def execDieClockReturn (s : State) : Host.Outcome State Fault Refusal := done s s.clockBack.flush

end Sys2Proof.Machine
end

