-- ==== Sys2Proof/Machine/Dispatch.lean ====
section
/-! DEFINITION. The dispatch: one arm per command of the table, each a direct call of its meaning. -/

namespace Sys2Proof.Machine

/-- The effect of a command on everything but the queue of waiting commands. -/
def exec (i : Instr) (s : State) : Host.Outcome State Fault Refusal :=
  match i with
  | .packageReset => Sys2Proof.Machine.execPackageReset s
  | .instanceReset => Sys2Proof.Machine.execInstanceReset s
  | .dieReset => Sys2Proof.Machine.execDieReset s
  | .dieResetRelease => Sys2Proof.Machine.execDieResetRelease s
  | .dieClockLoss => Sys2Proof.Machine.execDieClockLoss s
  | .dieClockReturn => Sys2Proof.Machine.execDieClockReturn s
  | .powerLoss => Sys2Proof.Machine.execPowerLoss s
  | .clockStopDetect c => Sys2Proof.Machine.execClockStopDetect c s
  | .clockReturnDetect c => Sys2Proof.Machine.execClockReturnDetect c s
  | .crossingHandshakeStep x unread => Sys2Proof.Machine.execCrossingHandshakeStep x unread s
  | .resetWarning own clock => Sys2Proof.Machine.execResetWarning own clock s
  | .peerDieRstChange v => Sys2Proof.Machine.execPeerDieRstChange v s
  | .peerClkokChange v => Sys2Proof.Machine.execPeerClkokChange v s
  | .silenceTimeout => Sys2Proof.Machine.execSilenceTimeout s
  | .holdExpiry => Sys2Proof.Machine.execHoldExpiry s
  | .lossOfSignal lane lost => Sys2Proof.Machine.execLossOfSignal lane lost s
  | .supplyDroop => Sys2Proof.Machine.execSupplyDroop s
  | .pathDownReport tag => Sys2Proof.Machine.execPathDownReport tag s
  | .pairPartnerUpdate pod port passed => Sys2Proof.Machine.execPairPartnerUpdate pod port passed s
  | .registerWrite r off v => Sys2Proof.Machine.execRegisterWrite r off v s
  | .unalignedAccess r write off => Sys2Proof.Machine.execUnalignedAccess r write off s
  | .lowWordRead r off => Sys2Proof.Machine.execLowWordRead r off s
  | .coreSideAccess write vi off v => Sys2Proof.Machine.execCoreSideAccess write vi off v s
  | .laneTxeqWrite lane v => Sys2Proof.Machine.execLaneTxeqWrite lane v s
  | .laneRxeqWrite lane v => Sys2Proof.Machine.execLaneRxeqWrite lane v s
  | .eqPendingApply lane => Sys2Proof.Machine.execEqPendingApply lane s
  | .lanePatStart lane pat => Sys2Proof.Machine.execLanePatStart lane pat s
  | .lanePatStop lane errs => Sys2Proof.Machine.execLanePatStop lane errs s
  | .linkCtrlDown => Sys2Proof.Machine.execLinkCtrlDown s
  | .linkCtrlRetrain => Sys2Proof.Machine.execLinkCtrlRetrain s
  | .turnCtrlCheck => Sys2Proof.Machine.execTurnCtrlCheck s
  | .fitCheckEnd deck => Sys2Proof.Machine.execFitCheckEnd deck s
  | .turnCtrlArm => Sys2Proof.Machine.execTurnCtrlArm s
  | .turnCtrlHalt => Sys2Proof.Machine.execTurnCtrlHalt s
  | .streamDescriptorWrite id word v => Sys2Proof.Machine.execStreamDescriptorWrite id word v s
  | .movRingHeadWrite ring v => Sys2Proof.Machine.execMovRingHeadWrite ring v s
  | .movRingEnable ring en => Sys2Proof.Machine.execMovRingEnable ring en s
  | .movSwinEnable w v => Sys2Proof.Machine.execMovSwinEnable w v s
  | .movSwinProdWrite w v => Sys2Proof.Machine.execMovSwinProdWrite w v s
  | .movSwinConsWrite w v => Sys2Proof.Machine.execMovSwinConsWrite w v s
  | .foldCtxEnable c en => Sys2Proof.Machine.execFoldCtxEnable c en s
  | .foldXjGo j => Sys2Proof.Machine.execFoldXjGo j s
  | .islCtrlArst => Sys2Proof.Machine.execIslCtrlArst s
  | .ageCtrlCkptnow => Sys2Proof.Machine.execAgeCtrlCkptnow s
  | .ageCtrlEpochnow => Sys2Proof.Machine.execAgeCtrlEpochnow s
  | .startCtrlService => Sys2Proof.Machine.execStartCtrlService s
  | .startCtrlDetect => Sys2Proof.Machine.execStartCtrlDetect s
  | .lmeCtrlLoad => Sys2Proof.Machine.execLmeCtrlLoad s
  | .lmeLoadWord v => Sys2Proof.Machine.execLmeLoadWord v s
  | .lmeCtrlStart => Sys2Proof.Machine.execLmeCtrlStart s
  | .ucodeCheckEnd => Sys2Proof.Machine.execUcodeCheckEnd s
  | .mbxCtrlSend => Sys2Proof.Machine.execMbxCtrlSend s
  | .mbxCtrlNext => Sys2Proof.Machine.execMbxCtrlNext s
  | .fwWinSelCommit index => Sys2Proof.Machine.execFwWinSelCommit index s
  | .fwWinSelRead index => Sys2Proof.Machine.execFwWinSelRead index s
  | .fwCtrlQclear => Sys2Proof.Machine.execFwCtrlQclear s
  | .fwCtrlDbgUnlock => Sys2Proof.Machine.execFwCtrlDbgUnlock s
  | .flitReceive dt wire => Sys2Proof.Machine.execFlitReceive dt wire s
  | .transmitFlit dt => Sys2Proof.Machine.execTransmitFlit dt s
  | .ackTimeout => Sys2Proof.Machine.execAckTimeout s
  | .coreMessageOffer m => Sys2Proof.Machine.execCoreMessageOffer m s
  | .messageDelivery c => Sys2Proof.Machine.execMessageDelivery c s
  | .fenceDelivery => Sys2Proof.Machine.execFenceDelivery s
  | .streamDueTick => Sys2Proof.Machine.execStreamDueTick s
  | .creditInitReceive m => Sys2Proof.Machine.execCreditInitReceive m s
  | .creditInitRepeat => Sys2Proof.Machine.execCreditInitRepeat s
  | .creditExchangeTimeout => Sys2Proof.Machine.execCreditExchangeTimeout s
  | .tallySend => Sys2Proof.Machine.execTallySend s
  | .tallyReceive m => Sys2Proof.Machine.execTallyReceive m s
  | .stalemateCheck c => Sys2Proof.Machine.execStalemateCheck c s
  | .loopProbeSend => Sys2Proof.Machine.execLoopProbeSend s
  | .loopProbeReceive id => Sys2Proof.Machine.execLoopProbeReceive id s
  | .loopEchoReceive id turn => Sys2Proof.Machine.execLoopEchoReceive id turn s
  | .loopExchangeTimeout => Sys2Proof.Machine.execLoopExchangeTimeout s
  | .quiRunStart => Sys2Proof.Machine.execQuiRunStart s
  | .sbFrameReceive codeError body endsRight seen off => Sys2Proof.Machine.execSbFrameReceive codeError body endsRight seen off s
  | .trainingBlockReceive block seen off => Sys2Proof.Machine.execTrainingBlockReceive block seen off s
  | .detectMessage m seen off => Sys2Proof.Machine.execDetectMessage m seen off s
  | .eqSetMessage m => Sys2Proof.Machine.execEqSetMessage m s
  | .eqDoneMessage m => Sys2Proof.Machine.execEqDoneMessage m s
  | .eqResultMessage mode pass => Sys2Proof.Machine.execEqResultMessage mode pass s
  | .capMessage rec => Sys2Proof.Machine.execCapMessage rec s
  | .capGotMessage => Sys2Proof.Machine.execCapGotMessage s
  | .readyMessage m => Sys2Proof.Machine.execReadyMessage m s
  | .retrainMessage cause => Sys2Proof.Machine.execRetrainMessage cause s
  | .abortMessage reason => Sys2Proof.Machine.execAbortMessage reason s
  | .trainingRepeat => Sys2Proof.Machine.execTrainingRepeat s
  | .detectTimeout seen off sb => Sys2Proof.Machine.execDetectTimeout seen off sb s
  | .eqSearchPoint lane snr => Sys2Proof.Machine.execEqSearchPoint lane snr s
  | .eqQualifyEnd errs inverted => Sys2Proof.Machine.execEqQualifyEnd errs inverted s
  | .equaliseTimeout => Sys2Proof.Machine.execEqualiseTimeout s
  | .negotiateTimeout => Sys2Proof.Machine.execNegotiateTimeout s
  | .miscableCapResend => Sys2Proof.Machine.execMiscableCapResend s
  | .miscableHoldExpiry => Sys2Proof.Machine.execMiscableHoldExpiry s
  | .startMarkerSend => Sys2Proof.Machine.execStartMarkerSend s
  | .startMarkerReceive => Sys2Proof.Machine.execStartMarkerReceive s
  | .retrainLaneCheckEnd errs => Sys2Proof.Machine.execRetrainLaneCheckEnd errs s
  | .retrainTimeout => Sys2Proof.Machine.execRetrainTimeout s
  | .shiftReqReceive m => Sys2Proof.Machine.execShiftReqReceive m s
  | .shiftAckReceive m => Sys2Proof.Machine.execShiftAckReceive m s
  | .shiftReqRepeat => Sys2Proof.Machine.execShiftReqRepeat s
  | .shiftTxSwitch => Sys2Proof.Machine.execShiftTxSwitch s
  | .shiftRxSwitch => Sys2Proof.Machine.execShiftRxSwitch s
  | .rateLowerGapEnd => Sys2Proof.Machine.execRateLowerGapEnd s
  | .laneEqPrep reqid lane => Sys2Proof.Machine.execLaneEqPrep reqid lane s
  | .laneEqSet reqid lane v => Sys2Proof.Machine.execLaneEqSet reqid lane v s
  | .laneEqSetDone reqid lane v => Sys2Proof.Machine.execLaneEqSetDone reqid lane v s
  | .laneEqQual lane => Sys2Proof.Machine.execLaneEqQual lane s
  | .laneEqFail lane => Sys2Proof.Machine.execLaneEqFail lane s
  | .laneEqMeasure reqid lane => Sys2Proof.Machine.execLaneEqMeasure reqid lane s
  | .laneEqRelease reqid lane => Sys2Proof.Machine.execLaneEqRelease reqid lane s
  | .laneEqRepeat => Sys2Proof.Machine.execLaneEqRepeat s
  | .spareQualifyEnd lane errs => Sys2Proof.Machine.execSpareQualifyEnd lane errs s
  | .holdNoticeReceive cause => Sys2Proof.Machine.execHoldNoticeReceive cause s
  | .roundBoundary => Sys2Proof.Machine.execRoundBoundary s
  | .timeSyncRequestSend => Sys2Proof.Machine.execTimeSyncRequestSend s
  | .timeSyncRequestReceive m => Sys2Proof.Machine.execTimeSyncRequestReceive m s
  | .timeSyncReplyReceive m => Sys2Proof.Machine.execTimeSyncReplyReceive m s
  | .deckFetchIssue => Sys2Proof.Machine.execDeckFetchIssue s
  | .deckFetchComplete page ok => Sys2Proof.Machine.execDeckFetchComplete page ok s
  | .deckFetchDeadline => Sys2Proof.Machine.execDeckFetchDeadline s
  | .stretchReceive m => Sys2Proof.Machine.execStretchReceive m s
  | .stretchRepeat => Sys2Proof.Machine.execStretchRepeat s
  | .genNoticeReceive m => Sys2Proof.Machine.execGenNoticeReceive m s
  | .genNoticeRepeat => Sys2Proof.Machine.execGenNoticeRepeat s
  | .descriptorFetchIssue ring => Sys2Proof.Machine.execDescriptorFetchIssue ring s
  | .descriptorFetchReturn tag status line => Sys2Proof.Machine.execDescriptorFetchReturn tag status line s
  | .copyDescriptor m ring => Sys2Proof.Machine.execCopyDescriptor m ring s
  | .signalDescriptor m ring => Sys2Proof.Machine.execSignalDescriptor m ring s
  | .waitDescriptor m ring => Sys2Proof.Machine.execWaitDescriptor m ring s
  | .fenceDescriptor m ring => Sys2Proof.Machine.execFenceDescriptor m ring s
  | .moverRequestIssue m => Sys2Proof.Machine.execMoverRequestIssue m s
  | .moverResponseReceive msg => Sys2Proof.Machine.execMoverResponseReceive msg s
  | .waitPoll m => Sys2Proof.Machine.execWaitPoll m s
  | .waitTimeout m => Sys2Proof.Machine.execWaitTimeout m s
  | .responseTimeout tag => Sys2Proof.Machine.execResponseTimeout tag s
  | .acquireConfirm m => Sys2Proof.Machine.execAcquireConfirm m s
  | .windowPublish w => Sys2Proof.Machine.execWindowPublish w s
  | .elementCombine c => Sys2Proof.Machine.execElementCombine c s
  | .foldOutput c => Sys2Proof.Machine.execFoldOutput c s
  | .relayReceive c toOpnd data => Sys2Proof.Machine.execRelayReceive c toOpnd data s
  | .xjEnd j => Sys2Proof.Machine.execXjEnd j s
  | .quarantinePropagate quar => Sys2Proof.Machine.execQuarantinePropagate quar s
  | .rateBucketRefill c => Sys2Proof.Machine.execRateBucketRefill c s
  | .epochDue => Sys2Proof.Machine.execEpochDue s
  | .csrSample lane carried => Sys2Proof.Machine.execCsrSample lane carried s
  | .snrRefresh lane snr => Sys2Proof.Machine.execSnrRefresh lane snr s
  | .temperatureReading t => Sys2Proof.Machine.execTemperatureReading t s
  | .sweepPointStart lane => Sys2Proof.Machine.execSweepPointStart lane s
  | .sweepPointEnd e => Sys2Proof.Machine.execSweepPointEnd e s
  | .checkpointDue => Sys2Proof.Machine.execCheckpointDue s
  | .ledgerPutSend => Sys2Proof.Machine.execLedgerPutSend s
  | .ledgerPutReply tag status => Sys2Proof.Machine.execLedgerPutReply tag status s
  | .ledgerPutResend => Sys2Proof.Machine.execLedgerPutResend s
  | .stageAdvance step => Sys2Proof.Machine.execStageAdvance step s
  | .stageTimeout => Sys2Proof.Machine.execStageTimeout s
  | .walkingOnesStep bad => Sys2Proof.Machine.execWalkingOnesStep bad s
  | .mfgPrbsEnd errs => Sys2Proof.Machine.execMfgPrbsEnd errs s
  | .wilvelPacketReceive path packet => Sys2Proof.Machine.execWilvelPacketReceive path packet s
  | .nop h => Sys2Proof.Machine.execNop h s
  | .readState h addr len => Sys2Proof.Machine.execReadState h addr len s
  | .dump h mask => Sys2Proof.Machine.execDump h mask s
  | .regRead h offs => Sys2Proof.Machine.execRegRead h offs s
  | .regWrite h writes => Sys2Proof.Machine.execRegWrite h writes s
  | .retrain h => Sys2Proof.Machine.execRetrain h s
  | .linkDown h => Sys2Proof.Machine.execLinkDown h s
  | .shift h width mode => Sys2Proof.Machine.execShift h width mode s
  | .retireLane h lane => Sys2Proof.Machine.execRetireLane h lane s
  | .castle h lane => Sys2Proof.Machine.execCastle h lane s
  | .sweep h lane => Sys2Proof.Machine.execSweep h lane s
  | .pattern h lane pat user ticks => Sys2Proof.Machine.execPattern h lane pat user ticks s
  | .patternTimeEnd errs => Sys2Proof.Machine.execPatternTimeEnd errs s
  | .detect h => Sys2Proof.Machine.execDetect h s
  | .instReset h ovr mem => Sys2Proof.Machine.execInstReset h ovr mem s
  | .service h => Sys2Proof.Machine.execService h s
  | .microcodeUpdate h => Sys2Proof.Machine.execMicrocodeUpdate h s
  | .arithReset h => Sys2Proof.Machine.execArithReset h s
  | .loadTurns h params => Sys2Proof.Machine.execLoadTurns h params s
  | .arm h round => Sys2Proof.Machine.execArm h round s
  | .halt h => Sys2Proof.Machine.execHalt h s
  | .setStretchApply h k lower e => Sys2Proof.Machine.execSetStretchApply h k lower e s
  | .setStretchForward h k lower seq origin e => Sys2Proof.Machine.execSetStretchForward h k lower seq origin e s
  | .whatif h k width mode => Sys2Proof.Machine.execWhatif h k width mode s
  | .viCreate h vi host guest share sbase4 scnt4 => Sys2Proof.Machine.execViCreate h vi host guest share sbase4 scnt4 s
  | .viBind h ring vi unbind => Sys2Proof.Machine.execViBind h ring vi unbind s
  | .viShare h vi share => Sys2Proof.Machine.execViShare h vi share s
  | .viReset h vi e => Sys2Proof.Machine.execViReset h vi e s
  | .viDestroy h vi e => Sys2Proof.Machine.execViDestroy h vi e s
  | .viRestore h vi last ent shr => Sys2Proof.Machine.execViRestore h vi last ent shr s
  | .viNotice h vi gen nseq origin => Sys2Proof.Machine.execViNotice h vi gen nseq origin s
  | .fwWindow h index w0 w1 w2 w3 => Sys2Proof.Machine.execFwWindow h index w0 w1 w2 w3 s
  | .fwQclear h => Sys2Proof.Machine.execFwQclear h s
  | .fwDbg h unlock => Sys2Proof.Machine.execFwDbg h unlock s
  | .ledgerTake h ackseq ackvalid => Sys2Proof.Machine.execLedgerTake h ackseq ackvalid s
  | .checkpoint h => Sys2Proof.Machine.execCheckpoint h s
  | .epoch h => Sys2Proof.Machine.execEpoch h s
  | .eventDelivery => Sys2Proof.Machine.execEventDelivery s
  | .traceDelivery => Sys2Proof.Machine.execTraceDelivery s
  | .streamRelayArrival stream data => Sys2Proof.Machine.execStreamRelayArrival stream data s

end Sys2Proof.Machine
end

