-- ==== Sys2Proof/Safety.lean ====
section
/-! DEFINITION. What a safe step is, and the words in which the statements say what a command leaves as it was. -/

namespace Sys2Proof

open Machine

/-- The step from a state completes: it neither faults nor refuses (R3). -/
def Safe (s : State) : Prop := ∃ t, step s = .next t

/-- Every register word outside `l` reads in `t` what it reads in `s`. -/
def WordsKept (l : List Nat) (s t : State) : Prop := ∀ off, off ∉ l → t.rd off = s.rd off

/-- While the management clock runs no source keeps events back (R258). -/
def OverKept (s t : State) : Prop := s.isl.mgmtStopped = false → t.beyond = s.beyond

/-- `t` differs from `s` in the register window alone, and there in the words of `l` alone; while the management clock stands also in the events that a
counter at all ones could not take. -/
def OnlyRegs (l : List Nat) (s t : State) : Prop := t = { s with regs := t.regs, beyond := t.beyond } ∧ WordsKept l s t ∧ OverKept s t

/-- An offset outside the counters and the event and trace registers, which stand at 0x5000–0x57FF (R343–R348). -/
def PlainWord (off : Nat) : Prop := off < 0x5000 ∨ 0x5800 ≤ off

/-- Every register outside the counters and the event and trace registers, but for the words of `l`, reads in `t` what it reads in `s`. -/
def PlainKept (l : List Nat) (s t : State) : Prop := ∀ off, PlainWord off → off ∉ l → t.rd off = s.rd off

/-- The words that may change as ticks pass, whatever is commanded: a checker that has not locked may lock (R341; log entry 37). -/
def PassingWords : List Nat := (List.range 18).map LANE_PAT

/-- The words of a counter: a 48-bit one has two (R10). -/
def cntWords (c : Cnt) : List Nat := if c.w = 48 then [c.off, c.off + 4] else [c.off]

/-- A counter of `w` bits after `n` more of what it counts: it holds at all ones (R12). -/
def counted (c : Cnt) (n : Nat) (s t : State) : Prop := t.cnt c = min (2 ^ c.w - 1) (s.cnt c + n)

/-- The bits that an instance shows of its place in the package (R15, R16, R339). -/
structure IdentityOf (i : Nat) (s : State) : Prop where
  place : s.place = i
  word : s.readReg ID_PLACE = idPlace i
  twin : s.readReg ID_TWIN % 256 = twinIndex i
  caps : s.readReg ID_CAPS = idCaps i

/-- Every clock of the instance runs and is seen to run, and every crossing is open: nothing needs to wait (R251, R253, R255, R256). -/
structure ClocksRun (s : State) : Prop where
  mgmt : s.mgmtRuns = true
  xings : ∀ x < 6, s.xOpen x = true

/-- Nothing waits at a crossing, no command waits, and no transcode job runs: an opening crossing lets nothing go on. -/
structure NothingHeld (s : State) : Prop where
  wait : s.isl.wait = []
  queue : s.lme.queue = []
  jobs : ∀ j < 8, s.getB (FOLD_XJ_CFG_GO j) = false

/-- The instance takes Wilvel commands: its clocks and microcode run, nothing waits and nothing that keeps a command waiting is in progress (R253,
R309, R323, R324, R328). -/
structure TakesCommands (s : State) : Prop where
  clocks : ClocksRun s
  running : s.getB LME_STATUS_RUNNING = true
  queue : s.lme.queue = []
  runs : s.lme.runs = []
  fwds : s.tim.fwds = []

/-- A command has been answered with a status: the last packet of its reply stands last in the mailbox's queue or among the messages for the
link, or is the newest that left by SB or to the core side, or that waits for crossing 2 to open (R253, R317, R319, R326). -/
def Answered (h : CmdHdr) (opc status : Nat) (t : State) : Prop :=
  ∃ off data, let p := wvPacket opc 128 h.origin.toNat t.place h.tag.toNat status off data
    match h.path with
    | .mailbox => t.lme.rpl.getLast? = some p
    | .mgt => t.dlv.tx.getLast? = some ⟨mkLong 5 2 p, false⟩
    | .sb => t.out.head? = some (.sb (sbFrame 2 p))
    | .core => if t.xOpen 2 then t.out.head? = some (.packet .core p) else t.isl.wait.getLast? = some (2, .out (.packet .core p))

/-- A reply that carries data in one packet, as R317 lays it out, stands last in the mailbox's queue. -/
def RepliedInMailbox (h : CmdHdr) (opc status : Nat) (data : List Byte) (s t : State) : Prop :=
  t.lme.rpl = s.lme.rpl ++ [wvPacket opc 128 h.origin.toNat s.place h.tag.toNat status 0 data]

/-- The record of a request that the instance makes with tag `tag` for a VI to a GA (R177). -/
def asking (s : State) (tag kind owner ring arg vi ga : Nat) : Tag :=
  ⟨tag, kind, owner, ring, arg, s.getF (VI_ENT_GEN vi), vi, s.now, s.tick, s.ownRoute ga, false, false⟩

/-- One request has been made to the home of `ga` on a route, as message `m`: its tag is outstanding, and the message waits for the own link or
has gone to the on-die network. -/
def Asked (e : Tag) (ga route : Nat) (m : List Pip) (s t : State) : Prop :=
  t.mov.tags = s.mov.tags ++ [e]
    ∧ (if e.link then t.dlv.tx = s.dlv.tx ++ [⟨m, false⟩] ∧ t.out = s.out else t.out = .request ga route m :: s.out ∧ t.dlv.tx = s.dlv.tx)

/-- A wire flit decodes, without a correction, to 256 flit bytes with a good CRC-64 (R37, R39, R59). -/
def Carries (s : State) (wire : BitVec 2176) (flit : List Byte) : Prop :=
  decodeFlit (scramble s.lnk.rxMap s.lnk.gRx s.lnk.fRx (wireBytes wire)) = ⟨[], [0, 0], 0, some flit⟩ ∧ crc64 (flit.take 248) = bytesAt flit 248 8

/-- The row that a training message is, by its `TCODE` and body (R110, R111). -/
def TrainingRow (tcode : Nat) (b : List Byte) (seen off : BitVec 24) (c : Instr) : Prop :=
  (tcode = 1 ∧ c = .detectMessage (readDetect b) seen off) ∨ (tcode = 2 ∧ c = .eqSetMessage (readEq b)) ∨ (tcode = 3 ∧ c = .eqDoneMessage (readEq b))
    ∨ (tcode = 4 ∧ c = .eqResultMessage (b.getD 0 0) (BitVec.ofNat 24 (bytesAt b 1 3)))
    ∨ (tcode = 5 ∧ c = .capMessage (BitVec.ofNat 192 (ofBytes (padTo 24 b)))) ∨ (tcode = 6 ∧ c = .capGotMessage)
    ∨ (tcode = 7 ∧ c = .readyMessage (readReady b)) ∨ (tcode = 8 ∧ c = .retrainMessage (b.getD 0 0)) ∨ (tcode = 9 ∧ c = .abortMessage (b.getD 0 0))

/-- A header that brings no acknowledgement, no credit and no Beat: its `ACK` is the last one applied (R54, R83). -/
def QuietHdr (s : State) (h : Hdr) : Prop :=
  h.beat = false ∧ h.nak = false ∧ h.ack = s.getF DLV_BANK_ACKED ∧ h.cch = 15 ∧ s.dlv.firstAck = false

/-- The wire flit that the instance sends now with a header and slots (R35–R37, R53). -/
def sentFlit (s : State) (h : Hdr) (slots : List Pip) : Out :=
  .wire (wireOf (scramble s.mapList s.lnk.gTx s.lnk.fTx (encodeFlit (flitBytes h.bits slots))))

/-- Flits pass, nothing has arrived in this tick, and nothing but messages and idle flits is to be sent: no replay, no link-control message, no schedule, no void position. -/
structure SendsMessages (s : State) : Prop where
  clock : s.clockRuns = true
  lane : s.xOpen 1 = true
  quiet : ∀ t, s.dlv.heard = some t → t < s.now
  wait : s.isl.wait = []
  runs : s.linkRuns = true
  gap : s.lnk.gap = false
  void : s.trn.void = false
  near : s.guestEdge = false
  sched : s.run = false
  urgent : s.dlv.urgent = []
  lc : s.dlv.lc = []
  idle : s.dlv.idleOnly = false
  cur : s.dlv.cur = []
  beat : s.tim.beatDue = false

/-- Nothing of the state but the registers, the LME, what leaves the instance and the messages waiting for the link differs. -/
def BesidesReply (s t : State) : Prop :=
  t = { s with regs := t.regs, lme := t.lme, out := t.out, beyond := t.beyond, dlv := { s.dlv with tx := t.dlv.tx } } ∧ OverKept s t

end Sys2Proof
end

