-- ==== Sys2Proof/Certificates/Slice0/Obligations.lean ====
section
/-! DEFINITION. The statements about the block, from the numbered rules of the spec. -/

open Sys2Proof Sys2Proof.Machine

/-- A step takes the command at the front of the queue and carries it out on the state with the rest of the queue. -/
def Obligations.StepTakesTheFirstCommand : Prop :=
  ∀ (c : Instr) (s : State), step { s with pending := c :: s.pending } = exec c s

/-- With an empty queue one tick passes: the model's choice (log entry 2). That a checker may lock in it is a free value (log entry 37). -/
def Obligations.IdleStepIsOneTick : Prop :=
  ∀ s : State, s.pending = [] →
    (s.clockRuns = false → step s = .next s)
    ∧ (s.clockRuns = true → ∃ t, step s = .next t ∧ t.now = s.now + 1 ∧ t.die = s.die + 1
      ∧ t = { s with regs := t.regs, now := t.now, die := t.die, free := t.free, beyond := t.beyond } ∧ OverKept s t
      ∧ PlainKept PassingWords s t
      ∧ ((∀ l < 18, s.getB (LANE_PAT_RUN l) = true → s.getB (LANE_PAT_LOCK l) = true) → t.free = s.free ∧ PlainKept [] s t))

/-- R339: fields whose reset is "By position" are fixed by the place of the instance under R15 and never change, whatever is commanded. Every step completes. -/
def Obligations.IdentityNeverChanges : Prop :=
  ∀ (i : Nat) (s : State), i < 114 → IdentityOf i s → ∃ t, step s = .next t ∧ IdentityOf i t ∧ t.pending = s.pending.tail

/-- The reset state meets the invariant of IdentityNeverChanges; that it is instance B2E0 is the model's choice (log entry 1). -/
def Obligations.ResetHasItsIdentity : Prop := IdentityOf 14 State.reset

/-- The reset values that the spec gives: link state, stage, sequence numbers, counters, VIs and rings. -/
def Obligations.ResetLeavesTheLinkOff : Prop :=
  State.reset.link = 0 ∧ State.reset.mapList = [] ∧ State.reset.getF LINK_STATUS_MODE = 3 ∧ State.reset.stage = 0
    ∧ State.reset.getF START_STATUS_RESULT = 15 ∧ State.reset.die = 0 ∧ State.reset.getF DLV_SEQ_TXSEQ = 0xFFFF
    ∧ State.reset.getF DLV_SEQ_RXSEQ = 0xFFFF ∧ State.reset.getF DLV_BANK_ACKED = 0xFFFF ∧ State.reset.getB LME_STATUS_RUNNING = false
    ∧ (∀ off ∈ (List.range 133).map (fun k => 0x5000 + 4 * k), State.reset.rd off = 0)
    ∧ State.reset.getB ID_SEAL_SEALED = false ∧ State.reset.run = false ∧ State.reset.viActive 0 = true
    ∧ (∀ v ∈ List.range 256, v ≠ 0 → State.reset.viActive v = false) ∧ (∀ n ∈ List.range 64, State.reset.getB (MOV_RING_CFG_EN n) = false)
    ∧ State.reset.pending = []

/-- R11, R261: both resets return the instance to T0 with the reset values; an instance reset leaves the tick counter running, and with it the Round, which is shown from its next boundary on: the model's choice (log entry 138). -/
def Obligations.ResetsReturnTheInstance : Prop :=
  ∀ s : State,
    (∀ c ∈ [Instr.packageReset, Instr.powerLoss], ∃ t, exec c s = .next t ∧ t.regs = resetRegs s.place ∧ t.die = 0 ∧ t.dlv = Dlv.reset
      ∧ t.lnk = Lnk.reset ∧ t.tim = Tim.reset ∧ t.trn = Trn.reset ∧ t.mov = Mov.reset ∧ t.fold = Fold.reset ∧ t.fw = [] ∧ t.isl = Isl.reset
      ∧ t.age = Age.reset ∧ t.lme = Lme.reset ∧ t.evq = [] ∧ t.trq = [] ∧ t.now = s.now ∧ t.out = s.out ∧ t.free = s.free ∧ t.beyond = []
      ∧ t.place = s.place ∧ t.pending = s.pending)
    ∧ ∃ t, exec .instanceReset s = .next t ∧ t.die = s.die
      ∧ t.getB TIME_STATUS_SYNCED = (s.getB TIME_STATUS_SYNCED && s.getB TIME_CTRL_MASTER)
      ∧ (∀ off, off ≠ TIME_STATUS → t.rd off = ((resetRegs s.place).get off).toNat) ∧ t.tim.round = s.tick / max 1 t.lenNow
      ∧ t.readReg TIME_ROUND.off = 0 ∧ t.readReg (TIME_ROUND.off + 4) = 0
      ∧ t.dlv = Dlv.reset ∧ t.lnk = Lnk.reset ∧ t.trn = Trn.reset ∧ t.mov = Mov.reset ∧ t.fold = Fold.reset ∧ t.fw = [] ∧ t.age = Age.reset
      ∧ t.lme = Lme.reset ∧ t.evq = [] ∧ t.trq = [] ∧ t.isl = { Isl.reset with clkOn := s.isl.clkOn, inReset := s.isl.inReset }
      ∧ t.now = s.now ∧ t.out = s.out ∧ t.free = s.free ∧ t.beyond = [] ∧ t.place = s.place ∧ t.pending = s.pending

/-- R262: what a die reset stops in the instance, and the link record that stays. That commands in progress, shadows and held words are lost with it is the model's reading (log entry 59). -/
def Obligations.DieResetStopsTheDie : Prop :=
  ∀ s : State, ∃ t, exec .dieReset s = .next t ∧ t.die = 0 ∧ t.isl.inReset = true ∧ t.isl.linkWas = s.link
    ∧ t.getB TIME_STATUS_SYNCED = false ∧ t.run = false ∧ t.mov.eng = List.replicate 4 Eng.idle ∧ (∀ x ∈ t.mov.tags, x.dead = true)
    ∧ t.trn.sbuf = [] ∧ (∀ x ∈ t.dlv.tx, x.fromCore = false) ∧ t.shadow = [] ∧ t.held = [] ∧ t.lme.queue = [] ∧ t.lme.runs = []
    ∧ t.link = s.link ∧ t.mapList = s.mapList ∧ t.dlv.bank = s.dlv.bank ∧ t.dlv.rx = s.dlv.rx ∧ t.trn.frames = s.trn.frames
    ∧ t.age.recs = s.age.recs ∧ t.lme.ram = s.lme.ram ∧ t.lme.log = s.lme.log ∧ t.evq = s.evq ∧ t.trq = s.trq
    ∧ (∀ x ∈ t.isl.wait, x.1 ≠ 7)

/-- R262, R297, R302: a link with a record waits for the crossings of its instance, and so does an instance whose start has ended; any other link returns to Off and its start begins again. -/
def Obligations.DieResetReleaseGoesOn : Prop :=
  ∀ s : State, s.isl.inReset = true → ∃ t, exec .dieResetRelease s = .next t ∧ t.isl.inReset = false ∧ t.isl.clkOn = true
    ∧ (if (4 ≤ s.isl.linkWas ∧ s.isl.linkWas ≤ 8) ∨ s.startStopped = true then t.getF ISL_XING_RESYNC = 0x3F ∧ t.isl.hs = List.replicate 6 1
       else t.link = 0 ∧ t.mapList = [] ∧ t.stage = 0 ∧ t.getF START_STATUS_RESULT = 15 ∧ t.strt.recorded = false)

/-- R255, R261: a lost clock changes nothing that the instance holds; R262, R268: its return. That RUN and SYNCED clear then is the model's reading (log entry 34). -/
def Obligations.DieClockStopsAndReturns : Prop :=
  ∀ s : State,
    (s.isl.clkOn = true → exec .dieClockLoss s = .next { s with isl := { s.isl with clkOn := false, byClock := true, linkWas := s.link } })
    ∧ (s.isl.clkOn = false → ¬(4 ≤ s.link ∧ s.link ≤ 7) → s.lme.runs = [] → NothingHeld s →
        ∃ t, exec .dieClockReturn s = .next t ∧ t.isl.clkOn = true ∧ t.run = false ∧ t.link = s.link ∧ t.die = s.die
          ∧ (s.getB TIME_CTRL_MASTER = false → t.getB TIME_STATUS_SYNCED = false))

/-- R255: what a stopped and a returning clock show; R256: the steps of a handshake; R253: a writer waits where the crossing is closed. -/
def Obligations.ClockWatchersAndCrossings : Prop :=
  ∀ s : State,
    (∀ c, s.clkSeen c = true → ∃ t, exec (.clockStopDetect c) s = .next t ∧ t.clkSeen c = false
      ∧ t.getF ISL_XING_STOPPED = s.getF ISL_XING_STOPPED ||| maskOf (xingsOf c) ∧ counted CNT_CLK_STOP 1 s t
      ∧ t = { s with regs := t.regs, isl := t.isl, beyond := t.beyond } ∧ WordsKept [ISL_STATUS, ISL_XING, CNT_CLK_STOP.off] s t)
    ∧ (∀ c, s.clkSeen c = false → NothingHeld s → ∃ t, exec (.clockReturnDetect c) s = .next t ∧ t.clkSeen c = true
      ∧ t.getF ISL_XING_STOPPED = maskOf (([Clk.linkCore, Clk.arith, Clk.core, Clk.mgmt].filter (fun d => !t.clkSeen d)).flatMap xingsOf)
      ∧ t = { s with regs := t.regs, isl := t.isl, beyond := t.beyond } ∧ (c ≠ .mgmt → t.beyond = s.beyond)
      ∧ (c = .mgmt → t.beyond = [] ∧ t.isl.base = [] ∧ t.getB ISL_STATUS_LOSTEV = (s.getB ISL_STATUS_LOSTEV
          || (allCnts.zip s.isl.base).any (fun p => decide (p.2 + pendingCap ≤ s.cnt p.1 + s.overOf p.1.off))))
      ∧ WordsKept (ISL_STATUS :: ISL_XING :: (if c = .mgmt then wideCnts.flatMap cntWords else [])) s t)
    ∧ (∀ (x : Fin 6) (n : Nat), x.val < 3 → s.isl.hs.getD x 0 = 1 → s.isl.wait = [] → ∃ t, exec (.crossingHandshakeStep x n) s = .next t
      ∧ t.isl = { s.isl with hs := listSet s.isl.hs x 2 } ∧ counted CNT_XING_DROP (min (s.xCap x) n) s t ∧ t = { s with regs := t.regs, isl := t.isl, beyond := t.beyond }
      ∧ WordsKept [CNT_XING_DROP.off] s t)
    ∧ (∀ (x : Fin 6) (n : Nat), s.isl.hs.getD x 0 = 2 ∨ s.isl.hs.getD x 0 = 3 →
      exec (.crossingHandshakeStep x n) s = .next { s with isl := { s.isl with hs := listSet s.isl.hs x (s.isl.hs.getD x 0 + 1) } })
    ∧ (∀ (x : Fin 6) (n : Nat), s.isl.hs.getD x 0 = 4 → NothingHeld s → putBit (s.getF ISL_XING_RESYNC) x false ≠ 0 →
      ∃ t, exec (.crossingHandshakeStep x n) s = .next t ∧ t.isl = { s.isl with hs := listSet s.isl.hs x 0 }
        ∧ t.getF ISL_XING_RESYNC = putBit (s.getF ISL_XING_RESYNC) x false % 64 ∧ counted CNT_XING_RESYNC 1 s t
        ∧ WordsKept [ISL_XING, CNT_XING_RESYNC.off] s t)
    ∧ ∀ (c : Instr) (off v : Nat), s.reaches off = false →
      (s.isl.wait.filter (fun p => p.1 == xOf off && !p.2.outward)).length < xDepth (xOf off) →
      (c = .islCtrlArst ∧ off = ISL_CTRL ∧ v = s.rd ISL_CTRL ||| 2) ∨ (c = .linkCtrlDown ∧ off = LINK_CTRL ∧ v = s.rd LINK_CTRL ||| 2)
        ∨ (c = .linkCtrlRetrain ∧ off = LINK_CTRL ∧ v = s.rd LINK_CTRL ||| 1) ∨ (c = .turnCtrlCheck ∧ off = TURN_CTRL ∧ v = 2)
        ∨ (c = .turnCtrlHalt ∧ off = TURN_CTRL ∧ v = 4) ∨ (c = .startCtrlService ∧ off = START_CTRL ∧ v = s.rd START_CTRL ||| 4)
        ∨ (c = .lmeCtrlStart ∧ off = LME_CTRL ∧ v = 2)
        ∨ (∃ j : Fin 8, c = .foldXjGo j ∧ off = FOLD_XJ_CFG j ∧ v = s.rd (FOLD_XJ_CFG j) ||| 2 ^ 31) →
      exec c s = .next { s with isl := { s.isl with wait := s.isl.wait ++ [(xOf off, .access .bus true none off v)] } }

/-- R263: what an entry to Hold does, and what HOLD_EN = 0 makes of each cause; R265: what it keeps. The four causes whose entry raises PEER_HOLD. -/
def Obligations.HoldIsEnteredOnItsCauses : Prop :=
  ∀ s : State, 4 ≤ s.link → s.link ≤ 6 → ∀ (c : Instr) (cause : Nat),
      (s.far = false ∧ c = .peerDieRstChange true ∧ cause = 1) ∨ (s.far = false ∧ c = .peerClkokChange false ∧ cause = 2)
        ∨ (∃ n, c = .holdNoticeReceive n ∧ cause = 3) ∨ (c = .silenceTimeout ∧ cause = 4) →
      (s.getB ISL_CTRL_HOLD_EN = true → ∃ t, exec c s = .next t ∧ t.link = 7 ∧ t.getB ISL_HOLD_STAT_HOLDING = true ∧ t.getF ISL_HOLD_STAT_CAUSE = cause
        ∧ t.getW ISL_HOLD_AT = s.tick ∧ t.getW ISL_VOID_END = 2 ^ 64 - 1 ∧ counted CNT_HOLD 1 s t ∧ t.rd EVT_LAST = 2 ^ 30 + 0x0601
        ∧ t.dlv.bank = s.dlv.bank ∧ t.rd DLV_SEQ = s.rd DLV_SEQ ∧ (∀ k < 6, t.window k = s.window k ∧ t.getF (DLV_RXBUF_OWED k) = s.getF (DLV_RXBUF_OWED k))
        ∧ t.mov = s.mov)
      ∧ (s.getB ISL_CTRL_HOLD_EN = false → (∀ x ∈ s.mov.tags, x.link = false) → ∃ t, exec c s = .next t ∧ t.link = 8
        ∧ t.getF LINK_FAIL_FSTATE = s.link ∧ t.getF LINK_FAIL_REASON = 0x0B ∧ t.mapList = [] ∧ t.dlv.bank = [])

/-- R264: a warned instance sends HOLD-NOTICE four times and then idles; the status of the peer's die. That WARN clears with the end of the reset or the return of the clock is the model's reading (log entry 62). -/
def Obligations.WarningsAndTheirEnd : Prop :=
  ∀ s : State,
    (∀ clock : Bool, s.link = 4 ∨ s.link = 5 → exec (.resetWarning true clock) s = .next { s with
      isl := { s.isl with warned := true }
      dlv := { s.dlv with
        urgent := s.dlv.urgent ++ List.replicate 4 ⟨beBytes 1 0x28 ++ beBytes 1 (if clock then 2 else 1) ++ beBytes 14 0, s.tick⟩
        idleOnly := true } })
    ∧ (s.far = false →
      (∀ clock : Bool, ∃ t, exec (.resetWarning false clock) s = .next t ∧ t.getB ISL_PEERDIE_WARN = true
        ∧ t.getB ISL_PEERDIE_RST = s.getB ISL_PEERDIE_RST ∧ t.getB ISL_PEERDIE_CLKOK = s.getB ISL_PEERDIE_CLKOK ∧ OnlyRegs [ISL_PEERDIE] s t)
      ∧ (∃ t, exec (.peerDieRstChange false) s = .next t ∧ t.getB ISL_PEERDIE_RST = false ∧ t.getB ISL_PEERDIE_WARN = false
        ∧ t.getB ISL_PEERDIE_CLKOK = s.getB ISL_PEERDIE_CLKOK ∧ OnlyRegs [ISL_PEERDIE] s t)
      ∧ ∃ t, exec (.peerClkokChange true) s = .next t ∧ t.getB ISL_PEERDIE_CLKOK = true ∧ t.getB ISL_PEERDIE_WARN = false
        ∧ t.getB ISL_PEERDIE_RST = s.getB ISL_PEERDIE_RST ∧ OnlyRegs [ISL_PEERDIE] s t)

/-- R106, R131: the entry to Down, whatever the command that leads to it; exactly one reason stands in LINK_FAIL. That the map is empty in Down is the model's reading (log entry 56). -/
def Obligations.DownIsEnteredOnItsReasons : Prop :=
  ∀ (s : State) (c : Instr) (r : Nat), s.link < 8 → (∀ x ∈ s.mov.tags, x.link = true → x.dead = true) → s.trn.writes = [] →
    (c = .linkCtrlDown ∧ s.reaches LINK_CTRL = true ∧ r = 0x0C) ∨ (∃ b : Byte, c = .abortMessage b ∧ r = b.toNat) ∨ (c = .holdExpiry ∧ s.link = 7 ∧ r = 0x0B)
      ∨ (c = .equaliseTimeout ∧ s.link = 2 ∧ r = 4) ∨ (c = .negotiateTimeout ∧ s.link = 3 ∧ s.lnk.held18 = false ∧ r = 9)
      ∨ (c = .miscableHoldExpiry ∧ s.link = 3 ∧ s.lnk.held18 = true ∧ r = 8)
      ∨ (c = .loopExchangeTimeout ∧ (s.link = 4 ∨ s.link = 5) ∧ s.dlv.loopOn = true ∧ s.dlv.probeSent = 1024 ∧ s.dlv.echoes = 0 ∧ r = 9)
      ∨ (∃ seen off sb, c = .detectTimeout seen off sb ∧ s.link = 1 ∧ s.lnk.exchanged = false ∧ s.starting = true
          ∧ seen.toNat &&& maskOf s.lanes ≠ 0 ∧ r = 9)
      ∨ (c = .trainingRepeat ∧ (∃ m ∈ s.lnk.msgs, m.tcode ≠ 1 ∧ 64 ≤ m.sends) ∧ r = 9) →
    ∃ t, exec c s = .next t ∧ t.link = 8 ∧ t.getF LINK_FAIL_FSTATE = s.link ∧ t.getF LINK_FAIL_REASON = r ∧ t.dlv.bank = []
      ∧ t.getF DLV_SEQ_TXSEQ = 0xFFFF ∧ t.getF DLV_SEQ_RXSEQ = 0xFFFF ∧ t.getF DLV_BANK_ACKED = 0xFFFF
      ∧ (∀ k < 6, t.window k = 0 ∧ t.getF (DLV_RXBUF_OWED k) = 0) ∧ t.mapList = [] ∧ t.getF EVT_LAST_CLASS = 2
      ∧ (∀ x ∈ t.mov.tags, x.link = false)

/-- R128, R129: the causes of a Retrain that these commands bring, and its start; R357: with a schedule running it waits for a QUI run. -/
def Obligations.RetrainIsStartedByItsCauses : Prop :=
  ∀ (s : State),
    (∀ (c : Instr) (cause : Nat), s.link = 4 ∨ s.link = 5 →
      (c = .linkCtrlRetrain ∧ s.reaches LINK_CTRL = true ∧ s.run = false ∧ cause = 5) ∨ (c = .creditExchangeTimeout ∧ s.dlv.exch = true ∧ cause = 2)
        ∨ (∃ b, c = .retrainMessage b ∧ cause = 8)
        ∨ (∃ k : Fin 6, c = .stalemateCheck k ∧ s.run = false ∧ s.inService = true ∧ s.getB DLV_CTRL_WATCH_EN = true
            ∧ bitOf (s.getF DLV_WATCH_ARMED) k = true ∧ s.chanBusy k = false ∧ (∀ e ∈ s.dlv.bank, e.pips.getD k 0 = 0)
            ∧ s.window k < s.getF (DLV_FLOOR_FLOOR k) ∧ cause = 3) →
      ∃ t, exec c s = .next t ∧ t.link = 6 ∧ t.lnk.cause = cause ∧ t.dlv.bank = s.dlv.bank ∧ t.lnk.ownReady = none ∧ t.lnk.peerReady = none)
    ∧ (s.link = 4 ∨ s.link = 5 → s.reaches LINK_CTRL = true → s.run = true → (Deferred.retrain 5) ∉ s.lnk.wait →
        exec .linkCtrlRetrain s = .next { s with lnk := { s.lnk with wait := s.lnk.wait ++ [.retrain 5] } })
    ∧ (s.link = 6 → s.getF LINK_FAIL_RUN < 2 → ∃ t, exec .retrainTimeout s = .next t ∧ t.link = 6 ∧ t.lnk.cause = s.lnk.cause
        ∧ t.getF LINK_FAIL_RUN = s.getF LINK_FAIL_RUN + 1 ∧ t.getF LINK_FAIL_FSTATE = 6)

/-- R271, R50, R277, R18: a supply dip is counted, loss of input is shown and brings Probation, what the pair partner learned is kept. -/
def Obligations.SensorsAndPartners : Prop :=
  ∀ s : State,
    (∃ t, exec .supplyDroop s = .next t ∧ counted CNT_DROOP 1 s t ∧ OnlyRegs [CNT_DROOP.off] s t)
    ∧ (s.far = true → ∀ (l : Fin 18) (lost : Bool), s.lanes.contains l.val = true →
        (lost = false ∨ 2 ≤ s.getF (AGE_LANE_STAT_VERDICT l) → ∃ t, exec (.lossOfSignal l lost) s = .next t ∧ t.getB (LANE_STATUS_LOS l) = lost
          ∧ t.laneState l = s.laneState l ∧ OnlyRegs [LANE_STATUS l] s t)
        ∧ (lost = true → s.getF (AGE_LANE_STAT_VERDICT l) < 2 → s.mapList.contains l.val = false → s.age.sweep = none → s.lnk.repair = none →
          ∃ t, exec (.lossOfSignal l lost) s = .next t ∧ t.getB (LANE_STATUS_LOS l) = true ∧ t.getF (AGE_LANE_STAT_VERDICT l) = 2
            ∧ bitOf t.excl l = true ∧ t.link = s.link ∧ t.mapList = s.mapList))
    ∧ (s.far = true → ∀ pod port passed, ¬(4 ≤ s.link ∧ s.link ≤ 7) → exec (.pairPartnerUpdate pod port passed) s
        = .next { s with lnk := { s.lnk with partner := some (pod.toNat, port.toNat, passed) } })

/-- R9, whole: only naturally aligned 32-bit accesses are taken; every other changes nothing, reads as all ones and is reported as CORR. Which crossing an access waits at is the model's reading of R252 (log entry 149). -/
def Obligations.UnalignedAccessChangesNothing : Prop :=
  ∀ (s : State) (c : Instr) (read : Bool),
    (ClocksRun s → ((∃ r off, c = .unalignedAccess r (!read) off)
        ∨ (∃ r off v, c = .registerWrite r off v ∧ r ≠ .coreSide ∧ off.toNat % 4 ≠ 0 ∧ read = false)
        ∨ (∃ r off, c = .lowWordRead r off ∧ r ≠ .coreSide ∧ off.toNat % 4 ≠ 0 ∧ read = true)
        ∨ (∃ vi off v, c = .coreSideAccess (!read) vi off v ∧ off.toNat % 4 ≠ 0)) →
      ∃ t, exec c s = .next t ∧ t.rd EVT_LAST = 1 ∧ t.out = (if read then [.read 0xFFFFFFFF] else []) ++ s.out ∧ PlainKept [] s t
        ∧ t = { s with regs := t.regs, evq := t.evq, trq := t.trq, out := t.out })
    ∧ (s.mgmtRuns = false → s.isl.wait = [] → ∀ r off, r ≠ .coreSide → c = .unalignedAccess r (!read) off →
      exec c s = .next { s with isl := { s.isl with wait := [(xOf off.toNat, .bad r (!read) off.toNat)] } })

/-- R7, R8 and R10 on a register of each kind; reading and writing 64-bit registers. That the samples of a counter that moves in every tick all differ is the model's reading of R260 (log entry 12). -/
def Obligations.RegisterAccessesFollowTheirCodes : Prop :=
  ∀ (s : State) (r : Requester) (v u : Word), ClocksRun s → r ≠ .coreSide →
    (∃ t, exec (.registerWrite r 0x1040 v) s = .next t ∧ t.rd DLV_ARB = v.toNat ∧ OnlyRegs [DLV_ARB] s t)
    ∧ exec (.registerWrite r 0x0008 v) s = .next s
    ∧ (s.getB ID_SEAL_SEALED = false → ∃ t, exec (.registerWrite r 0x0010 v) s = .next t ∧ t.getF ID_POD_POD = v.toNat % 512 ∧ OnlyRegs [ID_POD] s t)
    ∧ (s.getB ID_SEAL_SEALED = true → v.toNat % 512 ≠ s.getF ID_POD_POD → ∃ t, exec (.registerWrite r 0x0010 v) s = .next t
        ∧ t.rd ID_POD = s.rd ID_POD ∧ t.getF ID_SEAL_DROPS = min 0xFFFF (s.getF ID_SEAL_DROPS + 1) ∧ t.getB ID_SEAL_SEALED = true
        ∧ OnlyRegs [ID_SEAL] s t)
    ∧ (∃ t t', exec (.registerWrite r 0x1870 v) s = .next t ∧ t.regs = s.regs ∧ exec (.registerWrite r 0x1874 u) t = .next t'
        ∧ t'.getW TURN_START = v.toNat + 2 ^ 32 * u.toNat ∧ WordsKept [0x1870, 0x1874] s t')
    ∧ (s.shadow = [] → ∃ t t', exec (.lowWordRead r 0x1808) s = .next t ∧ t.out = .read (BitVec.ofNat 32 s.die.toNat) :: s.out
        ∧ counted CNT_DOUBLES_RETRY 8 s t ∧ counted CNT_DOUBLES_FALLBACK 1 s t
        ∧ WordsKept [CNT_DOUBLES_RETRY.off, CNT_DOUBLES_FALLBACK.off] s t ∧ exec (.lowWordRead r 0x180C) t = .next t' ∧ t'.out = .read (BitVec.ofNat 32 (s.die.toNat / 2 ^ 32)) :: t.out ∧ t'.shadow = []
        ∧ t'.regs = t.regs)

/-- R227: which accesses of the core side an instance takes; R173: a write of HEAD; R182: PROD and CONS of a window; R221: the registers of a job. -/
def Obligations.CoreSideReachesItsOwnRing : Prop :=
  ∀ (s : State) (vi : Byte) (v : Word), ClocksRun s →
    (∀ n : Fin 64, s.getB (MOV_RING_CFG_BOUND n) = true → s.ringVi n = vi.toNat → s.viActive vi.toNat = true →
      ((v.toNat % 2 ^ 16 + 2 ^ 16 - s.getF (MOV_RING_DONE_DONE n)) % 2 ^ 16 ≤ 2 ^ s.getF (MOV_RING_CFG_LOG2SIZE n) →
        ∃ t, exec (.coreSideAccess true vi (BitVec.ofNat 16 (MOV_RING_HEAD n)) v) s = .next t
          ∧ t.getF (MOV_RING_HEAD_HEAD n) = v.toNat % 2 ^ 16 ∧ OnlyRegs [MOV_RING_HEAD n] s t)
      ∧ (s.shadow = [] → ∃ t, exec (.coreSideAccess false vi (BitVec.ofNat 16 (MOV_RING_HEAD n)) v) s = .next t
          ∧ t.out = .read (BitVec.ofNat 32 (s.rd (MOV_RING_HEAD n))) :: s.out ∧ t.regs = s.regs))
    ∧ (∀ w : Fin 32, s.viActive vi.toNat = true →
      (s.resourceVi (MOV_SWIN_PROD w) = some vi.toNat →
        (s.winRx w = false → ∃ t, exec (.coreSideAccess true vi (BitVec.ofNat 16 (MOV_SWIN_PROD w)) v) s = .next t
          ∧ t.getF (MOV_SWIN_PROD_PROD w) = v.toNat)
        ∧ (s.winRx w = true → exec (.coreSideAccess true vi (BitVec.ofNat 16 (MOV_SWIN_PROD w)) v) s = .next s))
      ∧ (s.resourceVi (MOV_SWIN_CONS w) = some vi.toNat →
        (s.winRx w = true → ∃ t, exec (.coreSideAccess true vi (BitVec.ofNat 16 (MOV_SWIN_CONS w)) v) s = .next t
          ∧ t.getF (MOV_SWIN_CONS_CONS w) = v.toNat ∧ OnlyRegs [MOV_SWIN_CONS w] s t)
        ∧ (s.winRx w = false → exec (.coreSideAccess true vi (BitVec.ofNat 16 (MOV_SWIN_CONS w)) v) s = .next s)))
    ∧ (∀ j : Fin 8, s.resourceVi (FOLD_XJ_COUNT j) = some vi.toNat → s.viActive vi.toNat = true →
      ∃ t, exec (.coreSideAccess true vi (BitVec.ofNat 16 (FOLD_XJ_COUNT j)) v) s = .next t
        ∧ (s.getB (FOLD_XJ_CFG_GO j) = false → t.getF (FOLD_XJ_COUNT_COUNT j) = v.toNat % 2 ^ 28 ∧ OnlyRegs [FOLD_XJ_COUNT j] s t)
        ∧ (s.getB (FOLD_XJ_CFG_GO j) = true → t.rd EVT_LAST = 2 ∧ PlainKept [] s t))
    ∧ (∀ off : BitVec 16, off.toNat % 4 = 0 → coreReaches off.toNat = true → s.resourceVi off.toNat = some vi.toNat → s.viActive vi.toNat = true →
      s.shadow = [] → ∃ t, exec (.coreSideAccess false vi off v) s = .next t ∧ t.out = .read (BitVec.ofNat 32 (s.readReg off.toNat)) :: s.out
        ∧ PlainKept [] s t)
    ∧ ∀ (write : Bool) (off : BitVec 16), off.toNat % 4 = 0 →
        (coreReaches off.toNat = false ∨ s.resourceVi off.toNat ≠ some vi.toNat ∨ s.viActive vi.toNat = false) →
        ∃ t, exec (.coreSideAccess write vi off v) s = .next t ∧ PlainKept [] s t ∧ counted CNT_VI_DENY 1 s t
          ∧ t.out = (if write then [] else [.read 0xFFFFFFFF]) ++ s.out

/-- R43, R44, R341: when written equalisation takes effect. -/
def Obligations.LaneEqualisationWrites : Prop :=
  ∀ (s : State) (l : Fin 18) (v : Word), ClocksRun s → s.lanes.contains l.val = true → s.age.sweep = none →
    (let e := eqOfWord v.toNat
     (eqAllowed e.1 e.2.1 e.2.2.1 e.2.2.2 = true → s.laneState l ≠ 3 → ∃ t, exec (.laneTxeqWrite l v) s = .next t
        ∧ t.getF (LANE_TXEQ_SWING l) = e.1 ∧ t.getF (LANE_TXEQ_PRE2 l) = e.2.1 ∧ t.getF (LANE_TXEQ_PRE1 l) = e.2.2.1
        ∧ t.getF (LANE_TXEQ_POST1 l) = e.2.2.2 ∧ t.getF (LANE_TXEQ_MAIN l) + e.2.1 + e.2.2.1 + e.2.2.2 = 64 ∧ OnlyRegs [LANE_TXEQ l] s t)
     ∧ (eqAllowed e.1 e.2.1 e.2.2.1 e.2.2.2 = true → s.laneState l = 3 → ∃ t, exec (.laneTxeqWrite l v) s = .next t
        ∧ t.getB (LANE_STATUS_TXEQ_PEND l) = true ∧ t.rd (LANE_TXEQ l) = s.rd (LANE_TXEQ l) ∧ t.age.pendTx.getLast? = some (l.val, v))
     ∧ (eqAllowed e.1 e.2.1 e.2.2.1 e.2.2.2 = false → ∃ t, exec (.laneTxeqWrite l v) s = .next t ∧ PlainKept [] s t ∧ t.rd EVT_LAST = 2))
    ∧ (s.laneState l ≠ 3 → ∃ t, exec (.laneRxeqWrite l v) s = .next t ∧ t.getF (LANE_RXEQ_CTLE l) = v.toNat % 16
        ∧ t.getF (LANE_RXEQ_VGA l) = v.toNat / 256 % 32 ∧ OnlyRegs [LANE_RXEQ l] s t)
    ∧ (s.laneState l = 3 → ∃ t, exec (.laneRxeqWrite l v) s = .next t ∧ t.getB (LANE_RXEQ_RXEQ_PEND l) = true
        ∧ t.getF (LANE_RXEQ_CTLE l) = s.getF (LANE_RXEQ_CTLE l) ∧ t.age.pendRx.getLast? = some (l.val, v))
    ∧ (s.laneState l = 3 → (s.quiLeft s.tick = none ∨ s.lnk.fTx ≠ 0) → exec (.eqPendingApply l) s = .next s)
    ∧ ((s.laneState l ≠ 3 ∨ ((s.quiLeft s.tick).isSome = true ∧ s.lnk.fTx = 0)) → s.age.pendTx = [(l.val, v)] → s.age.pendRx = [] →
      ∃ t, exec (.eqPendingApply l) s = .next t
        ∧ t.getF (LANE_TXEQ_SWING l) = v.toNat / 2 ^ 20 % 16 ∧ t.getF (LANE_TXEQ_POST1 l) = v.toNat % 32
        ∧ t.getB (LANE_STATUS_TXEQ_PEND l) = false ∧ t.age.pendTx = [] ∧ WordsKept [LANE_STATUS l, LANE_TXEQ l] s t)

/-- R52, R341: starting and stopping a pattern. -/
def Obligations.LanePatternsStartAndStop : Prop :=
  ∀ (s : State) (l : Fin 18), ClocksRun s → s.lanes.contains l.val = true →
    (∀ pat came, s.laneState l = 2 ∨ s.laneState l = 4 → s.getB (LANE_PAT_RUN l) = false → ∃ t, exec (.lanePatStart l ⟨pat, came⟩) s = .next t
      ∧ t.getB (LANE_PAT_RUN l) = true ∧ t.getF (LANE_PAT_PATTERN l) = pat.toNat ∧ t.getB (LANE_PAT_LOCK l) = (checkBits came).1
      ∧ t.getF (LANE_PRBS_ERR_COUNT l) = min (2 ^ 32 - 1) (s.getF (LANE_PRBS_ERR_COUNT l) + (checkBits came).2.2)
      ∧ OnlyRegs [LANE_PAT l, LANE_PRBS_ERR l] s t)
    ∧ (∀ pat came, s.laneState l ≠ 2 → s.laneState l ≠ 4 → ∃ t, exec (.lanePatStart l ⟨pat, came⟩) s = .next t
      ∧ t.getB (LANE_PAT_RUN l) = s.getB (LANE_PAT_RUN l) ∧ t.getF (LANE_PAT_PATTERN l) = s.getF (LANE_PAT_PATTERN l) ∧ t.rd EVT_LAST = 2)
    ∧ (∀ errs : Word, s.getB (LANE_PAT_RUN l) = true → ∃ t, exec (.lanePatStop l errs) s = .next t ∧ t.getB (LANE_PAT_RUN l) = false
      ∧ t.getB (LANE_PAT_LOCK l) = false
      ∧ t.getF (LANE_PRBS_ERR_COUNT l) = (if s.getB (LANE_PAT_LOCK l) then min (2 ^ 32 - 1) (s.getF (LANE_PRBS_ERR_COUNT l) + errs.toNat)
          else s.getF (LANE_PRBS_ERR_COUNT l))
      ∧ OnlyRegs [LANE_PAT l, LANE_PRBS_ERR l] s t)

/-- R163–R165: the fit check starts and ends, a schedule is armed and halted. That the start of a check clears DONE and PASS is the model's choice (log entry 65). -/
def Obligations.SchedulesAreCheckedArmedAndHalted : Prop :=
  ∀ s : State, ClocksRun s →
    (s.run = false → s.getB TURN_WHATIF_EN = false → ∃ t, exec .turnCtrlCheck s = .next t ∧ t.trn.checking = true
      ∧ t.getB TURN_CHECK_DONE = false ∧ t.getB TURN_CHECK_PASS = false
      ∧ (∀ off, off ≠ TURN_CHECK → ¬(0x3100 ≤ off ∧ off < 0x3500) → t.rd off = s.rd off) ∧ t.trn = { s.trn with checking := true })
    ∧ (∀ deck, s.trn.checking = true → ∃ t, exec (.fitCheckEnd deck) s = .next t ∧ t.trn.checking = false ∧ t.getB TURN_CHECK_DONE = true
      ∧ t.getF TURN_CHECK_RESULT = (s.fitCheck deck).1 ∧ (t.getB TURN_CHECK_PASS = true ↔ (s.fitCheck deck).1 = 0))
    ∧ (s.getB TURN_CHECK_PASS = true → s.getB TIME_STATUS_SYNCED = true → s.getB LINK_STATUS_BASECAP = false →
        exec .turnCtrlArm s = .next { s with trn := { s.trn with armed := some (s.getW TURN_START) } })
    ∧ (s.getB TURN_CHECK_PASS = false → ∃ t, exec .turnCtrlArm s = .next t ∧ t.trn = s.trn ∧ PlainKept [] s t ∧ t.rd EVT_LAST = 2)
    ∧ (s.run = true → exec .turnCtrlHalt s = .next { s with trn := { s.trn with halt := true } })
    ∧ (s.run = false → exec .turnCtrlHalt s = .next { s with trn := { s.trn with armed := none } })

/-- R163, R228: descriptors are written while no schedule runs, and VALID only for a VI that may have the stream. Judging the entry that a write of any of its words leaves is the model's choice (log entry 68). -/
def Obligations.DescriptorsOfStreamsAreWritten : Prop :=
  ∀ (s : State) (id : BitVec 10) (word : Fin 4) (v : Word), ClocksRun s →
    let w (k : Nat) := if word.val = k then v.toNat else s.desc id.toNat k
    let may := s.streamAllowed id.toNat (bitsOf (w 0) 16 8) (w 2)
    (s.run = false → (bitOf (w 0) 31 = false ∨ may = true) →
      ∃ t, exec (.streamDescriptorWrite id word v) s = .next t
        ∧ (∀ a, t.trn.descs.get a = if a = 4 * id.toNat + word.val then v &&& descMask word.val else s.trn.descs.get a)
        ∧ t.getB TURN_CHECK_DONE = false ∧ t.getB TURN_CHECK_PASS = false)
    ∧ ((s.run = true ∨ (bitOf (w 0) 31 = true ∧ may = false)) →
      ∃ t, exec (.streamDescriptorWrite id word v) s = .next t ∧ t.trn.descs = s.trn.descs ∧ t.rd EVT_LAST = 2 ∧ PlainKept [] s t)

/-- R146, R165: the next Round begins, schedules start and stop; R357: what waits for a QUI run takes place. -/
def Obligations.RoundsBegin : Prop :=
  (∀ s : State, s.isl.clkOn = true → s.isl.inReset = false → s.tim.adjust = 0 → s.trn.void = false → s.lnk.wait = [] → s.lme.queue = [] →
      s.lme.runs = [] → s.getF TURN_DECK_NDECK = 0 → s.tick ≤ s.b + s.lenNow → s.b + s.lenNow < 2 ^ 64 →
    ∃ t, exec .roundBoundary s = .next t ∧ t.tim.round = s.tim.round + 1 ∧ t.tick = s.b + s.lenNow ∧ t.b = s.b + s.lenNow
      ∧ (s.run = false → ∀ a, s.trn.armed = some a → a ≤ s.tim.round + 1 → t.run = true ∧ t.trn.first = s.tim.round + 1 ∧ t.trn.s = a)
      ∧ (s.run = false → (∀ a, s.trn.armed = some a → s.tim.round + 1 < a) → t.run = false ∧ t.trn.armed = s.trn.armed)
      ∧ (s.run = true → s.trn.armed = none → t.run = !s.trn.halt))
  ∧ ∀ (s : State) (cause : Nat), s.lnk.wait = [.retrain cause] → s.link = 4 ∨ s.link = 5 →
      (s.run = false ∨ (s.quiRuns.find? (fun p => decide (s.tick < p.2))).isSome = true) →
      ∃ t, exec .quiRunStart s = .next t ∧ t.link = 6 ∧ t.lnk.cause = cause ∧ t.lnk.wait = []

/-- R156, R157: the fetch of a Deck page, its check and its deadline. Counting a fetch at the first ask for its lines is the model's choice (log entry 60). -/
def Obligations.DeckPagesAreFetched : Prop :=
  ∀ s : State,
    (s.run = true → s.progDeck (s.progOf (s.tim.round + 1)) = true → s.trn.deckReady = false →
      (s.trn.deckMiss = false → s.trn.deckFetch = none → ∃ t at_ n, exec .deckFetchIssue s = .next t
        ∧ t.trn.deckFetch = some (s.progPage (s.progOf (s.tim.round + 1)), at_, n) ∧ n ≤ deckLines s.place
        ∧ t.mov.tags.length = s.mov.tags.length + n ∧ counted CNT_DECK_FETCH 1 s t)
      ∧ ∃ t, exec .deckFetchDeadline s = .next t ∧ t.trn.deckMiss = true)
    ∧ ∀ (page : List Word) (ok : Bool) (p at_ n : Nat), s.trn.deckFetch = some (p, at_, n) → deckLines s.place ≤ n → s.trn.deckReady = false →
      s.xOpen 2 = true →
      (ok = true → page.length = pageEntries s.place → (s.trn.crcs[p - 14]?).map (·.toNat) = some (crc32 (pageBytes page)) →
        ∃ t, exec (.deckFetchComplete page ok) s = .next t ∧ t.trn.deckReady = true ∧ t.trn.deckMiss = s.trn.deckMiss
          ∧ (∀ i < pageEntries s.place, t.trn.frames.get (8192 * s.spareFrame + i) = page.getD i 0)
          ∧ (∀ a, a / 8192 ≠ s.spareFrame → t.trn.frames.get a = s.trn.frames.get a))
      ∧ (¬(ok = true ∧ page.length = pageEntries s.place ∧ (s.trn.crcs[p - 14]?).map (·.toNat) = some (crc32 (pageBytes page))) →
        ∃ t, exec (.deckFetchComplete page ok) s = .next t ∧ t.trn.deckMiss = true ∧ t.trn.deckReady = false ∧ t.trn.frames = s.trn.frames)

/-- R141, R142: requests, replies, the one-way delay, and the step of the counter after sixteen replies. -/
def Obligations.TimeIsExchanged : Prop :=
  ∀ (s : State) (m : SyncMsg),
    (s.syncOpen = true → exec .timeSyncRequestSend s = .next { s with
      tim := { s.tim with syncId := (s.tim.syncId + 1) % 256 }
      dlv := { s.dlv with lc := s.dlv.lc ++ [⟨syncBody false ((s.tim.syncId + 1) % 256) (s.getB TIME_STATUS_SYNCED) 0, s.now⟩] } })
    ∧ (s.link = 4 ∨ s.link = 5 → exec (.timeSyncRequestReceive m) s = .next { s with
      dlv := { s.dlv with lc := s.dlv.lc ++ [⟨syncBody true m.id.toNat (s.getB TIME_STATUS_SYNCED) m.arrived, s.now⟩], heard := some s.now } })
    ∧ ∀ t1 : Nat, s.tim.sync = [(m.id.toNat, t1)] →
      (let rt : Int := (m.arrived - t1) - (m.tsend - m.trecv)
       let a := signed 16 (s.getF TIME_ASYM_ASYM)
       s.isParent = false → s.tim.owdRt = none → (rt + a) % 2 = 0 → ∃ t, exec (.timeSyncReplyReceive m) s = .next t
         ∧ t.getF TIME_OWD_OWD = unsigned 24 ((rt + a) / 2) ∧ t.tim.owdRt = some rt ∧ t.tim.sync = [] ∧ t.tim.answered = s.tim.answered + 1
         ∧ t.die = s.die ∧ WordsKept [TIME_OWD] s t)
      ∧ (s.isParent = true → m.synced = true → s.tim.answered = 15 → s.getB TIME_STATUS_SYNCED = false → s.getB TIME_CTRL_MASTER = false →
        ∃ t, exec (.timeSyncReplyReceive m) s = .next t ∧ t.getB TIME_STATUS_SYNCED = true ∧ t.tim.sync = [])

/-- R161, R233: forwarded messages are answered, recorded once and repeated until answered. -/
def Obligations.NoticesCrossFarLinks : Prop :=
  ∀ s : State,
    (s.far = true →
      (∀ m : StretchMsg, m.got = false → s.tim.rxSeen.contains (m.origin.toNat, m.seq.toNat) = false → ∃ t, exec (.stretchReceive m) s = .next t
        ∧ t.dlv = { s.dlv with lc := s.dlv.lc ++ [⟨stretchBody true m.lower m.k.toNat m.seq.toNat m.origin.toNat m.e.toNat, s.now⟩], heard := some s.now }
        ∧ t.getW TURN_STRETCH_RX / 2 ^ 32 = m.e.toNat % 2 ^ 32 ∧ t.getW TURN_STRETCH_RX / 2 ^ 23 % 2 ^ 9 = m.origin.toNat
        ∧ t.getW TURN_STRETCH_RX / 2 ^ 15 % 2 ^ 8 = m.seq.toNat ∧ t.rd EVT_LAST = 0x0308 ∧ PlainKept [TURN_STRETCH_RX.off, TURN_STRETCH_RX.off + 4] s t)
      ∧ ∀ m : GenMsg, m.got = false → s.tim.genSeen.contains (m.origin.toNat, m.nseq.toNat) = false → m.origin.toNat ≠ s.pod_ →
        s.podGen m.origin.toNat m.vi.toNat = none → ∃ t, exec (.genNoticeReceive m) s = .next t
          ∧ t.dlv = { s.dlv with lc := s.dlv.lc ++ [⟨genBody true m.origin.toNat m.vi.toNat m.gen.toNat m.nseq.toNat, s.now⟩], heard := some s.now }
          ∧ t.podGen m.origin.toNat m.vi.toNat = some m.gen.toNat ∧ t.regs = s.regs)
    ∧ ∀ (c : Instr) (ty : Byte), (c = .stretchRepeat ∧ ty = 0x26) ∨ (c = .genNoticeRepeat ∧ ty = 0x27) → (∀ f ∈ s.tim.fwds, f.sends < 64) →
        exec c s = .next { s with
          tim := { s.tim with fwds := s.tim.fwds.map (fun f => if f.body.head? == some ty then { f with sends := f.sends + 1 } else f) }
          dlv := { s.dlv with lc := s.dlv.lc ++ (s.tim.fwds.filter (fun f => f.body.head? == some ty)).map (fun f => ⟨f.body, s.now⟩) } }

/-- R173, R182, R190: what the registers of rings and of stream windows take. -/
def Obligations.RingsAndWindowsAreSet : Prop :=
  ∀ s : State, ClocksRun s →
    (∀ (n : Fin 64) (v : BitVec 16),
      ((v.toNat + 2 ^ 16 - s.getF (MOV_RING_DONE_DONE n)) % 2 ^ 16 ≤ 2 ^ s.getF (MOV_RING_CFG_LOG2SIZE n) →
        ∃ t, exec (.movRingHeadWrite n v) s = .next t ∧ t.getF (MOV_RING_HEAD_HEAD n) = v.toNat ∧ OnlyRegs [MOV_RING_HEAD n] s t)
      ∧ (2 ^ s.getF (MOV_RING_CFG_LOG2SIZE n) < (v.toNat + 2 ^ 16 - s.getF (MOV_RING_DONE_DONE n)) % 2 ^ 16 →
        ∃ t, exec (.movRingHeadWrite n v) s = .next t ∧ t.rd EVT_LAST = 2 ∧ t.rd EVT_DETAIL = MOV_RING_HEAD n ∧ PlainKept [] s t))
    ∧ (∀ n : Fin 64, s.getB (MOV_RING_CFG_EN n) = false → s.getB (MOV_RING_CFG_BOUND n) = true →
        4 ≤ s.getF (MOV_RING_CFG_LOG2SIZE n) → s.getF (MOV_RING_CFG_LOG2SIZE n) ≤ 12 →
        ∃ t, exec (.movRingEnable n true) s = .next t ∧ t.getB (MOV_RING_CFG_EN n) = true ∧ t.getB (MOV_RING_CFG_STOPPED n) = false
          ∧ t.getF (MOV_RING_CFG_LOG2SIZE n) = s.getF (MOV_RING_CFG_LOG2SIZE n) ∧ t.getB (MOV_RING_CFG_BOUND n) = true
          ∧ t.getF (MOV_RING_TAIL_TAIL n) = s.getF (MOV_RING_HEAD_HEAD n) ∧ t.getF (MOV_RING_DONE_DONE n) = s.getF (MOV_RING_HEAD_HEAD n)
          ∧ t.mov.fetched = s.mov.fetched.filter (fun f => f.1 != n.val)
          ∧ WordsKept [MOV_RING_CFG n, MOV_RING_TAIL n, MOV_RING_DONE n] s t)
    ∧ (∀ n : Fin 64, s.getB (MOV_RING_CFG_EN n) = true → ∃ t, exec (.movRingEnable n false) s = .next t
        ∧ t.getB (MOV_RING_CFG_EN n) = false ∧ t.getB (MOV_RING_CFG_STOPERR n) = s.getB (MOV_RING_CFG_STOPERR n)
        ∧ t.getF (MOV_RING_CFG_VI n) = s.getF (MOV_RING_CFG_VI n) ∧ OnlyRegs [MOV_RING_CFG n] s t)
    ∧ (∀ (w : Fin 32) (v : Word),
      ((bitOf v.toNat 31 = true → s.winEn w = false ∧ s.winBaseOk (s.getW (MOV_SWIN_BASE w)) = true) →
        ∃ t, exec (.movSwinEnable w v) s = .next t ∧ t.winEn w = bitOf v.toNat 31 ∧ t.winRx w = bitOf v.toNat 30
          ∧ t.getF (MOV_SWIN_CFG_SCOPE w) = bitsOf v.toNat 28 2 ∧ t.getF (MOV_SWIN_CFG_LOG2SIZE w) = v.toNat % 32 ∧ WordsKept [MOV_SWIN_CFG w] s t)
      ∧ (bitOf v.toNat 31 = true → (s.winEn w = true ∨ s.winBaseOk (s.getW (MOV_SWIN_BASE w)) = false) →
        ∃ t, exec (.movSwinEnable w v) s = .next t ∧ t.rd EVT_LAST = 2 ∧ t.rd EVT_DETAIL = MOV_SWIN_CFG w ∧ PlainKept [] s t)
      ∧ (s.winRx w = false → (∃ t, exec (.movSwinProdWrite w v) s = .next t ∧ t.winProd w = v.toNat ∧ WordsKept [MOV_SWIN_PROD w] s t)
        ∧ exec (.movSwinConsWrite w v) s = .next s)
      ∧ (s.winRx w = true → exec (.movSwinProdWrite w v) s = .next s
        ∧ ∃ t, exec (.movSwinConsWrite w v) s = .next t ∧ t.winCons w = v.toNat ∧ OnlyRegs [MOV_SWIN_CONS w] s t))

/-- R174, R176: fetching descriptors by lines; R182: publication of a Round of a window. That a line marked POISON is taken as read (log entry 134), and that the FENCE carries a release count of the window (log entry 116), are the model's choices. -/
def Obligations.DescriptorsAreFetchedAndPublished : Prop :=
  ∀ s : State, ClocksRun s →
    (∀ (r : Fin 64) (tag : Nat), s.getB (MOV_RING_CFG_EN r) = true → (s.mov.fetchAt.get r).toNat ≠ s.getF (MOV_RING_HEAD_HEAD r) → s.fetching < 16 →
      s.freeTag = some tag →
      let i := (s.mov.fetchAt.get r).toNat
      let n := if s.descGa r i % 128 = 0 ∧ (i + 1) % 2 ^ 16 ≠ s.getF (MOV_RING_HEAD_HEAD r) then 2 else 1
      ∃ t, exec (.descriptorFetchIssue r) s = .next t
        ∧ Asked (asking s tag 5 r n i (s.getF MOV_SYS_VI) (s.descGa r i)) (s.descGa r i) 0 (msgRead (s.descGa r i) tag (s.owFor (s.getF MOV_SYS_VI))) s t
        ∧ (t.mov.fetchAt.get r).toNat = (i + n) % 2 ^ 16 ∧ t.regs = s.regs)
    ∧ (∀ (tag : BitVec 16) (st : Byte) (line : BitVec 1024) (e : Tag), s.mov.tags.find? (fun x => x.tag == tag.toNat && x.kind == 5) = some e →
      (e.dead = true → exec (.descriptorFetchReturn tag st line) s = .next (s.dropTag e))
      ∧ (e.dead = false → (∀ r < 64, s.ringStarts r = false) → s.trn.writes = [] →
        let err := if st.toNat = 3 then 0 else st.toNat
        ∃ t, exec (.descriptorFetchReturn tag st line) s = .next t
        ∧ t.mov.tags = s.mov.tags.filter (fun x => x.tag != e.tag) ∧ t.regs = s.regs
        ∧ t.mov.fetched = s.mov.fetched ++ (List.range e.ring).map (fun k => (e.owner, (e.arg + k) % 2 ^ 16, err,
            if err ≠ 0 then 0 else BitVec.ofNat 512 (bytesAt (beBytes 128 line.toNat) (s.descGa e.owner ((e.arg + k) % 2 ^ 16) % 128) 64)))))
    ∧ ∀ (w : Fin 32) (n tag : Nat), s.mov.pub.find? (fun p => p.1 == w.val) = some (w.val, n) → s.pubReady w n = true →
      (s.getW (MOV_SWIN_FLAG w) = 0 → exec (.windowPublish w) s = .next (s.pubDone w n))
      ∧ (s.getW (MOV_SWIN_FLAG w) ≠ 0 → s.freeTag = some tag →
        let ga := s.getW (MOV_SWIN_BASE w) / 2 ^ 48 % 2 ^ 14 * 2 ^ 48
        ∃ t, exec (.windowPublish w) s = .next t ∧ t.regs = s.regs ∧ t.mov.pub = s.mov.pub
          ∧ Asked (asking s tag 10 w 64 n (s.winVi w) ga) ga 0 (msgFence (s.getF (MOV_SWIN_CFG_SCOPE w)) (s.mov.winRel.get w).toNat tag (s.owFor (s.winVi w))) s t)

/-- R176: a descriptor starts; R178, R185, R187: the first request of each operation. -/
def Obligations.DescriptorsStart : Prop :=
  ∀ (s : State) (m : Fin 4) (r : Fin 64) (d : BitVec 512) (tag : Nat), ClocksRun s →
    s.mov.fetched = [(r.val, s.getF (MOV_RING_TAIL_TAIL r), 0, d)] → s.getF (MOV_RING_TAIL_TAIL r) ≠ s.getF (MOV_RING_HEAD_HEAD r) →
    s.badDesc d = false → s.mov.eng.length = 4 → (s.eng m).active = false → s.engTags m = [] → s.wsetOf r = [] → s.ringStarts r = true →
    s.freeTag = some tag → s.getB MOV_CTRL_TRACE = false →
    let i := s.getF (MOV_RING_TAIL_TAIL r)
    let vi := s.ringVi r
    ∀ c : Instr, (dOp d = 1 ∧ dWinadv d = false ∧ c = .copyDescriptor m r)
        ∨ (s.ringBusy r = false ∧ (dOp d = 2 ∧ c = .signalDescriptor m r ∨ dOp d = 3 ∧ c = .waitDescriptor m r ∨ dOp d = 4 ∧ c = .fenceDescriptor m r)) →
      ∃ t, exec c s = .next t ∧ (t.eng m).active = true ∧ (t.eng m).ring = r ∧ (t.eng m).idx = i ∧ (t.eng m).desc = d ∧ (t.eng m).code = 0
        ∧ t.getF (MOV_RING_TAIL_TAIL r) = (i + 1) % 2 ^ 16 ∧ t.mov.fetched = [] ∧ WordsKept (MOV_RING_TAIL r :: cntWords CNT_MOV_WAIT_READ) s t
        ∧ (dOp d = 1 → t.mov.tags = s.mov.tags ∧ t.out = s.out ∧ t.dlv = s.dlv)
        ∧ (dOp d = 2 → Asked (asking s tag 3 m r 0 vi (dDst d)) (dDst d) (dRoute d) (msgWriteSome (dDst d) (dDst d % 128) (beBytes 8 (dValue d)) tag (s.owFor vi)) s t
            ∧ t.mov.wset = s.mov.wset ++ [(r.val, gaPod (dDst d), gaDie (dDst d), dRoute d)])
        ∧ (dOp d = 3 → Asked (asking s tag 6 m r 0 vi (dSrc d)) (dSrc d) (dRoute d) (msgRead (dSrc d) tag (s.owFor vi)) s t ∧ counted CNT_MOV_WAIT_READ 1 s t)
        ∧ (dOp d = 4 → Asked (asking s tag 4 m r 0 (s.statusVi r) (s.descGa r i + 60)) (s.descGa r i + 60) 0
            (msgWriteBytes (s.descGa r i + 60) (beBytes 4 (2 ^ 31)) tag (s.owFor (s.statusVi r))) s t)

/-- R177, R178, R180, R231: a request of a COPY, the answers to its requests, and a stale answer. -/
def Obligations.MoversReadAndAreAnswered : Prop :=
  ∀ s : State, ClocksRun s →
    (∀ (m : Fin 4) (tag : Nat), (s.eng m).active = true → dOp (s.eng m).desc = 1 → (s.eng m).phase = 1 → (s.eng m).stop = false →
      (s.eng m).relOn = false → (s.eng m).lines = [] → (s.eng m).next < lineCount (dSrc (s.eng m).desc) (dLength (s.eng m).desc) →
      (s.eng m).wnext < lineCount (dDst (s.eng m).desc) (dLength (s.eng m).desc) → (s.engTags m).length < 1024 → s.freeTag = some tag →
      let e := s.eng m
      let a := lineOf (dSrc e.desc) + 128 * e.next
      ∃ t, exec (.moverRequestIssue m) s = .next t ∧ t.regs = s.regs ∧ t.eng m = { e with next := e.next + 1 }
        ∧ Asked (asking s tag 0 m e.ring e.next (s.ringVi e.ring) a) a (dRoute e.desc) (msgRead a tag (s.owFor (s.ringVi e.ring))) s t)
    ∧ ∀ msg : List Pip,
      (s.staleOw (msgOw msg) = true → ∃ t, exec (.moverResponseReceive msg) s = .next t ∧ counted CNT_VI_STALE 1 s t ∧ OnlyRegs [CNT_VI_STALE.off] s t)
      ∧ ∀ x : Tag, s.staleOw (msgOw msg) = false → s.mov.tags.find? (fun y => y.tag == (msgHead msg).tag) = some x → x.dead = false → s.trn.writes = [] →
        (∀ j < 8, s.getB (FOLD_XJ_CFG_GO j) = false) → x.owner < s.mov.eng.length → (s.eng x.owner).active = true → (msgHead msg).op ≠ 15 →
        (x.kind = 0 → bitsOf (msgWord msg) 24 8 ≠ 3 → dOp (s.eng x.owner).desc = 1 → (s.eng x.owner).phase = 1 → (s.eng x.owner).stop = false →
          (s.eng x.owner).relOn = false → (s.eng x.owner).wnext < lineCount (dDst (s.eng x.owner).desc) (dLength (s.eng x.owner).desc) →
          ∃ t, exec (.moverResponseReceive msg) s = .next t ∧ t.regs = s.regs ∧ t.mov.tags = s.mov.tags.filter (fun y => y.tag != x.tag)
            ∧ t.eng x.owner = { s.eng x.owner with
                lines := (s.eng x.owner).lines ++ [(x.arg, BitVec.ofNat 1024 (ofBytes (pipsBytes ((msg.drop 1).take 8))))] })
        ∧ (x.kind = 4 → (s.eng x.owner).code = 0 → s.mov.fetched = [] → dIrq (s.eng x.owner).desc = false → (s.eng x.owner).ring < 64 →
          ∃ t, exec (.moverResponseReceive msg) s = .next t ∧ t.mov.tags = s.mov.tags.filter (fun y => y.tag != x.tag)
            ∧ (t.eng x.owner).active = false ∧ counted CNT_MOV_DESC 1 s t
            ∧ t.getF (MOV_RING_DONE_DONE (s.eng x.owner).ring) = (s.getF (MOV_RING_DONE_DONE (s.eng x.owner).ring) + 1) % 2 ^ 16
            ∧ WordsKept (MOV_RING_DONE (s.eng x.owner).ring :: cntWords CNT_MOV_DESC) s t)

/-- R175, R177, R180, R187: how a WAIT goes on and ends, and how a request fails without an answer. Counting the limit of a WAIT from its start on the mover is the model's choice (log entry 135); RSPTO and POLL act as 1 where they are 0 (R190). -/
def Obligations.WaitsAndFailuresOfRequests : Prop :=
  ∀ s : State, ClocksRun s →
    (∀ (m : Fin 4) (tag : Nat), m.val < s.mov.eng.length → (s.eng m).active = true → dOp (s.eng m).desc = 3 → (s.eng m).stop = false →
      (s.eng m).relOn = false → s.engTags m = [] → s.freeTag = some tag →
      let e := s.eng m
      let status (n : Nat) := msgWriteBytes (e.ga + 60) (beBytes 4 (2 ^ 31 + n)) tag (s.owFor (s.statusVi e.ring))
      (e.phase = 1 → ∃ t, exec (.waitPoll m) s = .next t ∧ t.now = max s.now (e.readAt + 64 * max 1 (s.getF MOV_CTRL_POLL))
          ∧ (t.eng m).phase = 2 ∧ Asked { asking s tag 6 m e.ring 0 (s.ringVi e.ring) (dSrc e.desc) with at_ := t.now, die := t.tick }
              (dSrc e.desc) (dRoute e.desc) (msgRead (dSrc e.desc) tag (s.owFor (s.ringVi e.ring))) s t ∧ PlainKept PassingWords s t)
      ∧ (e.phase = 1 → dTimeout e.desc ≠ 0 → e.code = 0 → ∃ t, exec (.waitTimeout m) s = .next t
          ∧ t.now = max s.now (e.startAt + dTimeout e.desc * 2 ^ 16) ∧ (t.eng m).code = 6 ∧ (t.eng m).phase = 5
          ∧ Asked { asking s tag 4 m e.ring 0 (s.statusVi e.ring) (e.ga + 60) with at_ := t.now, die := t.tick } (e.ga + 60) 0 (status 6) s t ∧ PlainKept PassingWords s t)
      ∧ (e.phase = 3 → s.getB MOV_CTRL_TRACE = false → ∃ t, exec (.acquireConfirm m) s = .next t ∧ (t.eng m).phase = 5 ∧ (t.eng m).code = e.code
          ∧ Asked (asking s tag 4 m e.ring 0 (s.statusVi e.ring) (e.ga + 60)) (e.ga + 60) 0 (status e.code) s t ∧ t.regs = s.regs))
    ∧ (∀ (tag : BitVec 16) (x : Tag), x.kind ≤ 2 → x.owner < s.mov.eng.length → (s.eng x.owner).active = true → (s.eng x.owner).code = 0 →
        x.dead = false →
      (s.mov.tags.find? (fun y => y.tag == tag.toNat && !y.dead) = some x → ∃ t, exec (.responseTimeout tag) s = .next t
          ∧ (t.eng x.owner).code = 8 ∧ (t.eng x.owner).stop = true ∧ (∀ y ∈ t.mov.tags, y.tag = x.tag → y.dead = true)
          ∧ (∃ y ∈ t.mov.tags, y.tag = x.tag) ∧ t.now = max s.now (x.at_ + 2 ^ 16 * max 1 (s.getF MOV_CTRL_RSPTO)))
      ∧ (s.mov.tags.find? (fun y => y.tag == tag.toNat && !y.link && !y.timedOut) = some x → ∃ t, exec (.pathDownReport tag) s = .next t
          ∧ (t.eng x.owner).code = 5 ∧ (t.eng x.owner).stop = true ∧ t.now = s.now))
    ∧ (∀ (tag : BitVec 16) (x : Tag), x.dead = true → s.mov.tags.find? (fun y => y.tag == tag.toNat && !y.link && !y.timedOut) = some x →
        exec (.pathDownReport tag) s = .next (s.dropTag x))
    ∧ ∀ tag : BitVec 16, (∀ y ∈ s.mov.tags, y.tag = tag.toNat → y.timedOut = true) → exec (.pathDownReport tag) s = .next s

/-- R199, R221, R253, R261: contexts are validated, jobs start and end, the arithmetic island is reset. That the relay partners' registers are a free value (log entry 147), and which crossing a write waits at (log entry 149), are the model's choices. -/
def Obligations.FoldContextsAndJobsAreSet : Prop :=
  ∀ s : State, (ClocksRun s →
    (∀ c : Fin 32,
      (s.run = false → ∃ t named, exec (.foldCtxEnable c true) s = .next t ∧ t.ctxEn c = true ∧ t.getF (FOLD_CTX_STATUS_WHY c) = t.ctxWhy c named
        ∧ (t.getB (FOLD_CTX_STATUS_OK c) = true ↔ t.ctxWhy c named = 0) ∧ t.ctx c = Ctx.empty ∧ t.ctxVi c = s.ctxVi c ∧ t.ctxOp c = s.ctxOp c
        ∧ WordsKept [FOLD_CTX_CFG c, FOLD_CTX_STATUS c] s t)
      ∧ (s.run = false → ∃ t, exec (.foldCtxEnable c false) s = .next t ∧ t.ctxEn c = false ∧ t.getB (FOLD_CTX_STATUS_OK c) = false
        ∧ t.getF (FOLD_CTX_STATUS_WHY c) = 0 ∧ t.ctx c = Ctx.empty ∧ WordsKept [FOLD_CTX_CFG c, FOLD_CTX_STATUS c] s t)
      ∧ (s.run = true → ∀ en, ∃ t, exec (.foldCtxEnable c en) s = .next t ∧ t.rd EVT_LAST = 2 ∧ t.fold = s.fold ∧ PlainKept [] s t))
    ∧ (∀ j : Fin 8, s.fold.jobs.length = 8 →
      (s.getB (FOLD_XJ_CFG_GO j) = true → exec (.foldXjGo j) s = .next s)
      ∧ (s.getB (FOLD_XJ_CFG_GO j) = false → s.getB (MOV_RING_CFG_BOUND (s.jobRing j)) = false → ∃ t, exec (.foldXjGo j) s = .next t
          ∧ t.rd EVT_LAST = 2 ∧ t.fold = s.fold ∧ PlainKept [] s t)
      ∧ (s.getB (FOLD_XJ_CFG_GO j) = false → s.getB (MOV_RING_CFG_BOUND (s.jobRing j)) = true → ∃ t, exec (.foldXjGo j) s = .next t
          ∧ t.getF (FOLD_XJ_STATUS_FLAGS j) = 0
          ∧ (s.jobBad j = true ∨ s.jobCount j = 0 → t.getB (FOLD_XJ_CFG_GO j) = false ∧ t.getB (FOLD_XJ_STATUS_DONE j) = true
              ∧ t.getF (FOLD_XJ_STATUS_CODE j) = (if s.jobBad j then 7 else 0) ∧ counted CNT_XJ_DONE 1 s t)
          ∧ (s.jobBad j = false → s.jobCount j ≠ 0 → t.getB (FOLD_XJ_CFG_GO j) = true ∧ t.getB (FOLD_XJ_STATUS_DONE j) = false
              ∧ (t.job j).started = (!s.getB FOLD_CTRL_JOBPAUSE && s.getF (VI_SHR_SHARE (s.ringVi (s.jobRing j))) != 0))
          ∧ WordsKept (FOLD_XJ_CFG j :: FOLD_XJ_STATUS j :: cntWords CNT_XJ_DONE) s t)
      ∧ (s.jobFinished j = true → ∃ t, exec (.xjEnd j) s = .next t ∧ t.getB (FOLD_XJ_CFG_GO j) = false ∧ t.getB (FOLD_XJ_STATUS_DONE j) = true
          ∧ t.getF (FOLD_XJ_STATUS_CODE j) = (s.job j).code % 256 ∧ counted CNT_XJ_DONE 1 s t
          ∧ (s.getB (FOLD_XJ_CFG_IRQ j) = true → Out.core (msgInterrupt (s.getF (MOV_RING_IRQ_VECTOR (s.jobRing j)))
              (s.getF (MOV_RING_IRQ_HOST (s.jobRing j))) (s.owFor (s.ringVi (s.jobRing j)))) ∈ t.out)
          ∧ WordsKept (FOLD_XJ_CFG j :: FOLD_XJ_STATUS j :: cntWords CNT_XJ_DONE) s t))
    ∧ (s.run = false → (∀ j < 8, s.getB (FOLD_XJ_CFG_GO j) = false) → ∃ t, exec .islCtrlArst s = .next t
        ∧ t.getF ISL_XING_RESYNC = s.getF ISL_XING_RESYNC ||| 0x28 ∧ t.isl.hs.getD 3 0 = 1 ∧ t.isl.hs.getD 5 0 = 1
        ∧ t.fold.ctx = s.fold.ctx.map (fun x => { Ctx.empty with rc := x.rc }) ∧ WordsKept [ISL_XING] s t)
    ∧ (s.run = true ∨ (∃ j < 8, s.getB (FOLD_XJ_CFG_GO j) = true) → ∃ t, exec .islCtrlArst s = .next t ∧ t.rd EVT_LAST = 2 ∧ t.fold = s.fold ∧ t.isl = s.isl
        ∧ PlainKept [] s t))
    ∧ (let waits (off v : Nat) (i : Instr) : Prop :=
        s.reaches off = false → (s.isl.wait.filter (fun p => p.1 == xOf off && !p.2.outward)).length < xDepth (xOf off) →
        exec i s = .next { s with isl := { s.isl with wait := s.isl.wait ++ [(xOf off, .access .bus true none off v)] } }
      (∀ (c : Fin 32) en, waits (FOLD_CTX_CFG c) ((FOLD_CTX_CFG_EN c).put (s.rd (FOLD_CTX_CFG c)) (if en then 1 else 0)) (.foldCtxEnable c en))
        ∧ (∀ j : Fin 8, waits (FOLD_XJ_CFG j) (s.rd (FOLD_XJ_CFG j) ||| 2 ^ 31) (.foldXjGo j))
        ∧ waits ISL_CTRL (s.rd ISL_CTRL ||| 2) .islCtrlArst)

/-- R203, whole: integer operations of the Fold unit. -/
def Obligations.IntegerFoldsAsR203Says : Prop :=
  (∀ w ∈ [32, 64], ∀ x y : Nat, x < 2 ^ w → y < 2 ^ w →
    (foldInt w 1 x y).val = (x + y) % 2 ^ w ∧ (foldInt w 4 x y).val = (x + y * y) % 2 ^ w
    ∧ (foldInt w 1 x y).flags = (if signed w ((x + y) % 2 ^ w) = signed w x + signed w y then 0 else fOF)
    ∧ (foldInt w 4 x y).flags = (if signed w ((x + y * y) % 2 ^ w) = signed w x + signed w y * signed w y then 0 else fOF)
    ∧ signed w (foldInt w 2 x y).val = min (signed w x) (signed w y) ∧ (foldInt w 2 x y).flags = 0
    ∧ signed w (foldInt w 3 x y).val = max (signed w x) (signed w y) ∧ (foldInt w 3 x y).flags = 0
    ∧ foldInt w 5 x y = ⟨x &&& y, 0⟩ ∧ foldInt w 6 x y = ⟨x ||| y, 0⟩ ∧ foldInt w 7 x y = ⟨x ^^^ y, 0⟩
    ∧ ∀ op, 1 ≤ op → op ≤ 7 →
      (∀ z < 2 ^ w, (foldInt w op (foldInt w op x y).val z).val = (foldInt w op (foldInt w op x z).val y).val)
      ∧ (op ≠ 4 → (foldInt w op x y).val = (foldInt w op y x).val))
  ∧ ∃ x y z : Nat, x < 2 ^ 32 ∧ y < 2 ^ 32 ∧ z < 2 ^ 32 ∧ (foldInt 32 1 x y).flags = fOF ∧ (foldInt 32 1 x z).flags = 0
    ∧ (foldInt 32 1 (foldInt 32 1 x z).val y).flags = 0

/-- R196, R200, R219: an element is combined when its inputs are present; R202, R204 to R208: floating and AP192 partials; R210 to R214: conversions. The order in which ready elements take their slots is the model's choice (log entry 114). -/
def Obligations.ElementsAreCombined : Prop :=
  (∀ (s : State) (c : Fin 32) (p : Nat) (x y : List Byte) (rx : List (Option Byte)) (ry : List Byte),
    s.run = true → s.ctxOk c = true → s.fold.ctx.length = 32 → s.clockRuns = true → s.clkSeen .arith = true →
    (s.ctx c).inQ = x.map some ++ rx → (s.ctx c).opQ = y ++ ry →
    let i := s.ctxIf c
    let o := s.ctxOf c
    let op := s.ctxOp c
    let hasIn : Bool := s.getF (FOLD_CTX_SRC_INSRC c) != 0
    let osrc := s.getF (FOLD_CTX_SRC_OPSRC c)
    let seed := s.getW (FOLD_CTX_SEED c)
    let sr := s.getB (FOLD_CTX_CFG_SR c)
    let sat := s.getB (FOLD_CTX_CFG_SAT c)
    let j := (s.ctx c).rc * 2 ^ 32 + (s.ctx c).elem
    let made (n : Nat) (out : List Byte) (flags : Nat) (t : State) : Prop :=
      let last : Bool := s.getF (FOLD_CTX_COUNT_COUNT c) ≤ (s.ctx c).elem + n
      (t.ctx c).inQ = rx ∧ (t.ctx c).opQ = ry ∧ (t.ctx c).outQ = (s.ctx c).outQ ++ out
        ∧ (t.ctx c).elem = (if last then 0 else (s.ctx c).elem + n) ∧ (t.ctx c).rc = (if last then (s.ctx c).rc + 1 else (s.ctx c).rc)
        ∧ t.getF (FOLD_CTX_STATUS_FLAGS c) = (s.getF (FOLD_CTX_STATUS_FLAGS c) ||| flags) % 64
        ∧ t.getF FOLD_FLAGS_FLAGS = (s.getF FOLD_FLAGS_FLAGS ||| flags) % 64 ∧ counted CNT_FOLD_ELEMS n s t ∧ (∀ k : Nat, k ≠ c → t.ctx k = s.ctx k)
    (s.ctxMay c = true → partialOf op i = some p → i ≠ 9 → (op = 8 → s.getB (FOLD_CTX_ANCHOR_ASRC c) = false) →
      (if hasIn then osrc ≤ 2 else osrc = 2) →
      (o = p ∨ (isMx o = false ∧ hasIn = true ∧ osrc = 2 ∧ (if p = 8 then o ≤ 1 else xcodePair p o = true))) →
      x.length = (if hasIn then elemBits p / 8 else 0) → y.length = (if osrc = 0 then 0 else if osrc = 1 then elemBits i / 8 else elemBits p / 8) →
      let a := anchorOf (signed 16 (s.getF (FOLD_CTX_ANCHOR_A c)))
      let ov : Fl Nat := if osrc ≠ 1 then ⟨ofBytes y, 0⟩
        else if op = 8 then (let q := apConvert a ((⟨11, 1023, 52, 0⟩ : FFmt).decode (ofBytes y)); ⟨q.val.bits, q.flags⟩)
        else ⟨(convElem i p false .even (ofBytes y)).val, 0⟩
      let r := combine op p (if hasIn then some (ofBytes x) else none) (if osrc = 0 then none else some ov.val)
      let z : Fl Nat := if p = 8 ∧ o ≠ 8 then apOut (if o = 0 then ⟨11, 1023, 52, 0⟩ else ⟨8, 127, 23, 0⟩) a (apOf r.val)
        else convElem p o sat (rndFor sr o seed j) r.val
      (s.slotsSpent + s.slotCost c ≤ 1024 → ∃ t, exec (.elementCombine c) s = .next t
        ∧ made 1 (beBytes (elemBits o / 8) z.val) (r.flags ||| ov.flags ||| z.flags) t ∧ PlainKept [FOLD_CTX_STATUS c, FOLD_FLAGS] s t)
      ∧ (1024 < s.slotsSpent + s.slotCost c → osrc ≠ 1 → s.isl.inReset = false → ∃ t, exec (.elementCombine c) s = .next t
        ∧ made 1 (beBytes (elemBits o / 8) z.val) (r.flags ||| ov.flags ||| z.flags) t ∧ counted CNT_FOLD_BUSY 1 s t
        ∧ t.now = cycleStart (cycleOf s.now + 1)))
    ∧ (s.ctxMay c = true → op = 0 → xcodePair i o = true → (if hasIn then osrc = 0 else osrc = 2) → s.slotsSpent + s.slotCost c ≤ 1024 →
      let n := if isMx i || isMx o then 32 else 1
      let r := convRange i o sat sr seed j n (if hasIn then x else y)
      x.length = (if hasIn then elemBytes i n else 0) → y.length = (if hasIn then 0 else elemBytes i n) →
      (s.ctx c).used + r.val.length + s.ctxReads c ≤ s.ctxCap c →
      ∃ t, exec (.elementCombine c) s = .next t ∧ made n r.val r.flags t ∧ PlainKept [FOLD_CTX_STATUS c, FOLD_FLAGS] s t)
    ∧ (partialOf op i = some p → i ≠ 9 → osrc = 2 → (op = 8 → s.getB (FOLD_CTX_ANCHOR_ASRC c) = false) →
      (s.ctx c).opQ.length < elemBits p / 8 ∨ s.ctxMay c = false → exec (.elementCombine c) s = .next s))
  ∧ (∀ f ∈ [(⟨11, 1023, 52, 0⟩ : FFmt), ⟨8, 127, 23, 0⟩], ∀ (op : Nat) (v w : FVal), 1 ≤ op → op ≤ 4 →
      ((∃ n g, v = .nan n g) ∨ (∃ n g, w = .nan n g)) → (foldFloat f op v w).val = f.canonical)
  ∧ (⟨11, 1023, 52, 0⟩ : FFmt).canonical = 0x7FF8000000000000 ∧ (⟨8, 127, 23, 0⟩ : FFmt).canonical = 0x7FC00000
  ∧ (∀ (m : Nat) (e q : Int), e < q →
      let d := 2 ^ (q - e).toNat
      let n := (roundAt .even m e q).1
      2 * (((n * d : Nat) : Int) - m).natAbs ≤ d ∧ (2 * (((n * d : Nat) : Int) - m).natAbs = d → n % 2 = 0)
        ∧ ((roundAt .even m e q).2 = false ↔ n * d = m)
        ∧ ∀ r < 2 ^ 16, (roundAt (.stoch r) m e q).1 = m / d + (if 2 ^ 16 ≤ m % d * 2 ^ 16 / d + r then 1 else 0)
          ∧ (m % d = 0 → (roundAt (.stoch r) m e q).1 * d = m))
  ∧ (∀ u v : Ap, apAdd u v = apAdd v u)
  ∧ (∀ u v w : Ap, (∀ k : Int, u = .fin k ∨ v = .fin k ∨ w = .fin k → k.natAbs < 2 ^ 189) →
      (apAdd (apAdd u v).val w).val = (apAdd u (apAdd v w).val).val)
  ∧ (∀ k : Int, -(2 ^ 191 - 3) ≤ k → k ≤ 2 ^ 191 - 1 → apOf (Ap.fin k).bits = .fin k)
  ∧ apOf Ap.nar.bits = .nar ∧ (∀ n, apOf (Ap.inf n).bits = .inf n)
  ∧ (∀ a : Int, (∀ n g, apConvert a (.nan n g) = ⟨.nar, fNV⟩) ∧ (∀ n, apConvert a (.inf n) = ⟨.inf n, 0⟩) ∧ (∀ n e, apConvert a (.fin n 0 e) = ⟨.fin 0, 0⟩)
      ∧ ∀ (n : Bool) (m : Nat) (e : Int), m ≠ 0 → (a < flog2 m e → apConvert a (.fin n m e) = ⟨.nar, fAX⟩)
        ∧ (flog2 m e ≤ a → let k := (roundAt .even m (e + 160 - a) 0)
            apConvert a (.fin n m e) = ⟨.fin (if n then -(k.1 : Int) else k.1), if k.2 then fNX else 0⟩))
  ∧ (∀ f ∈ [(⟨11, 1023, 52, 0⟩ : FFmt), ⟨8, 127, 23, 0⟩], ∀ a : Int, apOut f a .nar = ⟨f.canonical, 0⟩ ∧ (∀ n, apOut f a (.inf n) = ⟨f.inf n, 0⟩)
      ∧ apOut f a (.fin 0) = ⟨0, 0⟩)
  ∧ (∀ (neg g sat : Bool) (rnd : Rnd),
      let sign := if neg then 0x80 else 0
      let e4 : FFmt := ⟨4, 7, 3, 1⟩
      let e5 : FFmt := ⟨5, 15, 2, 0⟩
      e4.encode sat rnd (.inf neg) = ⟨sign + (if sat then 0x7E else 0x7F), fNV⟩ ∧ e4.encode sat rnd (.nan neg g) = ⟨sign + 0x7F, 0⟩
        ∧ e5.encode sat rnd (.inf neg) = ⟨sign + 0x7C, 0⟩ ∧ e5.encode sat rnd (.nan neg g) = ⟨sign + 0x7E, 0⟩
        ∧ ∀ (m : Nat) (e : Int), m ≠ 0 →
          (9 ≤ flog2 m e → e4.encode sat rnd (.fin neg m e) = ⟨sign + (if sat then 0x7E else 0x7F), fOF ||| fNX⟩)
          ∧ (16 ≤ flog2 m e → e5.encode sat rnd (.fin neg m e) = ⟨sign + (if sat then 0x7B else 0x7C), fOF ||| fNX⟩))
  ∧ (∀ o ∈ [0x10, 0x11, 0x12, 0x13, 0x14], (∀ (rnd : Nat → Rnd) (vs : List FVal), (∃ v ∈ vs, ∀ n m e, v ≠ .fin n m e) →
        (mxEncode o rnd vs).val.head? = some 0xFF ∧ (∀ b ∈ (mxEncode o rnd vs).val.drop 1, b = 0) ∧ (mxEncode o rnd vs).flags = fNV)
      ∧ ∀ l : List Byte, mxDecode o (0xFF :: l) = List.replicate 32 (.nan false false))

/-- R181, R198, R200, R219: results and relayed data move between contexts, windows and streams. That an OPND relay without room is not lost, and that CNT_PORT_BAD counts when relayed data arrives, are the model's choices (log entry 79). -/
def Obligations.FoldDataEntersAndLeaves : Prop :=
  ∀ (s : State) (c : Fin 32), ClocksRun s → s.fold.ctx.length = 32 →
    (s.run = true → s.ctxOk c = true →
      let x := s.ctx c
      let sel := s.getF (FOLD_CTX_DST_OUTSEL c)
      (s.getF (FOLD_CTX_DST_OUTDST c) = 2 → x.outQ ≠ [] → ∃ t, exec (.foldOutput c) s = .next t
        ∧ t.out = .relayFold (sel / 32) (sel % 32) x.outQ :: s.out ∧ t.ctx c = { x with outQ := [], owed := [] } ∧ t.regs = s.regs)
      ∧ (s.getF (FOLD_CTX_DST_OUTDST c) = 0 → exec (.foldOutput c) s = .next s)
      ∧ (∀ tag, s.getF (FOLD_CTX_DST_OUTDST c) = 1 → s.freeTag = some tag → x.outQ ≠ [] → x.outQ.length ≤ (s.outRound c).2 → s.trn.writes = [] → s.getW (MOV_SWIN_BASE (sel % 32)) % 128 = 0 →
          x.outQ.length ≤ s.winRoom (sel % 32) → (s.winProd (sel % 32) + s.aheadOf (0x30000 + sel % 32)) % 128 + x.outQ.length ≤ 128 →
          let w := sel % 32
          let a := s.getW (MOV_SWIN_BASE w) + (s.winProd w + s.aheadOf (0x30000 + w)) % 2 ^ 32 % s.winSize w
          let owed := x.owed.map (fun o => (o.1, o.2 - x.outQ.length))
          ∃ t, exec (.foldOutput c) s = .next t ∧ t.regs = s.regs ∧ t.ctx c = { x with outQ := [], owed := owed.filter (fun o => o.2 != 0) }
            ∧ t.mov.pub = s.mov.pub ++ (owed.filter (fun o => o.2 == 0)).map (fun o => (w, o.1))
            ∧ Asked (asking s tag 9 w 64 x.outQ.length (s.ctxVi c) a) a 0 (msgWriteBytes a x.outQ tag (s.owFor (s.ctxVi c))) s t)
      ∧ ∀ (src : BitVec 12) (data : List Byte),
        (s.getF (FOLD_CTX_SRC_INSRC c) = 2 → s.getF (FOLD_CTX_SRC_INSEL c) = src.toNat → data.length ≤ s.ctxFree c → ∃ t, exec (.relayReceive c false ⟨src, data⟩) s = .next t ∧ t.regs = s.regs
          ∧ t.ctx c = { x with inQ := x.inQ ++ data.map some })
        ∧ (s.getF (FOLD_CTX_SRC_INSRC c) = 2 → s.getF (FOLD_CTX_SRC_INSEL c) = src.toNat → s.ctxFree c < data.length → ∃ t, exec (.relayReceive c false ⟨src, data⟩) s = .next t
          ∧ t.ctx c = { x with inQ := x.inQ ++ data.map (fun _ => none) } ∧ t.getF (FOLD_CTX_STATUS_FLAGS c) = s.getF (FOLD_CTX_STATUS_FLAGS c) ||| fLOST
          ∧ t.getF FOLD_FLAGS_FLAGS = s.getF FOLD_FLAGS_FLAGS ||| fLOST ∧ PlainKept [FOLD_CTX_STATUS c, FOLD_FLAGS] s t)
        ∧ (s.getF (FOLD_CTX_SRC_OPSRC c) = 2 → s.getF (FOLD_CTX_SRC_OPSEL c) = src.toNat → data.length ≤ s.ctxFree c → ∃ t, exec (.relayReceive c true ⟨src, data⟩) s = .next t ∧ t.regs = s.regs
          ∧ t.ctx c = { x with opQ := x.opQ ++ data })
        ∧ (s.ctxFree c < data.length ∨ s.getF (FOLD_CTX_SRC_OPSEL c) ≠ src.toNat → exec (.relayReceive c true ⟨src, data⟩) s = .next s)
        ∧ (s.getF (FOLD_CTX_SRC_INSEL c) ≠ src.toNat → exec (.relayReceive c false ⟨src, data⟩) s = .next s))
    ∧ ∀ (id : BitVec 10) (inst : BitVec 7) (src : BitVec 10) (data : List Byte),
      let take := s.descValid id.toNat && !s.descRx id.toNat && s.portKind id.toNat == 3 && s.portOk id.toNat false
        && s.descPort id.toNat % 128 == inst.toNat && bitsOf (s.descPort id.toNat) 16 10 == src.toNat
      (take = true → ∃ t, exec (.streamRelayArrival id ⟨inst, src, data⟩) s = .next t ∧ t.readyOf id.toNat = s.readyOf id.toNat ++ data ∧ t.regs = s.regs)
      ∧ (take = false → ∃ t, exec (.streamRelayArrival id ⟨inst, src, data⟩) s = .next t ∧ t.readyOf id.toNat = s.readyOf id.toNat ∧ PlainKept [] s t
        ∧ t.trn.badIn = some s.tim.round ∧ (s.trn.badIn = some s.tim.round → counted CNT_PORT_BAD 1 s t) ∧ (s.trn.badIn ≠ some s.tim.round → t.rd EVT_LAST = 2 ^ 30 + 0x0402))

/-- R35–R39: what the sender makes of a flit is what the receiver reads, with every bit at every value. -/
def Obligations.WireFlitsRoundTrip : Prop :=
  ∀ (l : List Byte) (map : List Nat) (g f : Nat), l.length = 256 → 1 ≤ map.length → map.length ≤ 16 → (∀ x ∈ map, x < 32) → f < 3 →
    decodeFlit (scramble map g f (wireBytes (wireOf (scramble map g f (encodeFlit l))))) = ⟨[], [0, 0], 0, some l⟩

/-- R53, R54, R60, R111, R124, R161, R233: no bit of these layouts is dropped. -/
def Obligations.HeadersAndBodiesRoundTrip : Prop :=
  (∀ h : Hdr, h.seq < 2 ^ 16 → h.ack < 2 ^ 16 → h.cch < 16 → h.cpips < 1024 → h.kind < 4 → h.firsthead < 16 → hdrOf h.bits = h ∧ h.bits < 2 ^ 64)
  ∧ (∀ (n : Nat) (slots : List Pip), n < 2 ^ 64 → slots.length = 15 →
      (flitBytes n slots).length = 256 ∧ bytesAt (flitBytes n slots) 0 8 = n ∧ flitSlots (flitBytes n slots) = slots
      ∧ crc64 ((flitBytes n slots).take 248) = bytesAt (flitBytes n slots) 248 8)
  ∧ (∀ (chan op tag b : Nat) (rest : List Pip), chan < 16 → op < 64 → tag < 2 ^ 16 → rest.length < 64 →
      msgHead (mkMsg chan op tag b rest) = ⟨chan, rest.length + 1, op, tag⟩)
  ∧ (∀ (ty : Nat) (m : ShiftMsg), m.map.length = 16 → readShift (shiftBody ty m) = m)
  ∧ (∀ m : StretchMsg, readStretch (stretchBody m.got m.lower m.k.toNat m.seq.toNat m.origin.toNat m.e.toNat) = m)
  ∧ (∀ m : GenMsg, readGen (genBody m.got m.origin.toNat m.vi.toNat m.gen.toNat m.nseq.toNat) = m)
  ∧ ∀ m : EqMsg, readEq (eqBody m.reqid.toNat m.lane.toNat m.mode.toNat m.vals.swing.toNat m.vals.pre2.toNat m.vals.pre1.toNat m.vals.post1.toNat) = m

/-- R39, R79–R81: what a flit does by its CRC, KIND and SEQ; R61, R65, R99, R165: its message or stream data; R253, R255: its way through crossing 0, whose model is log entry 150. -/
def Obligations.FlitsAreReceived : Prop :=
  (∀ (s : State) (wire : BitVec 2176), s.xOpen 0 = false → s.isl.inReset = false → s.isl.wait = [] →
    exec (.flitReceive 0 wire) s = .next { s with isl := { s.isl with wait := [(0, .arrival (.flitReceive 0 wire))] } })
  ∧ ∀ (s : State) (dt : Nat) (wire : BitVec 2176), s.xOpen 0 = true → s.linkRuns = true →
    (let d := decodeFlit (scramble s.lnk.rxMap s.lnk.gRx s.lnk.fRx (wireBytes wire))
     (∀ l ∈ s.lnk.rxMap, l < 18) → (d.flit = none ∨ ∃ f, d.flit = some f ∧ crc64 (f.take 248) ≠ bytesAt f 248 8) → ∃ t, exec (.flitReceive dt wire) s = .next t
      ∧ counted CNT_CRC_FAIL 1 s t ∧ t.getB DLV_STATUS_RWAIT = true ∧ (s.getB DLV_STATUS_RWAIT = false → t.dlv.nakDue = true)
      ∧ t.rd DLV_SEQ = s.rd DLV_SEQ ∧ t.dlv.rx = s.dlv.rx ∧ t.dlv.bank = s.dlv.bank ∧ t.trn = s.trn ∧ t.now = s.now + dt)
    ∧ ∀ f : List Byte, Carries s wire f → QuietHdr s (hdrOf (bytesAt f 0 8)) →
      let h := hdrOf (bytesAt f 0 8)
      let d := (h.seq + 2 ^ 17 - (s.getF DLV_SEQ_RXSEQ + 1)) % 2 ^ 16
      (h.kind = 1 → ∃ t, exec (.flitReceive dt wire) s = .next t ∧ t.dlv = { s.dlv with heard := some (s.now + dt) } ∧ t.trn = s.trn
        ∧ PlainKept PassingWords s t)
      ∧ (h.kind = 0 ∨ h.kind = 3 →
        (0x8000 ≤ d → ∃ t, exec (.flitReceive dt wire) s = .next t ∧ counted CNT_DUP 1 s t
            ∧ t.dlv = { s.dlv with heard := some (s.now + dt) } ∧ t.trn = s.trn ∧ PlainKept PassingWords s t)
        ∧ (0 < d → d < 0x8000 → ∃ t, exec (.flitReceive dt wire) s = .next t ∧ counted CNT_OOS 1 s t ∧ t.getB DLV_STATUS_RWAIT = true
            ∧ t.rd DLV_SEQ = s.rd DLV_SEQ ∧ t.dlv.rx = s.dlv.rx ∧ t.trn = s.trn ∧ PlainKept (DLV_STATUS :: PassingWords) s t)
        ∧ (d = 0 → h.strm = true → s.run = false → ∃ t, exec (.flitReceive dt wire) s = .next t ∧ counted CNT_STR_DROP 1 s t
            ∧ t.getF DLV_SEQ_RXSEQ = h.seq ∧ t.getB DLV_STATUS_RWAIT = false ∧ t.dlv.rx = s.dlv.rx ∧ t.trn = s.trn ∧ PlainKept (DLV_STATUS :: DLV_SEQ :: PassingWords) s t)
        ∧ ∀ p : Pip, d = 0 → h.strm = false → h.firsthead = 0 → s.dlv.part = [] → s.dlv.due = 0 → s.guestEdge = false →
            flitSlots f = p :: List.replicate 14 nulPip → opPips (headOf p).chan (headOf p).op = some 1 → (headOf p).pips = 1 →
          let c := (headOf p).chan
          (s.getF (DLV_RXBUF_HELD c) + 1 ≤ rxCap s.place c → ∃ t, exec (.flitReceive dt wire) s = .next t
            ∧ t.getF DLV_SEQ_RXSEQ = h.seq ∧ t.getB DLV_STATUS_RWAIT = false ∧ t.getF (DLV_RXBUF_HELD c) = s.getF (DLV_RXBUF_HELD c) + 1
            ∧ t.dlv.rx = s.dlv.rx ++ [⟨c, [p], s.dlv.accepted + 1, s.trn.acceptedStr, t.now⟩] ∧ t.now = s.now + dt
            ∧ PlainKept (DLV_STATUS :: DLV_SEQ :: DLV_RXBUF c :: PassingWords) s t)
          ∧ (rxCap s.place c < s.getF (DLV_RXBUF_HELD c) + 1 → s.getF (DLV_RXBUF_OWED c) + 1 < 2 ^ 16 → ∃ t, exec (.flitReceive dt wire) s = .next t
            ∧ t.getF DLV_SEQ_RXSEQ = h.seq ∧ t.dlv.rx = s.dlv.rx ∧ t.getF (DLV_RXBUF_HELD c) = s.getF (DLV_RXBUF_HELD c)
            ∧ t.getF (DLV_RXBUF_OWED c) = s.getF (DLV_RXBUF_OWED c) + 1 ∧ counted CNT_CR_OVER 1 s t ∧ t.rd EVT_LAST = 2 ^ 30 + 0x0204
            ∧ PlainKept (DLV_STATUS :: DLV_SEQ :: DLV_RXBUF c :: PassingWords) s t))

/-- R57, R61, R74, R84, R86, R96, R148: what the flit time gives; R90: no flit reflects an arrival of its own tick, which the model holds by sending it one tick later (log entry 158). -/
def Obligations.FlitsAreSent : Prop :=
  (∀ s : State, s.clockRuns = true → s.dlv.heard = some s.now → exec (.transmitFlit 0) s = exec (.transmitFlit 1) s)
  ∧ ∀ (s : State) (dt : Nat), SendsMessages s →
    let ack := match s.dlv.acc with | some (t, b) => if t = s.now + dt then b else s.getF DLV_SEQ_RXSEQ | none => s.getF DLV_SEQ_RXSEQ
    let nak := s.dlv.nakDue && decide (s.dlv.nakAt < s.now + dt)
    (s.dlv.replay = none →
      (∀ cch n, s.dlv.tx = [] →
        ((cch = 15 ∧ n = 0 ∧ (s.getB DLV_STATUS_INITDONE = false ∨ ∀ c < 6, s.getF (DLV_RXBUF_OWED c) = 0))
          ∨ (cch < 6 ∧ s.getB DLV_STATUS_INITDONE = true ∧ n = s.getF (DLV_RXBUF_OWED cch) ∧ 0 < n ∧ n < 1024
              ∧ ∀ c < 6, c ≠ cch → s.getF (DLV_RXBUF_OWED c) = 0)) →
        ∃ t, exec (.transmitFlit dt) s = .next t
          ∧ t.out = sentFlit s ⟨s.getF DLV_SEQ_TXSEQ, ack, cch, n, 1, false, false, nak, 15⟩ [] :: s.out
          ∧ t.dlv.bank = s.dlv.bank ∧ t.rd DLV_SEQ = s.rd DLV_SEQ ∧ t.dlv.nakDue = (s.dlv.nakDue && !nak) ∧ (∀ c < 6, t.getF (DLV_RXBUF_OWED c) = 0 ∨ cch = 15)
          ∧ t.now = s.now + dt)
      ∧ ∀ (m : List Pip) (core : Bool), s.dlv.tx = [⟨m, core⟩] → 1 ≤ m.length → m.length ≤ 15 → (msgHead m).chan ≤ 5 →
          s.getB DLV_STATUS_INITDONE = false → s.dlv.bank.length < bankCap s.place → s.qualifies (msgHead m).chan = true →
        let c := (msgHead m).chan
        let q := (s.getF DLV_SEQ_TXSEQ + 1) % 2 ^ 16
        let h : Hdr := ⟨q, ack, 15, 0, 0, false, false, nak, 0⟩
        let slots := m ++ List.replicate (15 - m.length) nulPip
        ∃ t, exec (.transmitFlit dt) s = .next t ∧ t.out = sentFlit s h slots :: s.out
          ∧ t.dlv.bank = s.dlv.bank ++ [⟨BitVec.ofNat 64 h.bits, slots, listSet [0, 0, 0, 0, 0, 0] c m.length⟩]
          ∧ t.getF DLV_SEQ_TXSEQ = q ∧ t.window c = s.window c - m.length ∧ t.dlv.tx = [] ∧ t.dlv.cur = [])
    ∧ ∀ (q : BitVec 16) (e : BankEntry), s.dlv.replay = some q → s.dlv.fresh = false →
      s.dlv.bank[(q.toNat + 2 ^ 17 - (s.getF DLV_BANK_ACKED + 1)) % 2 ^ 16]? = some e →
      ∃ t, exec (.transmitFlit dt) s = .next t ∧ t.dlv.bank = s.dlv.bank ∧ counted CNT_REPLAY_FLITS 1 s t ∧ t.rd DLV_SEQ = s.rd DLV_SEQ
        ∧ t.out = sentFlit s { hdrOf e.hdr.toNat with kind := 3, ack := ack, nak := nak, beat := false } e.slots :: s.out

/-- R88, R89: the ack timer; R101, R104, R105: CREDIT-INIT and TALLY; R243: the rate buckets. -/
def Obligations.CreditsAreExchangedAndKept : Prop :=
  ∀ s : State, s.clockRuns = true →
    (s.linkRuns = true ∨ s.link = 6 → s.dlv.bank ≠ [] →
        s.dlv.noProgress ≠ max 1 (s.getF DLV_ACKTO_REPLAY_LIMIT) → ∃ t, exec .ackTimeout s = .next t ∧ counted CNT_ACK_TO 1 s t
          ∧ t.dlv = { s.dlv with
              replay := some (BitVec.ofNat 16 (s.getF DLV_BANK_ACKED + 1))
              fresh := true
              timer := true
              ackAt := t.now }
          ∧ t.now = max s.now (s.dlv.ackAt + max 1 (s.getF DLV_ACKTO_ACKTO)) ∧ PlainKept PassingWords s t)
    ∧ (s.linkRuns = true →
      (s.dlv.bank ≠ [] → s.dlv.noProgress = max 1 (s.getF DLV_ACKTO_REPLAY_LIMIT) → ∃ t, exec .ackTimeout s = .next t ∧ t.link = 6 ∧ t.lnk.cause = 1
          ∧ t.dlv.bank = s.dlv.bank)
      ∧ (s.dlv.exch = true → s.dlv.initAt + 32 ≤ s.dlv.flits → ∃ t, exec .creditInitRepeat s = .next t ∧ (∀ c < 6, t.getF (DLV_RXBUF_OWED c) = 0)
          ∧ t.dlv = { s.dlv with
              lc := s.dlv.lc ++ [⟨t.creditBody 0x41 (s.getB DLV_STATUS_CREDIT_OK), s.now⟩]
              initAt := s.dlv.flits }
          ∧ WordsKept ((List.range 6).map DLV_RXBUF) s t)
      ∧ (∀ m : CreditMsg, s.dlv.exch = true → s.getB DLV_STATUS_CREDIT_OK = false → m.got = true → m.room.length = 6 → s.dlv.bank = [] → s.dlv.cur = [] →
          s.guestEdge = false → ∃ t, exec (.creditInitReceive m) s = .next t ∧ (∀ c < 6, t.window c = (m.room.getD c 0).toNat)
          ∧ t.getB DLV_STATUS_CREDIT_OK = true ∧ t.getB DLV_STATUS_INITDONE = true ∧ t.getF DLV_STATUS_RXEPOCH = m.epoch.toNat
          ∧ t.dlv.exch = false ∧ t.dlv.loopOn = true)
      ∧ (s.tallies = true → 4096 ≤ s.dlv.tally → exec .tallySend s = .next { s with
          dlv := { s.dlv with
            tally := 0
            lc := s.dlv.lc ++ [⟨s.creditBody 0x42 false, s.now⟩] } })
      ∧ ∀ m : CreditMsg,
        (m.epoch.toNat ≠ s.getF DLV_STATUS_RXEPOCH ∨ s.getF DLV_SEQ_RXSEQ ≠ m.rseq.toNat → ∃ t, exec (.tallyReceive m) s = .next t
          ∧ counted CNT_TALLY_SKIP 1 s t ∧ OnlyRegs [CNT_TALLY_SKIP.off] s.hear t)
        ∧ (m.epoch.toNat = s.getF DLV_STATUS_RXEPOCH → s.getB DLV_STATUS_CREDIT_OK = true → s.getF DLV_SEQ_RXSEQ = m.rseq.toNat →
          let w (c : Nat) : Int := (m.room.getD c 0).toNat - (m.owed.getD c 0).toNat - (s.inFlight c m.aseq.toNat : Int)
          (∀ c < 6, 0 ≤ w c ∧ w c ≤ s.getF (DLV_PCAP_PCAP c)) → ∃ t, exec (.tallyReceive m) s = .next t ∧ (∀ c < 6, (t.window c : Int) = w c)
            ∧ counted CNT_TALLY_FIX ((List.range 6).countP (fun c => decide ((s.window c : Int) ≠ w c))) s t ∧ t.dlv = s.hear.dlv
            ∧ PlainKept ([DLV_WATCH, DLV_TALLY] ++ (List.range 6).map DLV_WIN) s t))
    ∧ ∀ c : Fin 6, s.guestEdge = true → s.getF (FW_RATE_RATE c) ≠ 0 → s.dlv.buckets.length = 6 → s.dlv.bucketAt.length = 6 →
        let r := s.getF (FW_RATE_RATE c)
        let q := s.dlv.bucketAt.getD c (0, 0)
        ∃ t, exec (.rateBucketRefill c) s = .next t ∧ t.now = max s.now (q.1 + (1024 - q.2 + r - 1) / r)
          ∧ (let n := q.2 + r * (t.now - q.1)
             t.dlv.buckets.getD c 0 = min (if s.getF (FW_RATE_BURST c) = 0 then r else s.getF (FW_RATE_BURST c)) (s.dlv.buckets.getD c 0 + n / 1024)
             ∧ t.dlv.bucketAt.getD c (0, 0) = (t.now, n % 1024))
          ∧ (∀ k : Nat, k ≠ c → t.dlv.buckets.getD k 0 = s.dlv.buckets.getD k 0 ∧ t.dlv.bucketAt.getD k (0, 0) = s.dlv.bucketAt.getD k (0, 0))
          ∧ t.dlv = { s.dlv with
              buckets := t.dlv.buckets
              bucketAt := t.dlv.bucketAt }
          ∧ PlainKept PassingWords s t

/-- R92: probes, echoes, and the end of the loop measurement. That an echo is taken for the oldest probe of its number is the model's reading (log entry 74). -/
def Obligations.LoopIsMeasured : Prop :=
  ∀ s : State, s.clockRuns = true → s.linkRuns = true →
    (s.dlv.loopOn = true → s.dlv.probeSent < 1024 → (∀ m ∈ s.dlv.lc, byteAt m.body 0 ≠ 0x29 ∨ byteAt m.body 1 ≠ 0) →
      s.dlv.probeSent = 0 ∨ s.dlv.probeFlit + 8 ≤ s.dlv.flits →
      exec .loopProbeSend s = .next { s with dlv := { s.dlv with lc := s.dlv.lc ++ [⟨probeBody false (s.dlv.probeSent % 256) 0, s.now⟩] } })
    ∧ (∀ (dt : Nat) (m : LcOut) (r : List LcOut), s.run = false → s.lnk.gap = false → s.trn.void = false → s.dlv.idleOnly = false → s.dlv.urgent = [] →
        s.dlv.replay = none → s.isl.wait = [] → s.xOpen 1 = true → (∀ h, s.dlv.heard = some h → h < s.now) → s.dlv.lc = m :: r → byteAt m.body 0 = 0x29 → byteAt m.body 1 = 0 →
        ∃ t, exec (.transmitFlit dt) s = .next t ∧ t.dlv.lc = r ∧ t.dlv.probeSent = s.dlv.probeSent + 1 ∧ t.dlv.probeAt = s.now + dt
          ∧ t.dlv.probes = s.dlv.probes ++ [(byteAt m.body 2, s.now + dt)])
    ∧ (∀ id : Byte, exec (.loopProbeReceive id) s = .next { s with dlv := { s.dlv with lc := s.dlv.lc ++ [⟨probeBody true id.toNat 0, s.now⟩], heard := some s.now } })
    ∧ (∀ (id : Byte) (turn : BitVec 16) (at_ : Nat), s.dlv.loopOn = true → s.dlv.probes.find? (fun p => p.1 == id.toNat) = some (id.toNat, at_) →
        s.dlv.echoes ≠ 127 →
        let m := min (2 ^ 20 - 1) (s.now + 4 - at_ - turn.toNat)
        ∃ t, exec (.loopEchoReceive id turn) s = .next t ∧ t.getF DLV_LOOP_LOOP = (if s.dlv.echoes = 0 then m else max m (s.getF DLV_LOOP_LOOP))
          ∧ t.dlv = { s.dlv with
              probes := (s.dlv.probes.dropWhile (fun q => q.1 != id.toNat)).drop 1
              echoes := s.dlv.echoes + 1
              heard := some s.now }
          ∧ t = { s with regs := t.regs, dlv := t.dlv } ∧ WordsKept [DLV_LOOP] s t)
    ∧ (s.dlv.loopOn = true → s.dlv.probeSent = 1024 → s.dlv.echoes ≠ 0 → ∃ t, exec .loopExchangeTimeout s = .next t
        ∧ t.now = max s.now (s.dlv.probeAt + 2 ^ 20) ∧ t.getB DLV_LOOP_VALID = true
        ∧ t.dlv.loopOn = false ∧ t.getF DLV_LOOP_LOOP = s.getF DLV_LOOP_LOOP)

/-- R76, R77, R96, R153: messages and stream flits leave for the core side and their ports; R252, R265: the core side's messages on their way in. Where they wait, and that the link's own queue has no bound, are the model's choices (log entry 150). -/
def Obligations.MessagesAndStreamsAreDelivered : Prop :=
  (∀ (s : State) (m : List Pip), m ≠ [] → (msgHead m).chan ≤ 5 → s.isl.wait = [] → s.link ≠ 7 → s.xOpen 2 = false →
    exec (.coreMessageOffer m) s = .next { s with isl := { s.isl with wait := [(2, .message m)] } })
  ∧ ∀ s : State, ClocksRun s →
    (∀ m : List Pip, m ≠ [] → (msgHead m).chan ≤ 5 → s.isl.wait = [] →
      (s.link = 7 → exec (.coreMessageOffer m) s = .next { s with isl := { s.isl with wait := [(7, .message m)] } })
      ∧ (s.link ≠ 7 → s.guestEdge = false → exec (.coreMessageOffer m) s = .next { s with dlv := { s.dlv with tx := s.dlv.tx ++ [⟨m, true⟩] } })
      ∧ (s.link ≠ 7 → s.guestEdge = true → (msgHead m).chan = 4 → s.getB FW_CTRL_DBG_UNLOCK = false → (∀ x ∈ s.dlv.tx, (msgHead x.m).chan ≠ 4) →
        ∃ t, exec (.coreMessageOffer m) s = .next t ∧ t.dlv = { s.dlv with quiet := listSet s.dlv.quiet 4 s.now } ∧ counted CNT_FW_QDROP 1 s t ∧ WordsKept (cntWords CNT_FW_QDROP) s t))
    ∧ (∀ (c : Fin 6) (x : RxMsg), s.rxFirst c = some x → isFence x.m = false →
      (carriesOw x.m = false ∨ (owPod (msgOw x.m) = s.pod_ ∧ s.staleOw (msgOw x.m) = false) → s.ownAnswer x.m = false → (msgHead x.m).chan ≠ 5 →
        ∃ t, exec (.messageDelivery c) s = .next t ∧ t.out = .core x.m :: s.out ∧ t.now = max s.now (x.at_ + 2)
          ∧ t.dlv = { s.dlv with rx := s.dlv.rx.filter (fun y => y.order != x.order) }
          ∧ t.getF (DLV_RXBUF_HELD c) = s.getF (DLV_RXBUF_HELD c) - x.m.length
          ∧ t.getF (DLV_RXBUF_OWED c) = (if s.link = 7 ∨ s.link = 8 then s.getF (DLV_RXBUF_OWED c) else (s.getF (DLV_RXBUF_OWED c) + x.m.length) % 2 ^ 16) ∧ PlainKept (DLV_RXBUF c :: PassingWords) s t)
      ∧ (carriesOw x.m = true → owPod (msgOw x.m) = s.pod_ → s.staleOw (msgOw x.m) = true →
        ∃ t, exec (.messageDelivery c) s = .next t ∧ t.out = s.out ∧ counted CNT_VI_STALE 1 s t
          ∧ t.dlv = { s.dlv with rx := s.dlv.rx.filter (fun y => y.order != x.order) }
          ∧ t.getF (DLV_RXBUF_OWED c) = (if s.link = 7 ∨ s.link = 8 then s.getF (DLV_RXBUF_OWED c) else (s.getF (DLV_RXBUF_OWED c) + x.m.length) % 2 ^ 16) ∧ PlainKept (DLV_RXBUF c :: PassingWords) s t))
    ∧ (∀ x : RxMsg, s.rxFirst 0 = some x → isFence x.m = true →
      (s.fenceFree x = true → owPod (msgOw x.m) = s.pod_ → s.staleOw (msgOw x.m) = false →
        ∃ t, exec .fenceDelivery s = .next t ∧ t.out = .core x.m :: s.out ∧ t.now = max s.now (x.at_ + 2)
          ∧ t.dlv = { s.dlv with rx := s.dlv.rx.filter (fun y => y.order != x.order) } ∧ PlainKept (DLV_RXBUF 0 :: PassingWords) s t)
      ∧ (s.fenceFree x = false → exec .fenceDelivery s = .next s))
    ∧ (s.trn.void = false →
      (∀ (e : SbEntry) (r : List SbEntry) (d : Nat), s.trn.sbuf = e :: r → s.dueOf e.round e.off = some d → s.tick ≤ d → d < 2 ^ 64 → s.guestEdge = false →
          s.oldPosition e.stream e.round = false → s.portKind e.stream = 3 → s.portOk e.stream true = true →
        ∃ t, exec .streamDueTick s = .next t ∧ t.tick = d ∧ t.trn = { s.trn with
              sbuf := r
              released := s.trn.released + 1 }
          ∧ t.out = .relayStream (s.descPort e.stream % 128) (bitsOf (s.descPort e.stream) 16 10) e.data :: .stream e.stream false e.data :: s.out)
      ∧ ∀ (d n : Nat) (p : Pos), s.trn.sbuf = [] → s.nextDue = some (d, none, n, p) → s.tick ≤ d → d < 2 ^ 64 →
        ∃ t, exec .streamDueTick s = .next t ∧ t.tick = d ∧ counted CNT_LATE 1 s t ∧ t.trn.judged = s.trn.judged + 1 ∧ t.out = s.out)

/-- R32, R110: SB frames and training blocks carry the messages of R111. That a frame of type 0x03 has no effect is the model's choice (log entry 58), and so is what one more copy of a block does (log entry 140). -/
def Obligations.TrainingMessagesAreCarried : Prop :=
  ∀ (s : State) (seen off : BitVec 24),
    (s.sbUp = true →
      (∀ (tcode x : Byte) (b : List Byte) (c : Instr), b.length ≤ 1022 → TrainingRow tcode.toNat b seen off c →
        let body := beBytes 1 1 ++ beBytes 2 (b.length + 2) ++ [tcode, x] ++ b
        ∃ t, exec (.sbFrameReceive false (body ++ beBytes 2 (crc16 body)) true seen off) s = .next t ∧ exec c s = .next t)
      ∧ (∀ (b : List Byte), b.length ≤ 1024 →
        let body := beBytes 1 3 ++ beBytes 2 b.length ++ b
        exec (.sbFrameReceive false (body ++ beBytes 2 (crc16 body)) true seen off) s = .next s)
      ∧ ∀ (err ends : Bool) (body : List Byte), (err = true ∨ ends = false ∨ (5 ≤ body.length ∧ crc16 (body.take (body.length - 2)) ≠ bytesAt body (body.length - 2) 2)) →
        ∃ t, exec (.sbFrameReceive err body ends seen off) s = .next t ∧ counted CNT_SB_BAD 1 s t ∧ OnlyRegs [CNT_SB_BAD.off] s t)
    ∧ (s.far = true →
      (∀ (tcode x : Byte) (n : BitVec 16) (b : List Byte) (c : Instr), b.length = 52 → n.toNat ≤ 52 → TrainingRow tcode.toNat (b.take n.toNat) seen off c →
        let m := [tcode, x] ++ beBytes 2 n.toNat ++ b
        let k := [tcode] ++ beBytes 2 n.toNat ++ b
        let block := BitVec.ofNat 512 (ofBytes (beBytes 4 0xBC4ABC4A ++ m ++ beBytes 2 (crc16 m) ++ [0, 0]))
        ((∀ l, s.lnk.copy = some (k, l) → x.toNat ∈ l) →
          ∃ t, exec (.trainingBlockReceive block seen off) s = .next t ∧ exec c { s with lnk := { s.lnk with copy := some (k, [x.toNat]) } } = .next t)
        ∧ (∀ l, s.lnk.copy = some (k, l) → x.toNat ∉ l →
          exec (.trainingBlockReceive block seen off) s = .next { s with lnk := { s.lnk with copy := some (k, x.toNat :: l) } }))
      ∧ ∀ block : BitVec 512, crc16 (((beBytes 64 block.toNat).drop 4).take 56) ≠ bytesAt (beBytes 64 block.toNat) 60 2 →
        ∃ t, exec (.trainingBlockReceive block seen off) s = .next t ∧ counted CNT_SB_BAD 1 s t ∧ OnlyRegs [CNT_SB_BAD.off] s t)

/-- R114–R116: tuning, search and qualification of lanes; R129: the lane check of a Retrain. -/
def Obligations.LanesAreEqualised : Prop :=
  ∀ s : State,
    (s.link = 2 →
      (∀ m : EqMsg, s.lanes.contains m.lane.toNat = true →
        let l := m.lane.toNat
        let v := m.vals
        let ok := eqAllowed v.swing.toNat v.pre2.toNat v.pre1.toNat v.post1.toNat
        (ok = true → s.laneState l ≠ 3 → s.age.sweep = none → ∃ t, exec (.eqSetMessage m) s = .next t
          ∧ eqOfWord (t.rd (LANE_TXEQ l)) = (v.swing.toNat, v.pre2.toNat, v.pre1.toNat, v.post1.toNat)
          ∧ t.out = t.trainOut 3 (eqBody m.reqid.toNat l m.mode.toNat v.swing.toNat v.pre2.toNat v.pre1.toNat v.post1.toNat) :: s.out
          ∧ WordsKept [LANE_TXEQ l] s t)
        ∧ (ok = false → let e := eqOfWord (s.rd (LANE_TXEQ l))
          exec (.eqSetMessage m) s = .next { s with out := s.trainOut 3 (eqBody m.reqid.toNat l m.mode.toNat e.1 e.2.1 e.2.2.1 e.2.2.2) :: s.out }))
      ∧ (∀ m : EqMsg, (∃ x ∈ s.lnk.msgs, x.tcode = 2 ∧ x.body.take 2 = [m.reqid, m.lane]) → ∃ t, exec (.eqDoneMessage m) s = .next t
          ∧ t.askedOf m.lane.toNat = eqWord m.vals.swing.toNat m.vals.pre2.toNat m.vals.pre1.toNat m.vals.post1.toNat
          ∧ t.lnk.msgs = s.lnk.msgs.filter (fun x => !(x.tcode == 2 && x.body.take 2 == [m.reqid, m.lane])) ∧ t.regs = s.regs)
      ∧ (∀ (mode : Byte) (pass : BitVec 24), mode.toNat = s.lnk.eqMode → s.lnk.peerPass = none →
        (s.lnk.passSent = false → exec (.eqResultMessage mode pass) s = .next { s with
          lnk := { s.lnk with
            msgs := s.lnk.msgs.filter (fun x => !(x.tcode == 4))
            peerPass := some pass.toNat } })
        ∧ (s.lnk.passSent = true → s.getB START_CTRL_MFGDONE = true → s.stage = 5 → s.starting = true →
            widestFor s.place (s.nOf (s.lnk.ownPass &&& pass.toNat)) = fullWidth s.place →
            (∀ p ∈ s.lnk.tried, widestFor s.place (s.nOf p.2) * modeRate p.1 < fullWidth s.place * modeRate s.lnk.eqMode) → ∃ t, exec (.eqResultMessage mode pass) s = .next t
          ∧ t.link = 3 ∧ t.stage = 6 ∧ t.getF LINK_STATUS_MODE = s.lnk.eqMode % 4 ∧ t.lnk.usable = s.lnk.ownPass &&& pass.toNat))
      ∧ (∀ (l : Fin 18) (snr : BitVec 16) (q : Search) (w : Nat) (r : List Nat), s.searchOf l = some q → q.swing = false → q.left = w :: r →
          ∃ t, exec (.eqSearchPoint l snr) s = .next t ∧ t.getF (LANE_SNR_SNR l) = snr.toNat ∧ t.getB (LANE_SNR_VALID l) = true
            ∧ t.searchOf l = some { q with
                cur := w
                left := r
                best := if q.seen = false ∨ q.bestSnr < snr.toNat then q.cur else q.best
                bestSnr := if q.seen = false ∨ q.bestSnr < snr.toNat then snr.toNat else q.bestSnr
                seen := true }
            ∧ WordsKept [LANE_SNR l] s t)
      ∧ ∀ (errs : List Nat) (inv : BitVec 24), s.lnk.passSent = false → s.getB START_CTRL_MFGDONE = true → s.lnk.peerPass = none →
          let mask := s.passMask errs 134 &&& maskOf s.forward
          ∃ t, exec (.eqQualifyEnd errs inv) s = .next t ∧ t.lnk.ownPass = mask ∧ t.lnk.passSent = true ∧ t.link = 2
            ∧ t.out = t.trainOut 4 (beBytes 1 s.lnk.eqMode ++ mask3 mask) :: s.out ∧ ∀ l ∈ s.lanes, t.getB (LANE_STATUS_POLINV l) = bitOf inv.toNat l)
    ∧ ∀ errs : List Nat, s.link = 6 → s.lnk.passSent = false → s.lnk.peerPass = none →
        let mask := s.passMask errs 1 &&& maskOf s.usableLanes
        ∃ t, exec (.retrainLaneCheckEnd errs) s = .next t ∧ t.lnk.ownPass = mask ∧ t.lnk.passSent = true ∧ t.link = 6
          ∧ t.out = t.trainOut 4 (beBytes 1 (s.getF LINK_STATUS_MODE) ++ mask3 mask) :: s.out
          ∧ ∀ l ∈ s.usableLanes, bitOf mask l = false → bitOf t.excl l = true ∧ 2 ≤ t.getF (AGE_LANE_STAT_VERDICT l)

/-- R112, R113, R117, R118, R122: from Detect to Up. How the exclusions of READY join is the model's reading (log entry 47), and so is that START_MARKER_RECEIVE also sends the own marker and enters Up (log entry 48); the lanes that DETECT shows at a repeat are a free value (log entry 154). -/
def Obligations.LinksAreNegotiated : Prop :=
  ∀ s : State,
    (∀ (m : DetectMsg) (seen off : BitVec 24), s.link = 1 → s.starting = true → s.getB LINK_STATUS_EMPTY = false → s.guestEdge = false →
      m.seen.toNat ≠ 0 ∨ s.lnk.peerSeen = 0 →
      let v := seen.toNat &&& maskOf s.lanes
      let n := if (s.lnk.seen, s.lnk.peerSeen) = (v, m.seen.toNat) then s.lnk.stable + 1 else 1
      n < 4 → ∃ t, exec (.detectMessage m seen off) s = .next t ∧ t.link = 1 ∧ t.lnk.seen = v ∧ t.lnk.peerSeen = m.seen.toNat
        ∧ t.lnk.peerModes = m.modes.toNat ∧ t.lnk.exchanged = true ∧ t.lnk.stable = n ∧ t.out = t.trainOut 1 t.detectBody :: s.out)
    ∧ (s.link = 3 → s.far = false →
      (∀ rec : BitVec 192, s.guestEdge = false → s.lnk.held18 = false → (∃ x ∈ s.lnk.msgs, x.tcode = 5) →
        let r := beBytes 24 rec.toNat
        let own := (List.range 24).map (fun i => BitVec.ofNat 8 (s.capByte 0x440 i))
        (r.getD 0 0).toNat = 2 → (r.getD 1 0).toNat ≠ 0 → bitOf ((usedCap own r).getD 9 0).toNat s.lnk.eqMode = true →
        ∃ t, exec (.capMessage rec) s = .next t ∧ t.link = 3 ∧ t.out = t.trainOut 6 [] :: s.out
          ∧ (∀ i < 24, t.capByte 0x480 i = (r.getD i 0).toNat) ∧ (∀ i < 24, t.used i = ((usedCap own r).getD i 0).toNat)
          ∧ t.getB LINK_STATUS_INITIATOR = (match peerIndex s.place with | some p => decide (s.place < p) | none => true))
      ∧ (s.capByte 0x480 0 = 0 → exec .capGotMessage s = .next { s with lnk := { s.lnk with msgs := s.lnk.msgs.filter (fun x => !(x.tcode == 5)) } })
      ∧ ∀ m : ReadyMsg, s.capByte 0x480 0 = 0 → s.lnk.ownReady = none → ∃ t, exec (.readyMessage m) s = .next t ∧ t.lnk.peerReady = some m
          ∧ t.excl = (s.excl ||| m.excl.toNat) % 2 ^ 18 ∧ t.link = 3 ∧ WordsKept [LINK_EXCL, LINK_STATUS] s t)
    ∧ (∀ (c : Instr) (r : ReadyMsg), c = .startMarkerSend ∨ c = .startMarkerReceive → s.link = 3 → s.lnk.ownReady = some r → s.lnk.peerReady = some r →
        s.far = false → s.lnk.held18 = false → s.getB AGE_STATUS_ACTIVE = false → s.lme.runs = [] → s.clockRuns = true →
        (∀ l ∈ mapOf r.map, s.getF (AGE_LANE_STAT_VERDICT (l % 32)) < 2 ∧ bitOf s.excl (l % 32) = false) → s.tick + 64 < 2 ^ 64 →
        ∃ t, exec c s = .next t ∧ t.link = 4 ∧ t.getF LINK_STATUS_MODE = r.mode.toNat % 4 ∧ t.out = .marker (mapOf r.map) markerBytes :: s.out ∧ t.tick % 64 = 0
          ∧ (∀ p < 16, t.getF (LINK_MAP_POS p) = (mapOf r.map).getD p 31 % 32) ∧ t.dlv.exch = true ∧ t.getB DLV_STATUS_INITDONE = false
          ∧ t.dlv.lc.length = 1 ∧ t.lnk.gTx = 0 ∧ t.lnk.gRx = 0)
    ∧ ((∀ m ∈ s.lnk.msgs, m.tcode = 1 ∨ m.sends < 64) →
        let body (t : State) (m : TrainMsg) : List Byte := if m.tcode = 1 then t.detectBody else m.body
        (s.link ≠ 1 ∨ s.detected = true → exec .trainingRepeat s = .next { s with
          out := (s.lnk.msgs.map (fun m => s.trainOut m.tcode (body s m))).reverse ++ s.out
          lnk := { s.lnk with msgs := s.lnk.msgs.map (fun m => { m with
            body := body s m
            sends := m.sends + 1
            at_ := s.now }) } })
        ∧ (s.link = 1 → s.detected = false → ∃ t, exec .trainingRepeat s = .next t ∧ t.lnk.seen &&& maskOf s.lanes = t.lnk.seen
          ∧ t.lnk.stable = (if t.lnk.seen = s.lnk.seen then s.lnk.stable else 0)
          ∧ t.out = (s.lnk.msgs.map (fun m => t.trainOut m.tcode (body t m))).reverse ++ s.out))
    ∧ (s.link = 3 → s.lnk.held18 = true → ∃ t, exec .miscableCapResend s = .next t ∧ t.out = s.trainOut 5 s.ownCap :: s.out ∧ t.link = 3
        ∧ (∀ i < 24, t.capByte 0x440 i = (s.ownCap.getD i 0).toNat))

/-- R125–R127: a Shift is proposed, answered, and switches in each direction at its own group. -/
def Obligations.ShiftsAreAgreedAndSwitch : Prop :=
  ∀ s : State,
    (∀ m : ShiftMsg, s.link = 4 → s.lnk.commit = none → s.lnk.shiftOwn = none →
      (s.shiftRefused m = true → ∃ t, exec (.shiftReqReceive m) s = .next t ∧ t.regs = s.regs ∧ t.lnk.commit = none
        ∧ t.dlv = { s.hear.dlv with lc := s.dlv.lc ++ [⟨shiftBody 0x22 { m with status := 2 }, s.now⟩] })
      ∧ ∀ g, s.shiftRefused m = false → s.shiftEffg m.reason.toNat = some g → ∃ t, exec (.shiftReqReceive m) s = .next t ∧ t.link = 5
          ∧ t.getF LINK_SHIFT_SHIFTID = m.id.toNat ∧ t.getF LINK_SHIFT_REASON = m.reason.toNat ∧ t.getF LINK_SHIFT_PHASE = 2
          ∧ t.getB LINK_SHIFT_MERGED = false ∧ t.rd LINK_EFFG = g % 2 ^ 32 ∧ t.rd LINK_PEER_EFFG = m.effg.toNat
          ∧ t.lnk.commit = some { m with effg := BitVec.ofNat 32 g } ∧ t.mapList = s.mapList
          ∧ t.lnk.effgDue = true ∧ t.dlv = { s.hear.dlv with lc := s.dlv.lc ++ [⟨shiftBody 0x22 { m with
              effg := BitVec.ofNat 32 g
              status := 0 }, s.now⟩] })
    ∧ (∀ m own : ShiftMsg, s.link = 4 → s.lnk.commit = none → s.lnk.shiftOwn = some own → own.id = m.id →
      (m.status = 0 → ∃ t, exec (.shiftAckReceive m) s = .next t ∧ t.link = 5 ∧ t.getF LINK_SHIFT_PHASE = 2 ∧ t.lnk.commit = some own
          ∧ t.lnk.shiftOwn = none ∧ t.rd LINK_PEER_EFFG = m.effg.toNat)
      ∧ (m.status = 1 → own.reason = 1 ∨ own.reason = 3 ∨ (s.awaiting = [] ∧ s.lnk.keep = none) → ∃ t, exec (.shiftAckReceive m) s = .next t ∧ t.link = 4 ∧ t.getF LINK_SHIFT_PHASE = 0 ∧ t.lnk.commit = none ∧ t.lnk.shiftOwn = none)
      ∧ (m.status = 2 → own.reason = 1 ∨ own.reason = 3 → ∃ t, exec (.shiftAckReceive m) s = .next t ∧ t.link = 6 ∧ t.lnk.cause = 7))
    ∧ (∀ own : ShiftMsg, s.lnk.shiftOwn = some own →
      exec .shiftReqRepeat s = .next { s with
        dlv := { s.dlv with lc := s.dlv.lc ++ [⟨shiftBody 0x21 own, s.now⟩] }
        lnk := { s.lnk with shiftSends := s.lnk.shiftSends + 1 } }
      ∧ (s.link = 4 → s.lnk.commit = none → s.lnk.effgDue = false → own.effg.toNat = s.lnk.gTx % 2 ^ 32 → s.lnk.fTx = 0 → ∃ t, exec .shiftTxSwitch s = .next t ∧ counted CNT_SHIFT_LOST 1 s t ∧ t.link = 6 ∧ t.lnk.cause = 7))
    ∧ (∀ c : ShiftMsg, s.link = 5 → s.lnk.commit = some c →
      (s.getF LINK_SHIFT_PHASE = 2 → s.lnk.effgDue = false → c.effg.toNat = s.lnk.gTx % 2 ^ 32 → s.lnk.fTx = 0 → s.lnk.shiftWait ≠ none → ∃ t, exec .shiftTxSwitch s = .next t
          ∧ counted CNT_SHIFT_LOST 1 s t ∧ t.link = 6 ∧ t.lnk.cause = 7)
      ∧ (s.getF LINK_SHIFT_PHASE = 2 → s.lnk.effgDue = false → c.effg.toNat = s.lnk.gTx % 2 ^ 32 → s.lnk.fTx = 0 → s.lnk.shiftWait = none → s.lnk.rxDone = false → ∃ t, exec .shiftTxSwitch s = .next t ∧ t.link = 5
          ∧ t.getF LINK_SHIFT_PHASE = 3 ∧ t.getF LINK_STATUS_MODE = c.mode.toNat % 4 ∧ t.getF LINK_STATUS_WIDTH = (mapOf c.map).length % 32
          ∧ (∀ p < 16, t.getF (LINK_MAP_POS p) = (mapOf c.map).getD p 31 % 32) ∧ t.lnk.gap = decide (s.getF LINK_STATUS_MODE < c.mode.toNat) ∧ t.lnk.commit = some c)
      ∧ (s.lnk.rxDone = false → s.getF LINK_PEER_EFFG_EFFG = s.lnk.gRx % 2 ^ 32 → s.lnk.fRx = 0 →
          (s.getF LINK_SHIFT_PHASE = 2 → ∃ t, exec .shiftRxSwitch s = .next t ∧ t.link = 5 ∧ t.lnk.rxDone = true ∧ t.lnk.rxMap = mapOf c.map
            ∧ t.lnk.rxMode = c.mode.toNat ∧ t.lnk.commit = some c ∧ t.mapList = s.mapList)
          ∧ (s.getF LINK_SHIFT_PHASE = 3 → s.lnk.repair = none → s.lnk.keep = none →
              (∀ l ∈ s.mapList, bitOf (s.excl ||| c.excl.toNat) l = false ∧ s.getF (AGE_LANE_STAT_VERDICT l) < 2) →
            ∃ t, exec .shiftRxSwitch s = .next t ∧ t.link = 4 ∧ t.getF LINK_SHIFT_PHASE = 0 ∧ t.lnk.commit = none ∧ t.lnk.rxMap = mapOf c.map
              ∧ t.excl = (s.excl ||| c.excl.toNat) % 2 ^ 18 ∧ t.mapList = s.mapList ∧ counted CNT_SHIFT 1 s t)))
    ∧ (s.lnk.gap = true → s.clockRuns = true → ∃ t, exec .rateLowerGapEnd s = .next t ∧ t.now = max s.now (s.lnk.gapAt + 3072)
        ∧ t.lnk = { s.lnk with gap := false } ∧ t.out = .marker s.mapList markerBytes :: s.out ∧ PlainKept PassingWords s t)

/-- R133, R135: LANE-EQ and what each of its operations does. That QUAL and FAIL carry REQID 0 is the model's choice (log entry 131), and so is when a REQID counts as used (log entry 155). -/
def Obligations.LaneEqIsAnswered : Prop :=
  ∀ (s : State) (l : Fin 18) (rq : Byte), s.link = 4 ∨ s.link = 5 →
    let r := rq.toNat
    (s.laneFree l = true → s.mapList.contains l.val = false →
      (s.ownReq r l = false → s.isAnswer r l 0 = false → s.firstReq r l 0 = true → ∃ t, exec (.laneEqPrep rq l) s = .next t ∧ t.laneState l = 2 ∧ t.link = s.link
        ∧ ∃ rest, t.dlv.lc = s.dlv.lc ++ ⟨laneEqBody r l 0 noVals, s.now⟩ :: rest)
      ∧ (s.ownReq r l = false → s.isAnswer r l 0 = false → s.firstReq r l 0 = false →
        exec (.laneEqPrep rq l) s = .next { s with dlv := { s.hear.dlv with lc := s.dlv.lc ++ [⟨laneEqBody r l 0 noVals, s.now⟩] } })
      ∧ (s.ownReq r l = false → s.isAnswer r l 5 = false → s.firstReq r l 5 = true → s.age.sweep = none → s.lnk.repair = none → ∃ t, exec (.laneEqMeasure rq l) s = .next t ∧ t.laneState l = 4
        ∧ t.age.sweep = some ⟨l, 0, false, false, 0⟩ ∧ t.lnk.repair = some ⟨false, l, l, false, false, 2, []⟩
        ∧ t.dlv.lc = s.dlv.lc ++ [⟨laneEqBody r l 5 noVals, s.now⟩])
      ∧ (s.ownReq r l = false → s.isAnswer r l 6 = false → s.firstReq r l 6 = true → s.getF (AGE_LANE_STAT_VERDICT l) ≠ 3 → ∃ t, exec (.laneEqRelease rq l) s = .next t
        ∧ t.laneState l = 1 ∧ t.dlv.lc = s.dlv.lc ++ [⟨laneEqBody r l 6 noVals, s.now⟩]))
    ∧ (∀ v : EqVals, s.laneFree l = true → eqAllowed v.swing.toNat v.pre2.toNat v.pre1.toNat v.post1.toNat = true → s.firstReq r l 1 = true →
        s.laneState l ≠ 3 → s.age.sweep = none → ∃ t, exec (.laneEqSet rq l v) s = .next t
        ∧ eqOfWord (t.rd (LANE_TXEQ l)) = (v.swing.toNat, v.pre2.toNat, v.pre1.toNat, v.post1.toNat)
        ∧ t.dlv.lc = s.dlv.lc ++ [⟨laneEqBody r l 2 v, s.now⟩] ∧ WordsKept [LANE_TXEQ l] s t)
    ∧ (∀ v : EqVals,
      (s.isAnswer r l 2 = true → ∃ t, exec (.laneEqSetDone rq l v) s = .next t ∧ t.regs = s.regs ∧ t.dlv = s.hear.dlv
        ∧ t.askedOf l = eqWord v.swing.toNat v.pre2.toNat v.pre1.toNat v.post1.toNat)
      ∧ (s.isAnswer r l 2 = false → exec (.laneEqSetDone rq l v) s = .next s.hear))
    ∧ (∀ p : Repair, s.lnk.repair = some p → p.ownQual = false →
        exec (.laneEqQual l) s = .next { s.hear with lnk := { s.lnk with repair := some (p.mark l false) } })
    ∧ (s.lnk.repair = none → s.laneState l = 2 → s.lanes.contains l.val = true → ∃ t, exec (.laneEqFail l) s = .next t ∧ t.laneState l = 1
        ∧ t.excl = (s.excl ||| 2 ^ l.val) % 2 ^ 18)
    ∧ ((∀ e ∈ s.lnk.eqs, e.sends < 64) → exec .laneEqRepeat s = .next { s with
        lnk := { s.lnk with eqs := s.lnk.eqs.map (fun e => { e with sends := e.sends + 1 }) }
        dlv := { s.dlv with lc := s.dlv.lc ++ s.lnk.eqs.map (fun e => ⟨laneEqBody e.reqid e.lane e.op e.vals, s.now⟩) } })
    ∧ ∀ errs : Nat, s.laneState l = 2 → s.lanes.contains l.val = true → s.lnk.repair = none → s.searchOf l = none → ∃ t, exec (.spareQualifyEnd l errs) s = .next t
        ∧ t.dlv.lc = s.dlv.lc ++ [⟨laneEqBody 0 l (if errs ≤ 16 then 3 else 4) noVals, s.now⟩] ∧ t.laneState l = (if errs ≤ 16 then 2 else 1)
        ∧ (16 < errs → bitOf t.excl l = true)

/-- R272, R273: epochs; R287: checkpoints. That a responder without Castling measures its own Active lanes in QUI windows is the model's reading (log entry 121); PassingWords change by log entry 37. -/
def Obligations.EpochsAndCheckpoints : Prop :=
  let begins (s t : State) (own passing : List Nat) : Prop :=
    s.epochMay = true → s.getB AGE_STATUS_ACTIVE = false → s.lnk.repair = none → s.age.sweep = none →
      (s.getB LINK_STATUS_INITIATOR = true → ∀ l r, s.epochOrder = l :: r → s.mapList.contains l = false →
        t.getB AGE_STATUS_ACTIVE = true ∧ t.laneState l = 4 ∧ t.age.sweep = some ⟨l, 0, false, false, 0⟩ ∧ t.age.order = l :: r
          ∧ t.lnk.repair = some ⟨false, l, l, false, false, 2, []⟩ ∧ ∃ n, t.lnk.eqs = s.lnk.eqs ++ [⟨n, l, 5, noVals, 1⟩])
      ∧ ∀ l, s.getB LINK_STATUS_INITIATOR = false → s.castleOk = false → l ∈ s.lanes → l ∈ s.mapList → s.getF (AGE_LANE_STAT_VERDICT l) ≠ 3 →
        ∃ w, t.getB AGE_STATUS_ACTIVE = true ∧ t.age.sweep = some w ∧ w.lane ∈ s.mapList ∧ s.getF (AGE_LANE_STAT_VERDICT w.lane) ≠ 3
          ∧ w.quiMeasured = true ∧ PlainKept (own ++ [AGE_STATUS] ++ passing) s t
  ∀ s : State,
    (s.clockRuns = true → s.getW AGE_NEXT ≠ 0 ∨ s.inService = true →
      ∃ t, exec .epochDue s = .next t ∧ t.tick = max s.tick (s.getW AGE_NEXT)
        ∧ t.getW AGE_NEXT = (s.getW AGE_NEXT + max 1 (s.getF AGE_PERIOD_EPOCH) * 2 ^ 32) % 2 ^ 64
        ∧ (begins s t [AGE_NEXT.off, AGE_NEXT.off + 4] PassingWords)
        ∧ (s.epochMay = false ∨ (s.getB AGE_STATUS_ACTIVE = true ∧ s.getB AGE_STATUS_BEHIND = false) →
        PlainKept ([AGE_NEXT.off, AGE_NEXT.off + 4, AGE_STATUS] ++ PassingWords) s t
        ∧ (s.epochMay = false → t.rd AGE_STATUS = s.rd AGE_STATUS)
        ∧ (s.epochMay = true → t.getB AGE_STATUS_BEHIND = true ∧ t.getB AGE_STATUS_ACTIVE = true ∧ t.getF AGE_STATUS_LEFT = s.getF AGE_STATUS_LEFT
            ∧ t.rd EVT_LAST = 0x0701)))
    ∧ (s.reaches AGE_CTRL = true → (s.epochMay = false ∨ s.getB AGE_STATUS_ACTIVE = true) → exec .ageCtrlEpochnow s = .next s)
    ∧ (s.reaches AGE_CTRL = true → ∃ t, exec .ageCtrlEpochnow s = .next t ∧ begins s t [] [])
    ∧ (∀ kept : List Rec, kept = s.age.recs.filter (fun r => !(r.isCkpt && r.sentAt.isNone)) →
        (kept.map (fun r => recSize r.payload.length)).sum + recSize 1032 + recSize (264 + 256 * s.lanes.length) ≤ 16384 →
        let queued (n : Nat) (t : State) : Prop := ∃ a b, t.age.recs = kept ++ [a, b] ∧ a.rtype = 8 ∧ b.rtype = 9 ∧ a.iseq = s.age.iseq
          ∧ b.iseq = (s.age.iseq + 1) % 2 ^ 16 ∧ a.payload.take 4 = beBytes 4 n ∧ b.payload.take 4 = beBytes 4 n ∧ a.payload.length = 1032
          ∧ b.payload.length = 264 + 256 * s.lanes.length
        (s.reaches AGE_CTRL = true → ∃ t, exec .ageCtrlCkptnow s = .next t ∧ queued 0xFFFFFFFF t ∧ t.regs = s.regs)
        ∧ (s.clockRuns = true →
          let p := max 1 (s.getF AGE_PERIOD_CKPT) * 2 ^ 32
          ∃ t, exec .checkpointDue s = .next t ∧ queued (s.tick / p + 1) t ∧ t.tick = (s.tick / p + 1) * p % 2 ^ 64 ∧ PlainKept PassingWords s t))

/-- R45, R46, R271, R275, R276: samples, estimates, readings and sweeps. -/
def Obligations.SamplesSweepsAndSensors : Prop :=
  ∀ s : State,
    (∀ (l : Fin 18) (n : Nat), s.laneState l = 3 → l.val ∈ s.lanes → s.getF (AGE_LANE_STAT_VERDICT l) = 0 → s.projectsBelow l (2 * s.horizon) = false →
      let c := (s.takeCorr l).1
      c * 2 ^ s.getF AGE_FLOOR_CSRLOG ≤ n → c * 2 ^ s.getF AGE_FLOOR_CSRHARD ≤ n →
      ∃ t, exec (.csrSample l n) s = .next t ∧ t.getF (AGE_LANE_CSR_CORR l) = min (2 ^ 32 - 1) c ∧ t.getF (AGE_LANE_STAT_RUN l) = 0
        ∧ t.getF (AGE_LANE_STAT_VERDICT l) = 0 ∧ t.getF (AGE_LANE_STAT_EYE l) = s.getF (AGE_LANE_STAT_EYE l)
        ∧ (t.age.hist.get (histCsr l + csrBin c n)).toNat = min (2 ^ 32 - 1) ((s.age.hist.get (histCsr l + csrBin c n)).toNat + 1)
        ∧ (t.takeCorr l).1 = 0 ∧ WordsKept [AGE_LANE_STAT l, AGE_LANE_CSR l] s t)
    ∧ (∀ (l : Fin 18) (v : BitVec 16), s.laneState l = 3 → l.val ∈ s.lanes →
        ∃ t, exec (.snrRefresh l v) s = .next t ∧ t.getF (LANE_SNR_SNR l) = v.toNat ∧ t.getB (LANE_SNR_VALID l) = true ∧ OnlyRegs [LANE_SNR l] s t)
    ∧ (∀ v : BitVec 16, ∃ t, exec (.temperatureReading v) s = .next t ∧ t.getF AGE_TEMP_TEMP = v.toNat
        ∧ t.getF AGE_TEMP_MAXTEMP = (if s.age.temps = 0 ∨ signed 16 (s.getF AGE_TEMP_MAXTEMP) < v.toInt then v.toNat else s.getF AGE_TEMP_MAXTEMP)
        ∧ t.age.temps = s.age.temps + 1 ∧ WordsKept [AGE_TEMP] s t
        ∧ ((s.age.temps + 1) % 4096 ≠ 0 → t.age.hist = s.age.hist)
        ∧ ((s.age.temps + 1) % 4096 = 0 → (t.age.hist.get (histTemp + tempBin v.toInt)).toNat
            = min (2 ^ 32 - 1) ((s.age.hist.get (histTemp + tempBin v.toInt)).toNat + 1)))
    ∧ (∀ (l : Fin 18) (w : Sweep), s.age.sweep = some w → w.lane = l → w.busy = false → s.pointMay l = true →
        (s.age.order.contains w.lane = true → s.epochMay = true) →
        ∃ t, exec (.sweepPointStart l) s = .next t ∧ t.getB (LANE_STATUS_SWEEP l) = true ∧ t.age.sweep = some { w with busy := true, at_ := s.now }
          ∧ t.laneState l = s.laneState l ∧ WordsKept [LANE_STATUS l] s t)
    ∧ ∀ (w : Sweep) (e : Eye), s.age.sweep = some w → w.lane ∈ s.lanes → w.busy = true → s.eqPending w.lane = false → s.clockRuns = true →
        ∃ t, exec (.sweepPointEnd e) s = .next t ∧ t.now = max s.now (w.at_ + 1024)
          ∧ (w.pt + 1 < s.sweepPoints → t.getB (LANE_STATUS_SWEEP w.lane) = false ∧ t.age.sweep = some { w with pt := w.pt + 1, busy := false }
              ∧ PlainKept ([LANE_STATUS w.lane] ++ PassingWords) s t)
          ∧ (s.sweepPoints ≤ w.pt + 1 → s.strt.eyes = none → s.lme.runs = [] → w.quiMeasured = false → s.lnk.repair = none →
              s.getF (AGE_LANE_STAT_VERDICT w.lane) = 0 → s.getF AGE_FLOOR_EYEMIN ≤ e.height.toNat → s.getF (AGE_LANE_TREND_NHIST w.lane) < 7 →
            t.getB (LANE_STATUS_SWEEP w.lane) = false ∧ t.age.sweep = none ∧ t.getB (LANE_EYE_VALID w.lane) = true
              ∧ t.getF (LANE_EYE_HEIGHT w.lane) = e.height.toNat ∧ t.getF (LANE_EYE_WIDTH w.lane) = e.width.toNat
              ∧ t.getF (LANE_EYE_WHICH w.lane) = (if s.laneMode = 2 then 0 else e.which.toNat)
              ∧ t.getF (AGE_LANE_STAT_EYE w.lane) = e.height.toNat ∧ t.getF (AGE_LANE_STAT_VERDICT w.lane) = 0
              ∧ t.heights w.lane = (s.heights w.lane).drop 1 ++ [e.height.toNat]
              ∧ t.getF (AGE_LANE_TREND_NHIST w.lane) = s.getF (AGE_LANE_TREND_NHIST w.lane) + 1)

/-- R330: LEDGER-PUT and its reply; R345, R348: events and trace records leave. That TAG is the ISEQ of the record, and that a put leaves only in Up, is the model's reading (log entry 80). -/
def Obligations.RecordsEventsAndTraceLeave : Prop :=
  ∀ s : State, ClocksRun s →
    let sent (r : Rec) (u t : State) : Prop :=
      t.out = ((wvPackets 0x60 0 0xFE s.place r.iseq 0 (r.bytes s.place)).map (Out.packet .core)).reverse ++ s.out
        ∧ t.age.recs = s.age.recs.map (fun q => if q = r then { q with sentAt := some u.now, refusedAt := none } else q)
    (∀ r, s.link = 4 → s.age.recs.find? (fun r => r.sentAt.isNone) = some r → ∃ t, exec .ledgerPutSend s = .next t ∧ sent r s t ∧ t.regs = s.regs)
    ∧ (∀ (r : Rec) (at_ : Nat), s.link = 4 → s.firstRefused = some r → r.refusedAt = some at_ →
        ∃ t, exec .ledgerPutResend s = .next t ∧ t.now = max s.now (at_ + 2 ^ 24) ∧ sent r t t ∧ PlainKept PassingWords s t)
    ∧ (∀ (tag : BitVec 16) (st : Byte),
      (st = 0 → exec (.ledgerPutReply tag st) s
        = .next { s with age := { s.age with recs := s.age.recs.filter (fun r => !(r.iseq == tag.toNat && r.sentAt.isSome)) } })
      ∧ (st ≠ 0 → exec (.ledgerPutReply tag st) s = .next { s with
          age := { s.age with recs := s.age.recs.map (fun r => if r.iseq == tag.toNat && r.sentAt.isSome then { r with refusedAt := some s.now } else r) } }))
    ∧ (∀ (e : Ev) (q : List Ev), s.evq = e :: q → exec .eventDelivery s = .next { s with
          evq := q
          out := .core (mkMsg 3 2 0 (evWord s.place e.cls e.code * 2 ^ 64 + e.tick.toNat) []) :: s.out })
    ∧ ∀ (r : List Byte) (q : List (List Byte)), s.trq = r :: q → exec .traceDelivery s = .next { s with trq := q, out := .core (mkLong 4 1 r) :: s.out }

/-- R296: what each stage waits for, its limit, and what its end does; R297: outcomes and results. That ACKTO and DECL are kept modulo 2^20 where their value exceeds the field is the model's choice (log entry 128). -/
def Obligations.StagesPassAndFail : Prop :=
  ∀ s : State,
    (∀ d : BitVec 64, s.clockRuns = true → s.getB TIME_STATUS_SYNCED = false → s.getB TIME_CTRL_MASTER = false →
      s.b ≤ (s.die + d).toNat → (s.die + d).toNat < s.b + s.lenNow →
      ∃ t, exec (.stageAdvance (some d)) s = .next t ∧ t.die = s.die + d ∧ t.getB TIME_STATUS_SYNCED = true
        ∧ (s.starting = true → s.stage = 8 → t.stage = 9 ∧ t.getF (START_OUT_OUT 8) = (if s.getB START_STATUS_UNSYNCED then 1 else 0)))
    ∧ (s.starting = true → s.clockRuns = true → ∃ t, exec (.stageAdvance none) s = .next t
      ∧ (s.stage = 0 → t.stage = 1 ∧ t.getF (START_OUT_OUT 0) = 0 ∧ t.getF ISL_XING_RESYNC = 63 ∧ t.isl.hs = List.replicate 6 1
          ∧ t.getB ISL_STATUS_LCORE_OK = true ∧ t.getB ISL_STATUS_ARITH_OK = true ∧ t.getB ISL_STATUS_CORE_OK = true)
      ∧ (s.stage = 1 → s.getF ISL_XING_RESYNC = 0 → hasRecord s.isl.linkWas = false → s.getB LME_STATUS_IMGOK = false →
          t.stage = 2 ∧ t.getF (START_OUT_OUT 1) = 0)
      ∧ (s.stage = 2 → s.far = false → s.getB LME_STATUS_IMGOK = true → s.getB START_STATUS_VIOK = true → s.getB START_MEM_RETIRED = false →
          s.strt.again = false → t.stage = 3 ∧ t.getF (START_OUT_OUT 2) = 0 ∧ t.laneState 18 = 3)
      ∧ (s.stage = 3 → t.stage = 4 ∧ t.getF (START_OUT_OUT 3) = 0 ∧ t.laneState 18 = 3 ∧ t.getF (LANE_STATUS_MODE 18) = 3 ∧ t.link = 1)
      ∧ (s.stage = 7 → s.getB DLV_STATUS_INITDONE = true → s.getB DLV_LOOP_VALID = true → t.stage = 8 ∧ t.getF (START_OUT_OUT 7) = 0
          ∧ (s.far = true → t.getF DLV_ACKTO_ACKTO = (s.getF DLV_LOOP_LOOP + 512) % 2 ^ 20)
          ∧ (s.getB TIME_CTRL_MASTER = true → t.getB TIME_STATUS_SYNCED = true))
      ∧ (s.stage = 8 → s.getB TIME_STATUS_SYNCED = true → t.stage = 9 ∧ t.getF (START_OUT_OUT 8) = 0 ∧ t.getB TIME_DECL_VALID = true
          ∧ t.getF TIME_DECL_DECL = (if s.far then (3 * s.getF DLV_LOOP_LOOP + 125 + 1) / 2 else 250) % 2 ^ 20))
    ∧ (s.starting = true → s.clockRuns = true → ∃ t, exec .stageTimeout s = .next t
      ∧ (∀ code lim, (s.stage = 0 ∧ code = 0x81 ∧ lim = 2 ^ 16) ∨ (s.stage = 1 ∧ s.getF ISL_XING_RESYNC ≠ 0 ∧ code = 0x82 ∧ lim = 2 ^ 12)
            ∨ (s.stage = 2 ∧ code = (if s.getB LME_STATUS_IMGOK then 0x85 else if s.lme.badSeen then 0x84 else 0x83) ∧ lim = 2 ^ 31) →
          s.strt.recorded = false → ¬ (s.getF START_MEM_LASTFAIL = s.stage ∧ s.getF START_MEM_RUN = 2) →
          t.now = max s.now (s.strt.stageAt + lim) ∧ t.getF START_STATUS_RESULT = 1 ∧ t.getF START_STATUS_FCODE = code ∧ t.getF (START_OUT_OUT s.stage) = 2
          ∧ t.starting = false ∧ t.rd EVT_LAST = 2 ^ 31 + 0x0801)
      ∧ (s.stage = 3 → t.now = max s.now (s.strt.stageAt + 2 ^ 22) ∧ t.getB START_STATUS_SBABSENT = true ∧ t.getF (START_OUT_OUT 3) = 1 ∧ t.stage = 4 ∧ t.link = 1)
      ∧ (s.stage = 8 → t.now = max s.now (s.strt.stageAt + max 1 (s.getF START_LIMIT_T8WAIT) * 2 ^ 24) ∧ t.getB START_STATUS_UNSYNCED = true
          ∧ t.getF (START_OUT_OUT 8) = 1 ∧ t.stage = 9))

/-- R296, R8: Service; R19: detection again; R305, R306: the interconnect checks. That a scrapped start takes the link to Down is the model's choice (log entry 38). -/
def Obligations.ServiceDetectAndChecks : Prop :=
  ∀ s : State, ClocksRun s →
    (s.starting = true → s.stage = 9 → s.strt.recorded = false → ∃ t, exec .startCtrlService s = .next t ∧ t.stage = 10 ∧ t.getB ID_SEAL_SEALED = true
      ∧ t.getF (START_OUT_OUT 10) = 0 ∧ t.getF (START_OUT_OUT 9) = (if s.getF (START_OUT_OUT 9) = 2 then 2 else 0)
      ∧ t.getF START_STATUS_RESULT = 0 ∧ t.starting = false
      ∧ t.getW AGE_NEXT = (if s.getW AGE_NEXT = 0 then (s.tick + 2 ^ 38) % 2 ^ 64 else s.getW AGE_NEXT))
    ∧ (s.getB LINK_STATUS_EMPTY = false → exec .startCtrlDetect s = .next s)
    ∧ (s.getB LINK_STATUS_EMPTY = true → ∃ t, exec .startCtrlDetect s = .next t ∧ t.getB LINK_STATUS_EMPTY = false ∧ t.getF START_STATUS_RESULT = 15
        ∧ t.strt.done = false ∧ t.link = 1 ∧ t.lnk.seen = 0 ∧ t.stage = s.stage)
    ∧ (∀ bad : BitVec 24, s.t4Check = true → ∃ t, exec (.walkingOnesStep bad) s = .next t ∧
        (s.getB START_CTRL_MFGDONE = false → maskOf s.lanes &&& bad.toNat = 0 → bitOf bad.toNat 18 = false → s.strt.walk + 1 < s.walkSteps →
          t.now = s.now + 4096 ∧ t.strt = { s.strt with walk := s.strt.walk + 1 } ∧ PlainKept PassingWords s t)
        ∧ (s.getB START_CTRL_MFGDONE = false → maskOf s.lanes &&& bad.toNat ≠ 0 → s.strt.recorded = false →
          t.getF START_STATUS_RESULT = 3 ∧ t.getF START_STATUS_FCODE = 0x86 ∧ t.link = 8 ∧ t.getF (START_OUT_OUT 4) = 2)
        ∧ (s.getB START_CTRL_MFGDONE = true → s.far = false → s.strt.walk + 1 < s.walkSteps →
          t.now = s.now + 4096 + (if s.strt.walk = 0 then 16384 else 0) ∧ t.strt = { s.strt with walk := s.strt.walk + 1 }
          ∧ t.getF START_T4FAIL_LANES = s.getF START_T4FAIL_LANES ||| (bad.toNat &&& maskOf s.forward) ∧ PlainKept ([START_T4FAIL] ++ PassingWords) s t))
    ∧ ∀ (errs : List Nat) (inv : BitVec 24), s.link = 2 → s.getB START_CTRL_MFGDONE = false → s.lnk.passSent = false → s.strt.eyes = none →
        ∃ t, exec (.mfgPrbsEnd ⟨errs, inv⟩) s = .next t ∧
        (s.lnk.peerPass = none → (∀ l ∈ s.lanes, l ∈ s.forward) → (∀ p ∈ s.lanes.zip errs, p.2 = 0) → t.lnk.passSent = true ∧ t.lnk.ownPass = maskOf s.forward
          ∧ t.out = s.trainOut 4 (beBytes 1 s.lnk.eqMode ++ mask3 (maskOf s.forward)) :: s.out ∧ t.link = 2
          ∧ (∀ l ∈ s.lanes, t.getB (LANE_STATUS_POLINV l) = bitOf inv.toNat l) ∧ WordsKept (s.lanes.map LANE_STATUS) s t)
        ∧ ((∃ p ∈ s.lanes.zip errs, p.1 ∈ s.forward ∧ p.2 ≠ 0) ∨ (∃ l ∈ s.lanes, l ∉ s.forward) → s.strt.recorded = false →
          t.getF START_STATUS_RESULT = 3 ∧ t.getF START_STATUS_FCODE = 0x87 ∧ t.link = 8)

/-- R310, R311: loading and checking the image; R321: the mailbox. What START does while the LME runs and what a word beyond 64 KiB does is the model's reading (log entry 93), and so are the state that R313 leaves after a Hold (log entry 152) and the tick at which a mailbox reply is logged (log entry 153). -/
def Obligations.MicrocodeAndMailbox : Prop :=
  ∀ s : State, ClocksRun s →
    (s.getB LME_STATUS_RUNNING = true →
      (∃ t, exec .lmeCtrlLoad s = .next t ∧ t.rd EVT_LAST = 2 ∧ t.rd EVT_DETAIL = LME_CTRL ∧ PlainKept [] s t)
      ∧ (∀ v, ∃ t, exec (.lmeLoadWord v) s = .next t ∧ t.rd EVT_LAST = 2 ∧ t.rd EVT_DETAIL = LME_LOAD ∧ t.lme = s.lme ∧ PlainKept [] s t)
      ∧ exec .lmeCtrlStart s = .next s)
    ∧ (s.getB LME_STATUS_RUNNING = false →
      (∃ t, exec .lmeCtrlLoad s = .next t ∧ t.getF LME_PTR_PTR = 0 ∧ OnlyRegs [LME_PTR] s t)
      ∧ (∀ v, ∃ t, exec (.lmeLoadWord v) s = .next t ∧ t.getF LME_PTR_PTR = (s.getF LME_PTR_PTR + 4) % 2 ^ 17
          ∧ (∀ k, t.lme.ram.get k = if s.getF LME_PTR_PTR < 65536 ∧ k = s.getF LME_PTR_PTR / 4 then v else s.lme.ram.get k)
          ∧ WordsKept [LME_PTR] s t)
      ∧ exec .lmeCtrlStart s = .next (if s.imageLost then s else { s with lme := { s.lme with checking := true } }))
    ∧ (s.lme.checking = true →
      let len := s.imgWord 2
      let lenOk : Prop := 32 ≤ len ∧ len ≤ 65536 ∧ len % 4 = 0 ∧ len = s.getF LME_PTR_PTR ∧ s.imgWord 3 < len
      let family : Prop := bitOf (bitsOf (s.imgWord 1) 8 8) (if s.far then 1 else 0) = true
      (∀ code : Nat, (s.imgWord 0 ≠ 0x4C4D4531 ∧ code = 1) ∨ (s.imgWord 0 = 0x4C4D4531 ∧ ¬ family ∧ code = 2)
            ∨ (s.imgWord 0 = 0x4C4D4531 ∧ family ∧ ¬ lenOk ∧ code = 3)
            ∨ (s.imgWord 0 = 0x4C4D4531 ∧ family ∧ lenOk ∧ s.imageCrc len ≠ s.imgWord 4 ∧ code = 4) →
          ∃ t, exec .ucodeCheckEnd s = .next t ∧ t.getF LME_STATUS_CHECK = code ∧ t.getB LME_STATUS_RUNNING = s.getB LME_STATUS_RUNNING
            ∧ t.lme.checking = false ∧ t.lme.badSeen = true ∧ counted CNT_UCODE_BAD 1 s t ∧ (s.lme.badSeen = true → t.rd EVT_LAST = 0x0804))
      ∧ (s.imgWord 0 = 0x4C4D4531 → family → lenOk → s.imageCrc len = s.imgWord 4 → s.imageLost = false → s.lnk.peerHeld = [] → s.link ≠ 7 →
          ¬ (s.starting = true ∧ s.stage = 2) →
          ∃ t, exec .ucodeCheckEnd s = .next t ∧ t.getB LME_STATUS_IMGOK = true ∧ t.getB LME_STATUS_RUNNING = true ∧ t.getF LME_STATUS_CHECK = 0
            ∧ t.getF LME_STATUS_VERSION = s.imgWord 1 / 2 ^ 16 ∧ t.rd LME_IMGCRC = s.imgWord 4 ∧ t.lme.checking = false
            ∧ counted CNT_UCODE_LOAD 1 s t))
    ∧ (s.getB MBX_STATUS_CMDFULL = false → ∃ t, exec .mbxCtrlSend s = .next t ∧ t.getB MBX_STATUS_CMDFULL = true ∧ OnlyRegs [MBX_STATUS] s t)
    ∧ (s.getB MBX_STATUS_CMDFULL = true → ∃ t, exec .mbxCtrlSend s = .next t ∧ t.rd EVT_LAST = 2 ∧ t.rd EVT_DETAIL = MBX_CTRL ∧ PlainKept [] s t)
    ∧ ∃ t, exec .mbxCtrlNext s = .next t ∧ t = { s with lme := { s.lme with rpl := s.lme.rpl.drop 1, log := t.lme.log } }
        ∧ (s.lme.rpl.drop 1 = [] → t.lme.log = s.lme.log)
        ∧ ∀ (p : List Byte) (q : List (List Byte)) (e : WvLog), s.lme.rpl.drop 1 = p :: q → s.logOf .mailbox p = some e → t.lme.log.getLast? = some e

/-- R241: the windows; R238: debug unlock; R245, R246: quarantine is shared. -/
def Obligations.GuestFirewallIsCommanded : Prop :=
  ∀ s : State, ClocksRun s →
    (s.guestEdge = false → ∀ c : Instr, (∃ i, c = .fwWinSelCommit i) ∨ (∃ i, c = .fwWinSelRead i) ∨ c = .fwCtrlQclear ∨ c = .fwCtrlDbgUnlock
        ∨ (∃ q, c = .quarantinePropagate q) → exec c s = .next s)
    ∧ (s.guestEdge = true →
      (∀ i : BitVec 12, ∃ t, exec (.fwWinSelCommit i) s = .next t ∧ t.getF FW_WIN_SEL_INDEX = i.toNat
        ∧ (∀ w k, k < 4 → t.fwWord w k = if w = i.toNat then s.getF (FW_WIN_D_WORD k) &&& (fwMask k).toNat else s.fwWord w k) ∧ WordsKept [FW_WIN_SEL] s t)
      ∧ (∀ i : BitVec 12, ∃ t, exec (.fwWinSelRead i) s = .next t ∧ t.getF FW_WIN_SEL_INDEX = i.toNat
        ∧ (∀ k < 4, t.getF (FW_WIN_D_WORD k) = s.fwWord i.toNat k) ∧ OnlyRegs [FW_WIN_SEL, FW_WIN_D 0, FW_WIN_D 1, FW_WIN_D 2, FW_WIN_D 3] s t)
      ∧ (∃ t, exec .fwCtrlQclear s = .next t ∧ t.getB FW_CTRL_QUAR = false ∧ t.getF FW_VIOL_COUNT = 0
        ∧ t.getB FW_CTRL_DBG_UNLOCK = s.getB FW_CTRL_DBG_UNLOCK ∧ t.out = .quarantine false :: s.out ∧ WordsKept [FW_CTRL, FW_VIOL] s t)
      ∧ (∃ t, exec .fwCtrlDbgUnlock s = .next t ∧ t.getB FW_CTRL_DBG_UNLOCK = true ∧ t.getB FW_CTRL_QUAR = s.getB FW_CTRL_QUAR
        ∧ PlainKept [FW_CTRL, AGE_LQ] s t
        ∧ (s.recBytes (fun _ => true) + recSize 16 ≤ 16384 → t.rd EVT_LAST = 0x0903 ∧ t.age.recs = s.age.recs
            ++ [⟨7, s.age.iseq, beBytes 4 (s.getF FW_VIOL_COUNT) ++ beBytes 4 0 ++ beBytes 8 s.tick, none, none⟩]))
      ∧ (s.getB FW_CTRL_QUAR = false → ∃ t, exec (.quarantinePropagate true) s = .next t ∧ t.getB FW_CTRL_QUAR = true
        ∧ t.getB FW_CTRL_DBG_UNLOCK = false ∧ t.rd EVT_LAST = 2 ^ 30 + 0x0902 ∧ PlainKept [FW_CTRL] s t)
      ∧ (s.getB FW_CTRL_QUAR = true → exec (.quarantinePropagate true) s = .next s)
      ∧ ∃ t, exec (.quarantinePropagate false) s = .next t ∧ t.getB FW_CTRL_QUAR = false ∧ t.getF FW_VIOL_COUNT = 0
        ∧ t.getB FW_CTRL_DBG_UNLOCK = s.getB FW_CTRL_DBG_UNLOCK ∧ OnlyRegs [FW_CTRL, FW_VIOL] s t)

/-- R328, R330, R332, R333: what the commands that read the instance answer, and REG-WRITE. The tick at which a mailbox reply is logged is the model's reading (log entry 153), and so is the 16-bit order of ISEQ in LEDGER-TAKE (log entry 108). -/
def Obligations.StateAndRegistersAreReadAndWritten : Prop :=
  ∀ (s : State) (h : CmdHdr), TakesCommands s →
    let u := s.count CNT_WV_CMD
    let packets (opc : Nat) (data : List Byte) (t : State) : Prop :=
      h.path = .mailbox → t.lme.rpl = s.lme.rpl ++ wvPackets opc 128 h.origin.toNat s.place h.tag.toNat 0 data
    (∃ t, exec (.nop h) s = .next t ∧ Answered h 0 0 t ∧ BesidesReply s t ∧ PlainKept [] s t ∧ (h.path = .mailbox → RepliedInMailbox h 0 0 [] s t)
        ∧ (s.place < 256 → h.path = .core ∨ h.path = .sb ∨ (h.path = .mailbox ∧ s.lme.rpl = []) → t.lme.log.getLast? = some ⟨0, h, 0, s.die⟩))
    ∧ (∀ off len : Nat, off % 4 = 0 → len % 4 = 0 → 4 ≤ len → off + len ≤ 0x8000 →
        ∃ t, exec (.readState h (BitVec.ofNat 32 off) (BitVec.ofNat 32 len)) s = .next t ∧ Answered h 1 0 t ∧ BesidesReply s t ∧ PlainKept [] s t
          ∧ (len ≤ 1004 → h.path = .mailbox →
              RepliedInMailbox h 1 0 ((List.range (len / 4)).flatMap (fun i => beBytes 4 (u.readReg (off + 4 * i)))) s t))
    ∧ (∀ a n : Word, ∃ t, exec (.readState h a n) s = .next t ∧ PlainKept [] s t
        ∧ ((a.toNat % 4 ≠ 0 ∨ n.toNat % 4 ≠ 0) → Answered h 1 3 t)
        ∧ (a.toNat % 4 = 0 → n.toNat % 4 = 0 → 2 ^ 28 ≤ a.toNat → Answered h 1 9 t))
    ∧ (∀ sp n : Nat, sp < 16 → s.spaceSize sp = some n → ∃ t, exec (.dump h (BitVec.ofNat 32 (2 ^ sp))) s = .next t ∧ Answered h 2 0 t ∧ PlainKept [] s t
        ∧ packets 2 (beBytes 1 sp ++ beBytes 3 0 ++ beBytes 4 n ++ beBytes 8 s.tick ++ u.readSpace sp 0 (n / 4)) t)
    ∧ (∀ offs : List Word, offs ≠ [] → offs.length ≤ 250 → (∀ o ∈ offs, o.toNat % 4 = 0 ∧ o.toNat ≤ 0xFFFF) →
        ∃ t, exec (.regRead h offs) s = .next t ∧ Answered h 3 0 t ∧ BesidesReply { s with free := t.free } t ∧ PlainKept [] s t
          ∧ (h.path = .mailbox → RepliedInMailbox h 3 0 (offs.flatMap (fun o => beBytes 4 (u.readReg o.toNat))) s t))
    ∧ (∃ t, exec (.regRead h []) s = .next t ∧ Answered h 3 9 t ∧ PlainKept [] s t)
    ∧ (∀ off v : Word, off.toNat % 4 = 0 → off.toNat ≤ 0xFFFF → ∃ t, exec (.regWrite h [(off, v)]) s = .next t
        ∧ Answered h 4 (if u.dropsWrite off.toNat v.toNat then 6 else 0) t
        ∧ (∀ o, PlainWord o → t.rd o = (u.accessWrite .lme off.toNat v.toNat).rd o) ∧ t.lnk = (u.accessWrite .lme off.toNat v.toNat).lnk
        ∧ t.trn = (u.accessWrite .lme off.toNat v.toNat).trn ∧ t.age = (u.accessWrite .lme off.toNat v.toNat).age
        ∧ t.mov = (u.accessWrite .lme off.toNat v.toNat).mov ∧ t.fold = (u.accessWrite .lme off.toNat v.toNat).fold)
    ∧ ∀ (a : BitVec 16) (valid : Bool), ∃ t, exec (.ledgerTake h a valid) s = .next t ∧ Answered h 0x61 0 t ∧ PlainKept [] s t
        ∧ t.age.recs = (if valid then s.age.recs.filter (fun r => decide (0x7FFF < (a.toNat + 2 ^ 16 - r.iseq) % 2 ^ 16)) else s.age.recs)
        ∧ packets 0x61 (match t.age.recs with | r :: _ => r.bytes s.place | [] => []) t

/-- R328: what the commands on link and lanes do, and what they answer. That RETRAIN is answered STATE outside Up, Shift and Retrain is the model's reading (log entry 106); whether a checker locks as ticks pass is a free value (log entry 37). -/
def Obligations.LinkAndLaneCommandsRun : Prop :=
  ∀ (s : State) (h : CmdHdr),
    (TakesCommands s →
      ((s.link = 4 ∨ s.link = 5) → s.run = false → ∃ t, exec (.retrain h) s = .next t
          ∧ t.link = 6 ∧ t.lnk.cause = 5 ∧ t.lme.runs = [⟨h, 0x10, 0⟩] ∧ counted CNT_RETRAIN 1 s t)
      ∧ (s.link = 6 → ∃ t, exec (.retrain h) s = .next t ∧ t.lme.runs = [⟨h, 0x10, 0⟩] ∧ t.lnk = s.lnk ∧ PlainKept [] s t)
      ∧ (s.link < 4 ∨ 6 < s.link → ∃ t, exec (.retrain h) s = .next t ∧ Answered h 0x10 5 t ∧ t.lme.runs = [] ∧ PlainKept [] s t)
      ∧ (s.link ≠ 8 → ∃ t, exec (.linkDown h) s = .next t ∧ t.link = 8 ∧ t.getF LINK_FAIL_REASON = 0x0C ∧ Answered h 0x11 0 t)
      ∧ (s.link = 8 → ∃ t, exec (.linkDown h) s = .next t ∧ t.link = 8 ∧ Answered h 0x11 0 t ∧ (s.trn.load = none → PlainKept [] s t))
      ∧ (∀ (w m : Byte) (map : List Nat) (g : Nat), s.link = 4 → s.getB LINK_STATUS_CASTLING = false → s.lnk.commit = none → s.lnk.shiftOwn = none →
          w.toNat ≠ s.mapList.length → m.toNat = s.getF LINK_STATUS_MODE → m.toNat ≤ 2 → w.toNat ∈ s.usedWidths → bitOf (s.used 9) m.toNat = true →
          w.toNat ≤ s.usableLanes.length → buildMap s.place w.toNat s.usableLanes s.mapList = some map → (s.count CNT_WV_CMD).shiftEffg 7 = some g →
          (s.getF LINK_SHIFT_PHASE = 0 → ∃ t, exec (.shift h w m) s = .next t
            ∧ t.lme.runs = [⟨h, 0x12, 0⟩] ∧ t.getF LINK_SHIFT_PHASE = 1 ∧ t.getF LINK_SHIFT_REASON = 7
            ∧ ∃ x, t.lnk.shiftOwn = some x ∧ x.reason = 7 ∧ x.width = w ∧ x.mode = m ∧ x.effg = BitVec.ofNat 32 g ∧ x.map = mapBytes map
              ∧ t.dlv.lc = s.dlv.lc ++ [⟨shiftBody 0x21 x, s.now⟩])
          ∧ (s.getF LINK_SHIFT_PHASE ≠ 0 → ∃ t, exec (.shift h w m) s = .next t ∧ Answered h 0x12 1 t ∧ t.lnk = s.lnk ∧ PlainKept [] s t))
      ∧ (∀ l : Byte,
        (l.toNat ∉ s.lanes → ∃ t, exec (.retireLane h l) s = .next t ∧ Answered h 0x13 3 t ∧ PlainKept [] s t)
        ∧ (l.toNat ∈ s.lanes → l.toNat ∉ s.mapList → s.getF (AGE_LANE_STAT_VERDICT l.toNat) ≠ 3 → s.age.sweep = none → s.lnk.repair = none →
            ∃ t, exec (.retireLane h l) s = .next t ∧ Answered h 0x13 0 t ∧ t.getF (AGE_LANE_STAT_VERDICT l.toNat) = 3 ∧ t.getF (AGE_LANE_STAT_WHY l.toNat) = 7 ∧ t.laneState l.toNat = 5
            ∧ bitOf t.excl l.toNat = true)
        ∧ (l.toNat ∈ s.lanes → l.toNat ∈ s.mapList → s.getF (AGE_LANE_STAT_VERDICT l.toNat) ≠ 3 → s.age.sweep = none → s.link = 4 →
            s.laneState l.toNat = 3 → s.lnk.shiftOwn.isSome = true → ∃ t, exec (.retireLane h l) s = .next t ∧
            t.lme.runs = [⟨h, 0x13, l.toNat⟩] ∧ t.getF (AGE_LANE_STAT_VERDICT l.toNat) = 3 ∧ t.laneState l.toNat = 3))
      ∧ (∀ (l : Byte) (x : Nat) (rest : List Nat), l.toNat ∈ s.lanes → l.toNat ∈ s.mapList → s.getB LINK_STATUS_CASTLING = false → s.lnk.repair = none →
          s.age.sweep = none → s.link = 4 → s.castleMay = true → s.standbyLanes = x :: rest → x ∉ s.lnk.qualified →
          (s.getB LINK_STATUS_INITIATOR = true → ∃ t, exec (.castle h l) s = .next t ∧ t.lme.runs = [⟨h, 0x14, l.toNat⟩] ∧ t.lnk.repair = some ⟨true, l.toNat, x, false, false, 0, []⟩
                ∧ t.laneState x = 2 ∧ t.mapList = s.mapList)
            ∧ (s.getB LINK_STATUS_INITIATOR = false → ∃ t, exec (.castle h l) s = .next t ∧ Answered h 0x14 5 t ∧ t.lnk = s.lnk ∧ PlainKept [] s t))
      ∧ (∀ l : Byte, l.toNat ∈ s.lanes → s.laneState l.toNat = 3 ∨ s.laneState l.toNat = 4 →
          (s.age.sweep = none → ∃ t, exec (.sweep h l) s = .next t ∧ PlainKept [] s t ∧ t.age.sweep = some ⟨l.toNat, 0, false, false, 0⟩ ∧ t.lme.runs = [⟨h, 0x15, l.toNat⟩])
          ∧ (s.age.sweep ≠ none → ∃ t, exec (.sweep h l) s = .next t ∧ PlainKept [] s t ∧ Answered h 0x15 1 t ∧ t.age = s.age))
      ∧ (∀ (l pat : Byte) (user n : Word), l.toNat ∈ s.lanes → s.patMay l.toNat = true → pat.toNat ≤ 3 → 1 ≤ n.toNat → n.toNat ≤ 2 ^ 31 →
          ∃ t arg, exec (.pattern h l pat user n) s = .next t ∧ t.lme.runs = [⟨h, 0x16, arg⟩] ∧ arg % 32 = l.toNat ∧ arg / 2 ^ 37 = s.now + n.toNat
            ∧ t.getB (LANE_PAT_RUN l.toNat) = true ∧ t.getF (LANE_PAT_PATTERN l.toNat) = pat.toNat
            ∧ t.rd (LANE_USERPAT l.toNat) = (if pat = 3 then user.toNat else s.rd (LANE_USERPAT l.toNat))
            ∧ PlainKept [LANE_PAT l.toNat, LANE_USERPAT l.toNat] s t)
      ∧ ((s.getB LINK_STATUS_EMPTY = true → ∃ t, exec (.detect h) s = .next t ∧ Answered h 0x17 0 t ∧ t.link = 1 ∧ t.getB LINK_STATUS_EMPTY = false)
          ∧ (s.getB LINK_STATUS_EMPTY = false → ∃ t, exec (.detect h) s = .next t ∧ Answered h 0x17 5 t ∧ PlainKept [] s t)))
    ∧ ∀ (r : WvRun) (errs : Word), s.lme.runs = [r] → r.opc = 0x16 → r.arg % 32 ∈ s.lanes → s.getB (LANE_PAT_RUN (r.arg % 32)) = true → s.clockRuns = true →
        ∃ t, exec (.patternTimeEnd errs) s = .next t ∧ t.now = max s.now (r.arg / 2 ^ 37) ∧ t.lme.runs = [] ∧ Answered r.h 0x16 0 t
          ∧ t.getB (LANE_PAT_RUN (r.arg % 32)) = false ∧ t.getB (LANE_PAT_LOCK (r.arg % 32)) = false
          ∧ (let more := min (2 ^ 32 - 1) (s.rd (LANE_PRBS_ERR (r.arg % 32)) + errs.toNat)
            (s.getB (LANE_PAT_LOCK (r.arg % 32)) = true → t.rd (LANE_PRBS_ERR (r.arg % 32)) = more)
            ∧ (s.getB (LANE_PAT_LOCK (r.arg % 32)) = false → r.arg / 2 ^ 37 ≤ s.now → t.rd (LANE_PRBS_ERR (r.arg % 32)) = s.rd (LANE_PRBS_ERR (r.arg % 32)))
            ∧ (t.rd (LANE_PRBS_ERR (r.arg % 32)) = more ∨ t.rd (LANE_PRBS_ERR (r.arg % 32)) = s.rd (LANE_PRBS_ERR (r.arg % 32))))
          ∧ PlainKept (LANE_PRBS_ERR (r.arg % 32) :: PassingWords) s t

/-- R328: commands on the instance and its schedule; R312: the update; R329: LOAD-TURNS. -/
def Obligations.InstanceAndScheduleCommandsRun : Prop :=
  ∀ (s : State) (h : CmdHdr), TakesCommands s →
    (∀ (ovr : Bool) (mem : Word), ∃ t, exec (.instReset h ovr mem) s = .next t ∧ t.now = s.now + 1024 ∧ t.stage = 0 ∧ t.lme.log = []
        ∧ (s.clockRuns = true → t.die = s.die + 1024)
        ∧ (∀ off, off ∉ [TIME_STATUS, START_MEM, START_STATUS] → t.rd off = (State.resetAt s.place).rd off)
        ∧ t.getB START_STATUS_OVR = ovr ∧ t.rd START_MEM = (if ovr then mem.toNat &&& 0xFE03FFFF else (State.resetAt s.place).rd START_MEM))
    ∧ (∃ t, exec (.service h) s = .next t
        ∧ (s.starting = true → s.stage = 9 → Answered h 0x21 0 t ∧ t.stage = 10 ∧ t.getB ID_SEAL_SEALED = true)
        ∧ (¬ (s.starting = true ∧ s.stage = 9) → Answered h 0x21 5 t ∧ PlainKept [] s t))
    ∧ (∃ t, exec (.microcodeUpdate h) s = .next t
        ∧ (s.getB LME_STATUS_UPDATING = false → s.inService = false → Answered h 0x22 5 t ∧ PlainKept [] s t)
        ∧ (s.getB LME_STATUS_UPDATING = false → s.inService = true → s.link = 4 → s.run = false → s.getB LINK_STATUS_CASTLING = false →
            h.path = .mailbox → s.guestEdge = false → s.getB ISL_CTRL_HOLD_EN = true → s.trn.void = false → s.lnk.gap = false → s.dlv.tx = [] → s.dlv.cur = [] →
            s.dlv.urgent = [] → s.dlv.replay = none →
            Answered h 0x22 0 t ∧ t.link = 7 ∧ t.getF ISL_HOLD_STAT_CAUSE = 6 ∧ t.getB ISL_HOLD_STAT_HOLDING = true
            ∧ t.getB LME_STATUS_RUNNING = false ∧ t.getB LME_STATUS_IMGOK = false ∧ t.getB LME_STATUS_UPDATING = true
            ∧ bitOf (t.getF ISL_XING_RESYNC) 4 = true ∧ bitOf (t.getF ISL_XING_RESYNC) 5 = true))
    ∧ (∃ t, exec (.arithReset h) s = .next t
        ∧ (s.run = false → (∀ j < 8, s.getB (FOLD_XJ_CFG_GO j) = false) → Answered h 0x23 0 t ∧ bitOf (t.getF ISL_XING_RESYNC) 3 = true
            ∧ bitOf (t.getF ISL_XING_RESYNC) 5 = true)
        ∧ ((s.run = true ∨ ∃ j < 8, s.getB (FOLD_XJ_CFG_GO j) = true) → Answered h 0x23 5 t ∧ PlainKept [] s t))
    ∧ ∀ p : List Byte, p.length = 312 → ∃ t, exec (.loadTurns h p) s = .next t
        ∧ (s.run = true → Answered h 0x30 5 t ∧ t.trn = s.trn ∧ PlainKept [] s t)
        ∧ (s.run = false → 1 ≤ bytesAt p 40 2 → bytesAt p 40 2 ≤ 16 →
            t.lme.runs = [⟨h, 0x30, byteAt p 42 % 2⟩]
            ∧ (∃ l, t.trn.load = some l ∧ l.ga = bytesAt p 32 8 ∧ l.pages = bytesAt p 40 2 ∧ l.dga = bytesAt p 48 8 ∧ l.got = 0)
            ∧ t.getF TURN_LEN_LEN = bytesAt p 0 4 % 2 ^ 25 ∧ t.getF TURN_LEN_CYCLE = bitsOf (bytesAt p 0 4) 27 5
            ∧ t.getF TURN_DECK_NDECK = bytesAt p 4 4 % 2 ^ 5 ∧ t.getF TURN_ASSUME_DECL = bytesAt p 8 4 % 2 ^ 20
            ∧ t.getF TURN_FLOOD_FLOOD = bytesAt p 12 4 % 2 ^ 24 ∧ t.getW TURN_DECK_BASE = bytesAt p 16 8 ∧ t.getW TURN_START = bytesAt p 24 8
            ∧ (∀ i < 64, t.rd (0x1900 + 4 * i) &&& 0xC003FFFF = bytesAt p (56 + 4 * i) 4 &&& 0xC003FFFF)
            ∧ t.getB TURN_CHECK_DONE = false ∧ t.getB TURN_CHECK_PASS = false
            ∧ PlainKept ([TURN_LEN, TURN_DECK, TURN_ASSUME, TURN_FLOOD, TURN_DECK_BASE.off, TURN_DECK_BASE.off + 4, TURN_START.off, TURN_START.off + 4,
                TURN_CHECK] ++ (List.range 64).map (fun i => 0x1900 + 4 * i)) s t)

/-- R165, R328: ARM and HALT; R160, R161: Stretch; R159, R164: WHATIF. That it goes over the Deck pages which the last fit check read, and that DETAIL of a row that fails is a free value, is the model's choice (log entry 107). -/
def Obligations.RoundsAreCommanded : Prop :=
  ∀ (s : State) (h : CmdHdr), TakesCommands s →
    (∀ round : BitVec 64, ∃ t, exec (.arm h round) s = .next t
        ∧ (s.getB TURN_CHECK_PASS = true → s.getB TIME_STATUS_SYNCED = true → s.run = false → s.getB LINK_STATUS_BASECAP = false →
            Answered h 0x31 0 t ∧ t.getW TURN_START = round.toNat ∧ t.trn = { s.trn with armed := some round.toNat }
            ∧ PlainKept [TURN_START.off, TURN_START.off + 4] s t)
        ∧ (s.getB TURN_CHECK_PASS = false → Answered h 0x31 5 t ∧ t.trn = s.trn ∧ PlainKept [] s t))
    ∧ (∃ t, exec (.halt h) s = .next t ∧ PlainKept [] s t
        ∧ (s.run = false → Answered h 0x32 0 t ∧ t.trn = { s.trn with armed := none })
        ∧ (s.run = true → t.lme.runs = [⟨h, 0x32, 0⟩] ∧ t.trn = { s.trn with halt := true }))
    ∧ (∀ (k : Byte) (lower : Bool) (e : BitVec 64), ∃ t, exec (.setStretchApply h k lower e) s = .next t ∧ PlainKept [] s t
        ∧ (k.toNat ≤ 16 → s.tim.reqs.length < 8 → Answered h 0x33 0 t ∧ t.tim = { s.tim with reqs := s.tim.reqs ++ [⟨k.toNat, lower, e.toNat⟩] }
            ∧ (e.toNat ≤ s.tim.round → t.rd EVT_LAST = 2 ^ 30 + 0x0307))
        ∧ (k.toNat ≤ 16 → 8 ≤ s.tim.reqs.length → Answered h 0x33 8 t ∧ t.tim = s.tim)
        ∧ (16 < k.toNat → Answered h 0x33 3 t ∧ t.tim = s.tim))
    ∧ (∀ (k : Byte) (lower : Bool) (seq : Byte) (origin : BitVec 9) (e : BitVec 64), ∃ t, exec (.setStretchForward h k lower seq origin e) s = .next t
        ∧ PlainKept [] s t
        ∧ (s.far = true → k.toNat ≤ 16 →
            let body := stretchBody false lower k.toNat seq.toNat origin.toNat e.toNat
            t.dlv.lc = s.dlv.lc ++ [⟨body, s.now⟩] ∧ t.tim = { s.tim with fwds := [⟨h, 0x33, body, 1⟩] } ∧ t.lme = s.lme)
        ∧ (s.far = false → Answered h 0x33 3 t ∧ t.tim = s.tim ∧ t.dlv.lc = s.dlv.lc))
    ∧ ∀ k w m : Byte, ∃ t, exec (.whatif h k w m) s = .next t ∧ PlainKept [] s t ∧ t.trn = s.trn
        ∧ (s.trn.checking = true → Answered h 0x34 1 t)
        ∧ (s.trn.checking = false → s.whatifOk k.toNat w.toNat m.toNat = false → Answered h 0x34 3 t)
        ∧ (s.trn.checking = false → s.whatifOk k.toNat w.toNat m.toNat = true →
            let u := s.count CNT_WV_CMD
            let rx := u.fitStrbuf (u.checkRuns s.trn.deck false) w.toNat m.toNat k.toNat
            let tx := u.fitLag (u.checkRuns s.trn.deck true) w.toNat m.toNat k.toNat
            let code := if rx then 5 else if tx then 6 else 0
            Answered h 0x34 0 t ∧ (h.path = .mailbox → ∃ d, RepliedInMailbox h 0x34 0 (beBytes 1 code ++ beBytes 1 0 ++ beBytes 2 d) s t ∧ (code = 0 → d = 0)))

/-- R226, R229, R233, R234, R298: the commands on virtual instances. -/
def Obligations.VirtualInstancesAreCommanded : Prop :=
  ∀ (s : State) (h : CmdHdr), TakesCommands s →
    (∀ (v host : Byte) (guest : Bool) (sh sb sc : Byte), ∃ t, exec (.viCreate h v host guest sh sb sc) s = .next t
        ∧ (v ≠ 0 → host.toNat ≤ 7 → s.getF (VI_ENT_STATE v.toNat) = 0 → Answered h 0x40 0 t ∧ t.getF (VI_ENT_STATE v.toNat) = 1
            ∧ t.getF (VI_ENT_HOST v.toNat) = host.toNat ∧ t.getB (VI_ENT_GUEST v.toNat) = guest ∧ t.getF (VI_ENT_GEN v.toNat) = s.getF (VI_ENT_GEN v.toNat)
            ∧ t.getF (VI_SHR_SHARE v.toNat) = sh.toNat ∧ t.getF (VI_SHR_SBASE4 v.toNat) = sb.toNat ∧ t.getF (VI_SHR_SCNT4 v.toNat) = sc.toNat
            ∧ PlainKept [VI_ENT v.toNat, VI_SHR v.toNat] s t)
        ∧ (v = 0 ∨ 7 < host.toNat → Answered h 0x40 3 t ∧ PlainKept [] s t)
        ∧ (v ≠ 0 → host.toNat ≤ 7 → s.getF (VI_ENT_STATE v.toNat) ≠ 0 → Answered h 0x40 5 t ∧ PlainKept [] s t))
    ∧ (∀ (n v : Byte) (off : Bool), n.toNat < 64 → (off = false → s.viActive v.toNat = true ∧ s.getB (VI_ENT_GUEST v.toNat) = false) →
        ∃ t, exec (.viBind h n v off) s = .next t
        ∧ (s.getB (MOV_RING_CFG_EN n.toNat) = false → Answered h 0x41 0 t ∧ t.getB (MOV_RING_CFG_BOUND n.toNat) = !off
            ∧ t.getF (MOV_RING_CFG_VI n.toNat) = (if off then 0 else v.toNat) ∧ t.getF (MOV_RING_CFG_LOG2SIZE n.toNat) = s.getF (MOV_RING_CFG_LOG2SIZE n.toNat)
            ∧ PlainKept [MOV_RING_CFG n.toNat] s t)
        ∧ (s.getB (MOV_RING_CFG_EN n.toNat) = true → Answered h 0x41 5 t ∧ PlainKept [] s t))
    ∧ (∀ v sh : Byte, ∃ t, exec (.viShare h v sh) s = .next t
        ∧ (s.viActive v.toNat = true → Answered h 0x42 0 t ∧ t.getF (VI_SHR_SHARE_NEXT v.toNat) = sh.toNat ∧ t.getB (VI_ENT_SHARE_PEND v.toNat) = true
            ∧ t.getF (VI_SHR_SHARE v.toNat) = s.getF (VI_SHR_SHARE v.toNat) ∧ PlainKept [VI_ENT v.toNat, VI_SHR v.toNat] s t)
        ∧ (s.viActive v.toNat = false → Answered h 0x42 5 t ∧ PlainKept [] s t))
    ∧ (∀ (v : Byte) (e : BitVec 64) (destroy : Bool), ∃ t, exec (if destroy then .viDestroy h v e else .viReset h v e) s = .next t ∧
        let opc := if destroy then 0x44 else 0x43
        (v ≠ 0 → s.getF (VI_ENT_STATE v.toNat) = 1 → s.tim.round < e.toNat → e.toNat ≤ s.tim.round + 255 →
            (destroy = true → s.run = false ∨ s.viNamed v.toNat = false) →
            Answered h opc 0 t ∧ t.getF (VI_ENT_STATE v.toNat) = (if destroy then 3 else 2) ∧ t.getF (VI_ENT_E8 v.toNat) = e.toNat % 256
            ∧ t.getF (VI_ENT_GEN v.toNat) = s.getF (VI_ENT_GEN v.toNat) ∧ PlainKept [VI_ENT v.toNat] s t)
        ∧ (v = 0 → Answered h opc 3 t ∧ PlainKept [] s t)
        ∧ (v ≠ 0 → s.getF (VI_ENT_STATE v.toNat) = 1 → e.toNat ≤ s.tim.round ∨ s.tim.round + 255 < e.toNat → Answered h opc 9 t ∧ PlainKept [] s t))
    ∧ (∀ (v : Byte) (last : Bool) (ent shr : Word), ∃ t, exec (.viRestore h v last ent shr) s = .next t
        ∧ (s.getB ID_SEAL_SEALED = true → Answered h 0x45 6 t ∧ PlainKept [] s t)
        ∧ (s.getB ID_SEAL_SEALED = false → v ≠ 0 → last = false → Answered h 0x45 0 t ∧ t.getF (VI_ENT_STATE v.toNat) = bitsOf ent.toNat 30 2
            ∧ t.getF (VI_ENT_GEN v.toNat) = bitsOf ent.toNat 16 10 ∧ t.getF (VI_ENT_E8 v.toNat) = bitsOf ent.toNat 0 8 ∧ t.rd (VI_SHR v.toNat) = shr.toNat
            ∧ PlainKept [VI_ENT v.toNat, VI_SHR v.toNat] s t)
        ∧ (s.getB ID_SEAL_SEALED = false → last = true → s.stage ≠ 2 → Answered h 0x45 0 t ∧ t.getB START_STATUS_VIOK = true))
    ∧ ∀ (v : Byte) (gen : BitVec 10) (nseq : Byte) (origin : BitVec 9), ∃ t, exec (.viNotice h v gen nseq origin) s = .next t ∧ PlainKept [] s t
        ∧ (s.far = true →
            let body := genBody false origin.toNat v.toNat gen.toNat nseq.toNat
            t.dlv.lc = s.dlv.lc ++ [⟨body, s.now⟩] ∧ t.tim = { s.tim with fwds := [⟨h, 0x46, body, 1⟩] } ∧ t.lme = s.lme)
        ∧ (s.far = false → Answered h 0x46 4 t ∧ t.tim = s.tim)

/-- R238, R241, R246, R272, R287: the last commands; R317–R321: packets. How a responder takes the lanes of its epoch is the model's reading (log entry 121). -/
def Obligations.GuestAndAgeingCommandsAndPackets : Prop :=
  ∀ (s : State) (h : CmdHdr),
    (TakesCommands s →
      (∀ (i : BitVec 16) (w0 w1 w2 w3 : Word), ∃ t, exec (.fwWindow h i w0 w1 w2 w3) s = .next t ∧ PlainKept [] s t
          ∧ (s.guestEdge = true → i.toNat < 4096 → Answered h 0x50 0 t
              ∧ ∀ w k, k < 4 → t.fwWord w k = if w = i.toNat then ([w0, w1, w2, w3].getD k 0 &&& fwMask k).toNat else s.fwWord w k)
          ∧ (s.guestEdge = true → 4096 ≤ i.toNat → Answered h 0x50 3 t ∧ t.fw = s.fw)
          ∧ (s.guestEdge = false → Answered h 0x50 4 t ∧ t.fw = s.fw))
      ∧ (∃ t, exec (.fwQclear h) s = .next t
          ∧ (s.guestEdge = true → Answered h 0x51 0 t ∧ t.getB FW_CTRL_QUAR = false ∧ t.getF FW_VIOL_COUNT = 0
              ∧ t.getB FW_CTRL_DBG_UNLOCK = s.getB FW_CTRL_DBG_UNLOCK ∧ .quarantine false ∈ t.out ∧ PlainKept [FW_CTRL, FW_VIOL] s t)
          ∧ (s.guestEdge = false → Answered h 0x51 4 t ∧ PlainKept [] s t))
      ∧ (∀ on : Bool, ∃ t, exec (.fwDbg h on) s = .next t
          ∧ (s.guestEdge = true → Answered h 0x52 0 t ∧ t.getB FW_CTRL_DBG_UNLOCK = on ∧ t.getB FW_CTRL_QUAR = s.getB FW_CTRL_QUAR
              ∧ PlainKept [FW_CTRL, AGE_LQ] s t)
          ∧ (s.guestEdge = false → Answered h 0x52 4 t ∧ PlainKept [] s t))
      ∧ (∃ t, exec (.checkpoint h) s = .next t ∧ Answered h 0x63 0 t ∧ PlainKept [] s t
          ∧ ∀ kept : List Rec, kept = s.age.recs.filter (fun r => !(r.isCkpt && r.sentAt.isNone)) →
              (kept.map (fun r => recSize r.payload.length)).sum + recSize 1032 + recSize (264 + 256 * s.lanes.length) ≤ 16384 →
              ∃ a b, t.age.recs = kept ++ [a, b] ∧ a.rtype = 8 ∧ b.rtype = 9 ∧ a.payload.take 4 = beBytes 4 0xFFFFFFFF ∧ b.payload.take 4 = beBytes 4 0xFFFFFFFF)
      ∧ (∃ t, exec (.epoch h) s = .next t ∧ Answered h 0x64 0 t
          ∧ (s.epochMay = false → PlainKept [] s t)
          ∧ (∀ l, s.epochMay = true → s.getB AGE_STATUS_ACTIVE = false → s.lnk.repair = none → s.age.sweep = none → s.getB LINK_STATUS_INITIATOR = false →
              l ∈ s.lanes → l ∈ s.mapList → s.getF (AGE_LANE_STAT_VERDICT l) ≠ 3 →
              t.getB AGE_STATUS_ACTIVE = true ∧ PlainKept [AGE_STATUS] s t
                ∧ (s.castleOk = false → ∃ w, t.age.sweep = some w ∧ w.lane ∈ s.mapList ∧ w.quiMeasured = true)
                ∧ (s.castleOk = true → t.age.sweep = none ∧ t.lnk = { s.lnk with qualified := [] })))
      ∧ (∀ (opc : Nat) (data : List Byte) (c : Instr), (opc = 0 ∧ data = [] ∧ c = .nop h) ∨ (∃ l, opc = 0x13 ∧ data = [l, 0, 0, 0] ∧ c = .retireLane h l)
            ∨ (∃ r : BitVec 64, opc = 0x31 ∧ data = beBytes 8 r.toNat ∧ c = .arm h r) →
          s.place < 256 → s.lme.asm = [] →
          let p := wvPacket opc 0 s.place h.origin.toNat h.tag.toNat 0 0 data
          (h.path = .core ∨ (h.path = .mgt ∧ s.far = false ∧ s.guestEdge = false) → exec (.wilvelPacketReceive h.path p) s = exec c s)
          ∧ (h.path = .mailbox → s.getB MBX_STATUS_CMDFULL = true → s.mbxBytes.take p.length = p →
            ∀ b, exec (.wilvelPacketReceive .mailbox b) s = exec c (s.setB MBX_STATUS_CMDFULL false))))
    ∧ (∀ b : List Byte, h.path ≠ .mailbox → b.length < 16 ∨ b.length < bytesAt b 6 2 →
        ∃ t, exec (.wilvelPacketReceive h.path b) s = .next t ∧ counted CNT_WV_BAD 1 s t ∧ OnlyRegs [CNT_WV_BAD.off] s t)
    ∧ (∀ b : List Byte, s.far = false → s.guestEdge = false → 16 ≤ b.length → bytesAt b 6 2 = b.length → b.length % 4 = 0 →
        byteAt b 2 ≠ s.place → byteAt b 2 ≠ 0xFF → s.xOpen 2 = true → exec (.wilvelPacketReceive .mgt b) s = .next { s with out := .packet .core b :: s.out })
    ∧ (∀ b : List Byte, s.getB MBX_STATUS_CMDFULL = false → exec (.wilvelPacketReceive .mailbox b) s = .next s)
    ∧ (∀ b : List Byte, s.getB MBX_STATUS_CMDFULL = true → bytesAt (beBytes 4 (s.rd (MBX_CMD 1))) 2 2 < 16 →
        ∃ t, exec (.wilvelPacketReceive .mailbox b) s = .next t ∧ t.getB MBX_STATUS_CMDFULL = false ∧ counted CNT_WV_BAD 1 s t
          ∧ PlainKept [MBX_STATUS] s t)
end

