-- ==== Sys2Proof/Laws/Sparse.lean ====
section
/-! SUPPORT. The laws of the sparse memory: a read after a write, and that every operation keeps the canonical form. -/

namespace Sys2Proof.Machine

/-- Every listed address of a canonical memory that starts above `a` is above `a`. -/
theorem Sparse.wf_tail {k : Nat} {v : Word} {r : Sparse} (h : Sparse.wf ((k, v) :: r) = true) : Sparse.wf r = true := by
  cases r with
  | nil => rfl
  | cons p r => simp only [Sparse.wf, Bool.and_eq_true] at h; exact h.2

/-- The first word of a canonical memory is not zero. -/
theorem Sparse.wf_head {k : Nat} {v : Word} {r : Sparse} (h : Sparse.wf ((k, v) :: r) = true) : v ≠ 0 := by
  cases r with
  | nil => simpa [Sparse.wf] using h
  | cons p r => simp only [Sparse.wf, Bool.and_eq_true, bne_iff_ne] at h; exact h.1.1

/-- Addresses rise from the first to the second entry. -/
theorem Sparse.wf_lt {k k' : Nat} {v v' : Word} {r : Sparse} (h : Sparse.wf ((k, v) :: (k', v') :: r) = true) : k < k' := by
  simp only [Sparse.wf, Bool.and_eq_true, decide_eq_true_eq] at h; exact h.1.2

/-- A canonical memory is made of a non-zero first word and a canonical rest above it. -/
theorem Sparse.wf_cons {k : Nat} {v : Word} {r : Sparse} (hv : v ≠ 0) (hr : Sparse.wf r = true) (hk : ∀ p ∈ r.head?, k < p.1) :
    Sparse.wf ((k, v) :: r) = true := by
  cases r with
  | nil => simpa [Sparse.wf] using hv
  | cons p r =>
    have := hk p (by simp)
    simp only [Sparse.wf, Bool.and_eq_true, bne_iff_ne, decide_eq_true_eq]
    exact ⟨⟨hv, this⟩, hr⟩

/-- Every address of the rest lies above the first. -/
theorem Sparse.wf_above {k : Nat} {v : Word} {r : Sparse} (h : Sparse.wf ((k, v) :: r) = true) : ∀ p ∈ r, k < p.1 := by
  induction r generalizing k v with
  | nil => simp
  | cons q r ih =>
    intro p hp
    have h1 := Sparse.wf_lt h
    rcases List.mem_cons.1 hp with rfl | hp
    · exact h1
    · exact Nat.lt_trans h1 (ih (Sparse.wf_tail h) p hp)

/-- Where the entries of a memory with one word entered lie. -/
theorem Sparse.mem_put {m : Sparse} {a : Nat} {v : Word} {p : Nat × Word} (h : p ∈ Sparse.put m a v) : p = (a, v) ∨ p ∈ m := by
  induction m with
  | nil => exact .inl (List.mem_singleton.1 h)
  | cons q r ih =>
    obtain ⟨k, w⟩ := q
    simp only [Sparse.put] at h
    split at h
    · exact List.mem_cons.1 h
    · split at h
      · rcases List.mem_cons.1 h with h | h
        · exact .inl h
        · exact .inr (List.mem_cons_of_mem _ h)
      · rcases List.mem_cons.1 h with h | h
        · exact .inr (by simp [h])
        · exact (ih h).imp id (List.mem_cons_of_mem _)

/-- Entering a non-zero word keeps the canonical form. -/
theorem Sparse.put_wf {m : Sparse} (h : m.wf = true) (a : Nat) {v : Word} (hv : v ≠ 0) : (Sparse.put m a v).wf = true := by
  induction m with
  | nil => simpa [Sparse.put, Sparse.wf] using hv
  | cons q r ih =>
    obtain ⟨k, w⟩ := q
    have hr := Sparse.wf_tail h
    have hab := Sparse.wf_above h
    simp only [Sparse.put]
    split
    · rename_i hak
      exact Sparse.wf_cons hv h (by intro p hp; simp at hp; subst hp; exact hak)
    · split
      · rename_i hk
        subst hk
        exact Sparse.wf_cons hv hr (fun p hp => hab p (List.mem_of_mem_head? hp))
      · refine Sparse.wf_cons (Sparse.wf_head h) (ih hr) (fun p hp => ?_)
        rcases Sparse.mem_put (List.mem_of_mem_head? hp) with rfl | hp
        · simp only; omega
        · exact hab p hp

/-- A selection of the entries of a canonical memory is canonical. -/
theorem Sparse.filter_wf {m : Sparse} (h : m.wf = true) (p : Nat × Word → Bool) : Sparse.wf (List.filter p m) = true := by
  induction m with
  | nil => rfl
  | cons q r ih =>
    obtain ⟨k, w⟩ := q
    have hr := ih (Sparse.wf_tail h)
    simp only [List.filter]
    split
    · exact Sparse.wf_cons (Sparse.wf_head h) hr
        (fun x hx => Sparse.wf_above h x (List.mem_filter.1 (List.mem_of_mem_head? hx)).1)
    · exact hr

/-- Writing one word keeps the canonical form. -/
theorem Sparse.set_wf {m : Sparse} (h : m.wf = true) (a : Nat) (v : Word) : (m.set a v).wf = true := by
  unfold Sparse.set
  split
  · exact Sparse.filter_wf h _
  · rename_i hv; exact Sparse.put_wf h a hv

/-- Writing a list of words keeps the canonical form. -/
theorem Sparse.setAll_wf {m : Sparse} (h : m.wf = true) (l : List (Nat × Word)) : (m.setAll l).wf = true := by
  induction l generalizing m with
  | nil => exact h
  | cons p l ih => exact ih (Sparse.set_wf h p.1 p.2)

/-- Removing entries keeps the canonical form. -/
theorem Sparse.clear_wf {m : Sparse} (h : m.wf = true) (p : Nat → Bool) : (m.clear p).wf = true := Sparse.filter_wf h _

/-- The word at an address after entries elsewhere have been removed or kept by address. -/
theorem Sparse.get_filter (m : Sparse) (p : Nat → Bool) (b : Nat) :
    Sparse.get (List.filter (fun e => p e.1) m) b = if p b then m.get b else 0 := by
  induction m with
  | nil => simp [Sparse.get]
  | cons q r ih =>
    obtain ⟨k, w⟩ := q
    by_cases hk : p k
    · by_cases hb : b = k
      · subst hb; simp [List.filter, hk, Sparse.get]
      · simp [List.filter, hk, Sparse.get, hb, ih]
    · by_cases hb : b = k
      · subst hb; simp [List.filter, hk, ih]
      · simp [List.filter, hk, Sparse.get, hb, ih]

/-- The word at an address after a word has been entered. -/
theorem Sparse.get_put (m : Sparse) (a b : Nat) (v : Word) : (Sparse.put m a v).get b = if b = a then v else m.get b := by
  induction m with
  | nil => simp [Sparse.put, Sparse.get]
  | cons q r ih =>
    obtain ⟨k, w⟩ := q
    simp only [Sparse.put]
    split
    · simp [Sparse.get]
    · split
      · rename_i h; subst h; by_cases hb : b = a <;> simp [Sparse.get, hb]
      · rename_i h
        by_cases hb : b = k
        · subst hb; simp [Sparse.get]; intro h'; exact absurd h'.symm h
        · simp [Sparse.get, hb, ih]

/-- A read after a write to the same address gives the value written; every other address reads as before. -/
theorem Sparse.get_set (m : Sparse) (a b : Nat) (v : Word) : (m.set a v).get b = if b = a then v else m.get b := by
  unfold Sparse.set
  split
  · rename_i hv
    subst hv
    have := Sparse.get_filter m (fun k => k != a) b
    rw [this]
    by_cases hb : b = a <;> simp [hb]
  · exact Sparse.get_put m a b v

/-- Removed addresses read zero, and every other address reads as before. -/
theorem Sparse.get_clear (m : Sparse) (p : Nat → Bool) (b : Nat) : (m.clear p).get b = if p b then 0 else m.get b := by
  have := Sparse.get_filter m (fun k => !p k) b
  unfold Sparse.clear
  rw [this]
  cases p b <;> simp

/-- The empty memory is canonical. -/
theorem Sparse.nil_wf : Sparse.wf [] = true := rfl

end Sys2Proof.Machine
end

