-- ==== Sys2Proof/Laws/State.lean ====
section
/-! SUPPORT. What each update of the state leaves as it was, field by field, and what a register reads after it. -/

namespace Sys2Proof.Machine

/-! ### Writing registers changes the register window alone -/

@[simp] theorem State.wr_pending (s : State) (a v : Nat) : (s.wr a v).pending = s.pending := rfl
@[simp] theorem State.setF_pending (s : State) (f : Fld) (n : Nat) : (s.setF f n).pending = s.pending := rfl
@[simp] theorem State.setB_pending (s : State) (f : Fld) (b : Bool) : (s.setB f b).pending = s.pending := rfl
@[simp] theorem State.putW_pending (s : State) (w : Wide) (v : Nat) : (s.putW w v).pending = s.pending := rfl
@[simp] theorem State.count_pending (s : State) (c : Cnt) (n : Nat) : (s.count c n).pending = s.pending := by unfold State.count State.keepOver; simp only; split <;> split <;> rfl
@[simp] theorem State.bump_pending (s : State) (f : Fld) (n : Nat) : (s.bump f n).pending = s.pending := rfl
@[simp] theorem State.setFs_pending (s : State) (l : List (Fld × Nat)) : (s.setFs l).pending = s.pending := by
  induction l generalizing s with
  | nil => rfl
  | cons p l ih => exact ih (s.setF p.1 p.2)

@[simp] theorem State.wr_place (s : State) (a v : Nat) : (s.wr a v).place = s.place := rfl
@[simp] theorem State.setF_place (s : State) (f : Fld) (n : Nat) : (s.setF f n).place = s.place := rfl
@[simp] theorem State.setB_place (s : State) (f : Fld) (b : Bool) : (s.setB f b).place = s.place := rfl
@[simp] theorem State.putW_place (s : State) (w : Wide) (v : Nat) : (s.putW w v).place = s.place := rfl
@[simp] theorem State.count_place (s : State) (c : Cnt) (n : Nat) : (s.count c n).place = s.place := by unfold State.count State.keepOver; simp only; split <;> split <;> rfl
@[simp] theorem State.bump_place (s : State) (f : Fld) (n : Nat) : (s.bump f n).place = s.place := rfl
@[simp] theorem State.setFs_place (s : State) (l : List (Fld × Nat)) : (s.setFs l).place = s.place := by
  induction l generalizing s with
  | nil => rfl
  | cons p l ih => exact ih (s.setF p.1 p.2)

@[simp] theorem State.wr_now (s : State) (a v : Nat) : (s.wr a v).now = s.now := rfl
@[simp] theorem State.setF_now (s : State) (f : Fld) (n : Nat) : (s.setF f n).now = s.now := rfl
@[simp] theorem State.setB_now (s : State) (f : Fld) (b : Bool) : (s.setB f b).now = s.now := rfl
@[simp] theorem State.putW_now (s : State) (w : Wide) (v : Nat) : (s.putW w v).now = s.now := rfl
@[simp] theorem State.count_now (s : State) (c : Cnt) (n : Nat) : (s.count c n).now = s.now := by unfold State.count State.keepOver; simp only; split <;> split <;> rfl
@[simp] theorem State.bump_now (s : State) (f : Fld) (n : Nat) : (s.bump f n).now = s.now := rfl
@[simp] theorem State.setFs_now (s : State) (l : List (Fld × Nat)) : (s.setFs l).now = s.now := by
  induction l generalizing s with
  | nil => rfl
  | cons p l ih => exact ih (s.setF p.1 p.2)

@[simp] theorem State.wr_die (s : State) (a v : Nat) : (s.wr a v).die = s.die := rfl
@[simp] theorem State.setF_die (s : State) (f : Fld) (n : Nat) : (s.setF f n).die = s.die := rfl
@[simp] theorem State.setB_die (s : State) (f : Fld) (b : Bool) : (s.setB f b).die = s.die := rfl
@[simp] theorem State.putW_die (s : State) (w : Wide) (v : Nat) : (s.putW w v).die = s.die := rfl
@[simp] theorem State.count_die (s : State) (c : Cnt) (n : Nat) : (s.count c n).die = s.die := by unfold State.count State.keepOver; simp only; split <;> split <;> rfl
@[simp] theorem State.bump_die (s : State) (f : Fld) (n : Nat) : (s.bump f n).die = s.die := rfl
@[simp] theorem State.setFs_die (s : State) (l : List (Fld × Nat)) : (s.setFs l).die = s.die := by
  induction l generalizing s with
  | nil => rfl
  | cons p l ih => exact ih (s.setF p.1 p.2)

@[simp] theorem State.wr_free (s : State) (a v : Nat) : (s.wr a v).free = s.free := rfl
@[simp] theorem State.setF_free (s : State) (f : Fld) (n : Nat) : (s.setF f n).free = s.free := rfl
@[simp] theorem State.setB_free (s : State) (f : Fld) (b : Bool) : (s.setB f b).free = s.free := rfl
@[simp] theorem State.putW_free (s : State) (w : Wide) (v : Nat) : (s.putW w v).free = s.free := rfl
@[simp] theorem State.count_free (s : State) (c : Cnt) (n : Nat) : (s.count c n).free = s.free := by unfold State.count State.keepOver; simp only; split <;> split <;> rfl
@[simp] theorem State.bump_free (s : State) (f : Fld) (n : Nat) : (s.bump f n).free = s.free := rfl
@[simp] theorem State.setFs_free (s : State) (l : List (Fld × Nat)) : (s.setFs l).free = s.free := by
  induction l generalizing s with
  | nil => rfl
  | cons p l ih => exact ih (s.setF p.1 p.2)

@[simp] theorem State.wr_shadow (s : State) (a v : Nat) : (s.wr a v).shadow = s.shadow := rfl
@[simp] theorem State.setF_shadow (s : State) (f : Fld) (n : Nat) : (s.setF f n).shadow = s.shadow := rfl
@[simp] theorem State.setB_shadow (s : State) (f : Fld) (b : Bool) : (s.setB f b).shadow = s.shadow := rfl
@[simp] theorem State.putW_shadow (s : State) (w : Wide) (v : Nat) : (s.putW w v).shadow = s.shadow := rfl
@[simp] theorem State.count_shadow (s : State) (c : Cnt) (n : Nat) : (s.count c n).shadow = s.shadow := by unfold State.count State.keepOver; simp only; split <;> split <;> rfl
@[simp] theorem State.bump_shadow (s : State) (f : Fld) (n : Nat) : (s.bump f n).shadow = s.shadow := rfl
@[simp] theorem State.setFs_shadow (s : State) (l : List (Fld × Nat)) : (s.setFs l).shadow = s.shadow := by
  induction l generalizing s with
  | nil => rfl
  | cons p l ih => exact ih (s.setF p.1 p.2)

@[simp] theorem State.wr_held (s : State) (a v : Nat) : (s.wr a v).held = s.held := rfl
@[simp] theorem State.setF_held (s : State) (f : Fld) (n : Nat) : (s.setF f n).held = s.held := rfl
@[simp] theorem State.setB_held (s : State) (f : Fld) (b : Bool) : (s.setB f b).held = s.held := rfl
@[simp] theorem State.putW_held (s : State) (w : Wide) (v : Nat) : (s.putW w v).held = s.held := rfl
@[simp] theorem State.count_held (s : State) (c : Cnt) (n : Nat) : (s.count c n).held = s.held := by unfold State.count State.keepOver; simp only; split <;> split <;> rfl
@[simp] theorem State.bump_held (s : State) (f : Fld) (n : Nat) : (s.bump f n).held = s.held := rfl
@[simp] theorem State.setFs_held (s : State) (l : List (Fld × Nat)) : (s.setFs l).held = s.held := by
  induction l generalizing s with
  | nil => rfl
  | cons p l ih => exact ih (s.setF p.1 p.2)

@[simp] theorem State.wr_dlv (s : State) (a v : Nat) : (s.wr a v).dlv = s.dlv := rfl
@[simp] theorem State.setF_dlv (s : State) (f : Fld) (n : Nat) : (s.setF f n).dlv = s.dlv := rfl
@[simp] theorem State.setB_dlv (s : State) (f : Fld) (b : Bool) : (s.setB f b).dlv = s.dlv := rfl
@[simp] theorem State.putW_dlv (s : State) (w : Wide) (v : Nat) : (s.putW w v).dlv = s.dlv := rfl
@[simp] theorem State.count_dlv (s : State) (c : Cnt) (n : Nat) : (s.count c n).dlv = s.dlv := by unfold State.count State.keepOver; simp only; split <;> split <;> rfl
@[simp] theorem State.bump_dlv (s : State) (f : Fld) (n : Nat) : (s.bump f n).dlv = s.dlv := rfl
@[simp] theorem State.setFs_dlv (s : State) (l : List (Fld × Nat)) : (s.setFs l).dlv = s.dlv := by
  induction l generalizing s with
  | nil => rfl
  | cons p l ih => exact ih (s.setF p.1 p.2)

@[simp] theorem State.wr_lnk (s : State) (a v : Nat) : (s.wr a v).lnk = s.lnk := rfl
@[simp] theorem State.setF_lnk (s : State) (f : Fld) (n : Nat) : (s.setF f n).lnk = s.lnk := rfl
@[simp] theorem State.setB_lnk (s : State) (f : Fld) (b : Bool) : (s.setB f b).lnk = s.lnk := rfl
@[simp] theorem State.putW_lnk (s : State) (w : Wide) (v : Nat) : (s.putW w v).lnk = s.lnk := rfl
@[simp] theorem State.count_lnk (s : State) (c : Cnt) (n : Nat) : (s.count c n).lnk = s.lnk := by unfold State.count State.keepOver; simp only; split <;> split <;> rfl
@[simp] theorem State.bump_lnk (s : State) (f : Fld) (n : Nat) : (s.bump f n).lnk = s.lnk := rfl
@[simp] theorem State.setFs_lnk (s : State) (l : List (Fld × Nat)) : (s.setFs l).lnk = s.lnk := by
  induction l generalizing s with
  | nil => rfl
  | cons p l ih => exact ih (s.setF p.1 p.2)

@[simp] theorem State.wr_tim (s : State) (a v : Nat) : (s.wr a v).tim = s.tim := rfl
@[simp] theorem State.setF_tim (s : State) (f : Fld) (n : Nat) : (s.setF f n).tim = s.tim := rfl
@[simp] theorem State.setB_tim (s : State) (f : Fld) (b : Bool) : (s.setB f b).tim = s.tim := rfl
@[simp] theorem State.putW_tim (s : State) (w : Wide) (v : Nat) : (s.putW w v).tim = s.tim := rfl
@[simp] theorem State.count_tim (s : State) (c : Cnt) (n : Nat) : (s.count c n).tim = s.tim := by unfold State.count State.keepOver; simp only; split <;> split <;> rfl
@[simp] theorem State.bump_tim (s : State) (f : Fld) (n : Nat) : (s.bump f n).tim = s.tim := rfl
@[simp] theorem State.setFs_tim (s : State) (l : List (Fld × Nat)) : (s.setFs l).tim = s.tim := by
  induction l generalizing s with
  | nil => rfl
  | cons p l ih => exact ih (s.setF p.1 p.2)

@[simp] theorem State.wr_trn (s : State) (a v : Nat) : (s.wr a v).trn = s.trn := rfl
@[simp] theorem State.setF_trn (s : State) (f : Fld) (n : Nat) : (s.setF f n).trn = s.trn := rfl
@[simp] theorem State.setB_trn (s : State) (f : Fld) (b : Bool) : (s.setB f b).trn = s.trn := rfl
@[simp] theorem State.putW_trn (s : State) (w : Wide) (v : Nat) : (s.putW w v).trn = s.trn := rfl
@[simp] theorem State.count_trn (s : State) (c : Cnt) (n : Nat) : (s.count c n).trn = s.trn := by unfold State.count State.keepOver; simp only; split <;> split <;> rfl
@[simp] theorem State.bump_trn (s : State) (f : Fld) (n : Nat) : (s.bump f n).trn = s.trn := rfl
@[simp] theorem State.setFs_trn (s : State) (l : List (Fld × Nat)) : (s.setFs l).trn = s.trn := by
  induction l generalizing s with
  | nil => rfl
  | cons p l ih => exact ih (s.setF p.1 p.2)

@[simp] theorem State.wr_mov (s : State) (a v : Nat) : (s.wr a v).mov = s.mov := rfl
@[simp] theorem State.setF_mov (s : State) (f : Fld) (n : Nat) : (s.setF f n).mov = s.mov := rfl
@[simp] theorem State.setB_mov (s : State) (f : Fld) (b : Bool) : (s.setB f b).mov = s.mov := rfl
@[simp] theorem State.putW_mov (s : State) (w : Wide) (v : Nat) : (s.putW w v).mov = s.mov := rfl
@[simp] theorem State.count_mov (s : State) (c : Cnt) (n : Nat) : (s.count c n).mov = s.mov := by unfold State.count State.keepOver; simp only; split <;> split <;> rfl
@[simp] theorem State.bump_mov (s : State) (f : Fld) (n : Nat) : (s.bump f n).mov = s.mov := rfl
@[simp] theorem State.setFs_mov (s : State) (l : List (Fld × Nat)) : (s.setFs l).mov = s.mov := by
  induction l generalizing s with
  | nil => rfl
  | cons p l ih => exact ih (s.setF p.1 p.2)

@[simp] theorem State.wr_fold (s : State) (a v : Nat) : (s.wr a v).fold = s.fold := rfl
@[simp] theorem State.setF_fold (s : State) (f : Fld) (n : Nat) : (s.setF f n).fold = s.fold := rfl
@[simp] theorem State.setB_fold (s : State) (f : Fld) (b : Bool) : (s.setB f b).fold = s.fold := rfl
@[simp] theorem State.putW_fold (s : State) (w : Wide) (v : Nat) : (s.putW w v).fold = s.fold := rfl
@[simp] theorem State.count_fold (s : State) (c : Cnt) (n : Nat) : (s.count c n).fold = s.fold := by unfold State.count State.keepOver; simp only; split <;> split <;> rfl
@[simp] theorem State.bump_fold (s : State) (f : Fld) (n : Nat) : (s.bump f n).fold = s.fold := rfl
@[simp] theorem State.setFs_fold (s : State) (l : List (Fld × Nat)) : (s.setFs l).fold = s.fold := by
  induction l generalizing s with
  | nil => rfl
  | cons p l ih => exact ih (s.setF p.1 p.2)

@[simp] theorem State.wr_fw (s : State) (a v : Nat) : (s.wr a v).fw = s.fw := rfl
@[simp] theorem State.setF_fw (s : State) (f : Fld) (n : Nat) : (s.setF f n).fw = s.fw := rfl
@[simp] theorem State.setB_fw (s : State) (f : Fld) (b : Bool) : (s.setB f b).fw = s.fw := rfl
@[simp] theorem State.putW_fw (s : State) (w : Wide) (v : Nat) : (s.putW w v).fw = s.fw := rfl
@[simp] theorem State.count_fw (s : State) (c : Cnt) (n : Nat) : (s.count c n).fw = s.fw := by unfold State.count State.keepOver; simp only; split <;> split <;> rfl
@[simp] theorem State.bump_fw (s : State) (f : Fld) (n : Nat) : (s.bump f n).fw = s.fw := rfl
@[simp] theorem State.setFs_fw (s : State) (l : List (Fld × Nat)) : (s.setFs l).fw = s.fw := by
  induction l generalizing s with
  | nil => rfl
  | cons p l ih => exact ih (s.setF p.1 p.2)

@[simp] theorem State.wr_pod (s : State) (a v : Nat) : (s.wr a v).pod = s.pod := rfl
@[simp] theorem State.setF_pod (s : State) (f : Fld) (n : Nat) : (s.setF f n).pod = s.pod := rfl
@[simp] theorem State.setB_pod (s : State) (f : Fld) (b : Bool) : (s.setB f b).pod = s.pod := rfl
@[simp] theorem State.putW_pod (s : State) (w : Wide) (v : Nat) : (s.putW w v).pod = s.pod := rfl
@[simp] theorem State.count_pod (s : State) (c : Cnt) (n : Nat) : (s.count c n).pod = s.pod := by unfold State.count State.keepOver; simp only; split <;> split <;> rfl
@[simp] theorem State.bump_pod (s : State) (f : Fld) (n : Nat) : (s.bump f n).pod = s.pod := rfl
@[simp] theorem State.setFs_pod (s : State) (l : List (Fld × Nat)) : (s.setFs l).pod = s.pod := by
  induction l generalizing s with
  | nil => rfl
  | cons p l ih => exact ih (s.setF p.1 p.2)

@[simp] theorem State.wr_isl (s : State) (a v : Nat) : (s.wr a v).isl = s.isl := rfl
@[simp] theorem State.setF_isl (s : State) (f : Fld) (n : Nat) : (s.setF f n).isl = s.isl := rfl
@[simp] theorem State.setB_isl (s : State) (f : Fld) (b : Bool) : (s.setB f b).isl = s.isl := rfl
@[simp] theorem State.putW_isl (s : State) (w : Wide) (v : Nat) : (s.putW w v).isl = s.isl := rfl
@[simp] theorem State.count_isl (s : State) (c : Cnt) (n : Nat) : (s.count c n).isl = s.isl := by unfold State.count State.keepOver; simp only; split <;> split <;> rfl
@[simp] theorem State.bump_isl (s : State) (f : Fld) (n : Nat) : (s.bump f n).isl = s.isl := rfl
@[simp] theorem State.setFs_isl (s : State) (l : List (Fld × Nat)) : (s.setFs l).isl = s.isl := by
  induction l generalizing s with
  | nil => rfl
  | cons p l ih => exact ih (s.setF p.1 p.2)

@[simp] theorem State.wr_age (s : State) (a v : Nat) : (s.wr a v).age = s.age := rfl
@[simp] theorem State.setF_age (s : State) (f : Fld) (n : Nat) : (s.setF f n).age = s.age := rfl
@[simp] theorem State.setB_age (s : State) (f : Fld) (b : Bool) : (s.setB f b).age = s.age := rfl
@[simp] theorem State.putW_age (s : State) (w : Wide) (v : Nat) : (s.putW w v).age = s.age := rfl
@[simp] theorem State.count_age (s : State) (c : Cnt) (n : Nat) : (s.count c n).age = s.age := by unfold State.count State.keepOver; simp only; split <;> split <;> rfl
@[simp] theorem State.bump_age (s : State) (f : Fld) (n : Nat) : (s.bump f n).age = s.age := rfl
@[simp] theorem State.setFs_age (s : State) (l : List (Fld × Nat)) : (s.setFs l).age = s.age := by
  induction l generalizing s with
  | nil => rfl
  | cons p l ih => exact ih (s.setF p.1 p.2)

@[simp] theorem State.wr_strt (s : State) (a v : Nat) : (s.wr a v).strt = s.strt := rfl
@[simp] theorem State.setF_strt (s : State) (f : Fld) (n : Nat) : (s.setF f n).strt = s.strt := rfl
@[simp] theorem State.setB_strt (s : State) (f : Fld) (b : Bool) : (s.setB f b).strt = s.strt := rfl
@[simp] theorem State.putW_strt (s : State) (w : Wide) (v : Nat) : (s.putW w v).strt = s.strt := rfl
@[simp] theorem State.count_strt (s : State) (c : Cnt) (n : Nat) : (s.count c n).strt = s.strt := by unfold State.count State.keepOver; simp only; split <;> split <;> rfl
@[simp] theorem State.bump_strt (s : State) (f : Fld) (n : Nat) : (s.bump f n).strt = s.strt := rfl
@[simp] theorem State.setFs_strt (s : State) (l : List (Fld × Nat)) : (s.setFs l).strt = s.strt := by
  induction l generalizing s with
  | nil => rfl
  | cons p l ih => exact ih (s.setF p.1 p.2)

@[simp] theorem State.wr_lme (s : State) (a v : Nat) : (s.wr a v).lme = s.lme := rfl
@[simp] theorem State.setF_lme (s : State) (f : Fld) (n : Nat) : (s.setF f n).lme = s.lme := rfl
@[simp] theorem State.setB_lme (s : State) (f : Fld) (b : Bool) : (s.setB f b).lme = s.lme := rfl
@[simp] theorem State.putW_lme (s : State) (w : Wide) (v : Nat) : (s.putW w v).lme = s.lme := rfl
@[simp] theorem State.count_lme (s : State) (c : Cnt) (n : Nat) : (s.count c n).lme = s.lme := by unfold State.count State.keepOver; simp only; split <;> split <;> rfl
@[simp] theorem State.bump_lme (s : State) (f : Fld) (n : Nat) : (s.bump f n).lme = s.lme := rfl
@[simp] theorem State.setFs_lme (s : State) (l : List (Fld × Nat)) : (s.setFs l).lme = s.lme := by
  induction l generalizing s with
  | nil => rfl
  | cons p l ih => exact ih (s.setF p.1 p.2)

@[simp] theorem State.wr_evq (s : State) (a v : Nat) : (s.wr a v).evq = s.evq := rfl
@[simp] theorem State.setF_evq (s : State) (f : Fld) (n : Nat) : (s.setF f n).evq = s.evq := rfl
@[simp] theorem State.setB_evq (s : State) (f : Fld) (b : Bool) : (s.setB f b).evq = s.evq := rfl
@[simp] theorem State.putW_evq (s : State) (w : Wide) (v : Nat) : (s.putW w v).evq = s.evq := rfl
@[simp] theorem State.count_evq (s : State) (c : Cnt) (n : Nat) : (s.count c n).evq = s.evq := by unfold State.count State.keepOver; simp only; split <;> split <;> rfl
@[simp] theorem State.bump_evq (s : State) (f : Fld) (n : Nat) : (s.bump f n).evq = s.evq := rfl
@[simp] theorem State.setFs_evq (s : State) (l : List (Fld × Nat)) : (s.setFs l).evq = s.evq := by
  induction l generalizing s with
  | nil => rfl
  | cons p l ih => exact ih (s.setF p.1 p.2)

@[simp] theorem State.wr_trq (s : State) (a v : Nat) : (s.wr a v).trq = s.trq := rfl
@[simp] theorem State.setF_trq (s : State) (f : Fld) (n : Nat) : (s.setF f n).trq = s.trq := rfl
@[simp] theorem State.setB_trq (s : State) (f : Fld) (b : Bool) : (s.setB f b).trq = s.trq := rfl
@[simp] theorem State.putW_trq (s : State) (w : Wide) (v : Nat) : (s.putW w v).trq = s.trq := rfl
@[simp] theorem State.count_trq (s : State) (c : Cnt) (n : Nat) : (s.count c n).trq = s.trq := by unfold State.count State.keepOver; simp only; split <;> split <;> rfl
@[simp] theorem State.bump_trq (s : State) (f : Fld) (n : Nat) : (s.bump f n).trq = s.trq := rfl
@[simp] theorem State.setFs_trq (s : State) (l : List (Fld × Nat)) : (s.setFs l).trq = s.trq := by
  induction l generalizing s with
  | nil => rfl
  | cons p l ih => exact ih (s.setF p.1 p.2)

@[simp] theorem State.wr_violAt (s : State) (a v : Nat) : (s.wr a v).violAt = s.violAt := rfl
@[simp] theorem State.setF_violAt (s : State) (f : Fld) (n : Nat) : (s.setF f n).violAt = s.violAt := rfl
@[simp] theorem State.setB_violAt (s : State) (f : Fld) (b : Bool) : (s.setB f b).violAt = s.violAt := rfl
@[simp] theorem State.putW_violAt (s : State) (w : Wide) (v : Nat) : (s.putW w v).violAt = s.violAt := rfl
@[simp] theorem State.count_violAt (s : State) (c : Cnt) (n : Nat) : (s.count c n).violAt = s.violAt := by unfold State.count State.keepOver; simp only; split <;> split <;> rfl
@[simp] theorem State.bump_violAt (s : State) (f : Fld) (n : Nat) : (s.bump f n).violAt = s.violAt := rfl
@[simp] theorem State.setFs_violAt (s : State) (l : List (Fld × Nat)) : (s.setFs l).violAt = s.violAt := by
  induction l generalizing s with
  | nil => rfl
  | cons p l ih => exact ih (s.setF p.1 p.2)

@[simp] theorem State.wr_beyond (s : State) (a v : Nat) : (s.wr a v).beyond = s.beyond := rfl
@[simp] theorem State.setF_beyond (s : State) (f : Fld) (n : Nat) : (s.setF f n).beyond = s.beyond := rfl
@[simp] theorem State.setB_beyond (s : State) (f : Fld) (b : Bool) : (s.setB f b).beyond = s.beyond := rfl
@[simp] theorem State.putW_beyond (s : State) (w : Wide) (v : Nat) : (s.putW w v).beyond = s.beyond := rfl
@[simp] theorem State.bump_beyond (s : State) (f : Fld) (n : Nat) : (s.bump f n).beyond = s.beyond := rfl
@[simp] theorem State.setFs_beyond (s : State) (l : List (Fld × Nat)) : (s.setFs l).beyond = s.beyond := by
  induction l generalizing s with
  | nil => rfl
  | cons p l ih => exact ih (s.setF p.1 p.2)

@[simp] theorem State.wr_out (s : State) (a v : Nat) : (s.wr a v).out = s.out := rfl
@[simp] theorem State.setF_out (s : State) (f : Fld) (n : Nat) : (s.setF f n).out = s.out := rfl
@[simp] theorem State.setB_out (s : State) (f : Fld) (b : Bool) : (s.setB f b).out = s.out := rfl
@[simp] theorem State.putW_out (s : State) (w : Wide) (v : Nat) : (s.putW w v).out = s.out := rfl
@[simp] theorem State.count_out (s : State) (c : Cnt) (n : Nat) : (s.count c n).out = s.out := by unfold State.count State.keepOver; simp only; split <;> split <;> rfl
@[simp] theorem State.bump_out (s : State) (f : Fld) (n : Nat) : (s.bump f n).out = s.out := rfl
@[simp] theorem State.setFs_out (s : State) (l : List (Fld × Nat)) : (s.setFs l).out = s.out := by
  induction l generalizing s with
  | nil => rfl
  | cons p l ih => exact ih (s.setF p.1 p.2)

/-! ### What a source keeps while the management clock stands -/

@[simp] theorem State.keepOver_pending (s : State) (a n : Nat) : (s.keepOver a n).pending = s.pending := by unfold State.keepOver; split <;> rfl
@[simp] theorem State.keepOver_place (s : State) (a n : Nat) : (s.keepOver a n).place = s.place := by unfold State.keepOver; split <;> rfl
@[simp] theorem State.keepOver_now (s : State) (a n : Nat) : (s.keepOver a n).now = s.now := by unfold State.keepOver; split <;> rfl
@[simp] theorem State.keepOver_die (s : State) (a n : Nat) : (s.keepOver a n).die = s.die := by unfold State.keepOver; split <;> rfl
@[simp] theorem State.keepOver_free (s : State) (a n : Nat) : (s.keepOver a n).free = s.free := by unfold State.keepOver; split <;> rfl
@[simp] theorem State.keepOver_regs (s : State) (a n : Nat) : (s.keepOver a n).regs = s.regs := by unfold State.keepOver; split <;> rfl
@[simp] theorem State.keepOver_shadow (s : State) (a n : Nat) : (s.keepOver a n).shadow = s.shadow := by unfold State.keepOver; split <;> rfl
@[simp] theorem State.keepOver_held (s : State) (a n : Nat) : (s.keepOver a n).held = s.held := by unfold State.keepOver; split <;> rfl
@[simp] theorem State.keepOver_dlv (s : State) (a n : Nat) : (s.keepOver a n).dlv = s.dlv := by unfold State.keepOver; split <;> rfl
@[simp] theorem State.keepOver_lnk (s : State) (a n : Nat) : (s.keepOver a n).lnk = s.lnk := by unfold State.keepOver; split <;> rfl
@[simp] theorem State.keepOver_tim (s : State) (a n : Nat) : (s.keepOver a n).tim = s.tim := by unfold State.keepOver; split <;> rfl
@[simp] theorem State.keepOver_trn (s : State) (a n : Nat) : (s.keepOver a n).trn = s.trn := by unfold State.keepOver; split <;> rfl
@[simp] theorem State.keepOver_mov (s : State) (a n : Nat) : (s.keepOver a n).mov = s.mov := by unfold State.keepOver; split <;> rfl
@[simp] theorem State.keepOver_fold (s : State) (a n : Nat) : (s.keepOver a n).fold = s.fold := by unfold State.keepOver; split <;> rfl
@[simp] theorem State.keepOver_fw (s : State) (a n : Nat) : (s.keepOver a n).fw = s.fw := by unfold State.keepOver; split <;> rfl
@[simp] theorem State.keepOver_pod (s : State) (a n : Nat) : (s.keepOver a n).pod = s.pod := by unfold State.keepOver; split <;> rfl
@[simp] theorem State.keepOver_isl (s : State) (a n : Nat) : (s.keepOver a n).isl = s.isl := by unfold State.keepOver; split <;> rfl
@[simp] theorem State.keepOver_age (s : State) (a n : Nat) : (s.keepOver a n).age = s.age := by unfold State.keepOver; split <;> rfl
@[simp] theorem State.keepOver_strt (s : State) (a n : Nat) : (s.keepOver a n).strt = s.strt := by unfold State.keepOver; split <;> rfl
@[simp] theorem State.keepOver_lme (s : State) (a n : Nat) : (s.keepOver a n).lme = s.lme := by unfold State.keepOver; split <;> rfl
@[simp] theorem State.keepOver_evq (s : State) (a n : Nat) : (s.keepOver a n).evq = s.evq := by unfold State.keepOver; split <;> rfl
@[simp] theorem State.keepOver_trq (s : State) (a n : Nat) : (s.keepOver a n).trq = s.trq := by unfold State.keepOver; split <;> rfl
@[simp] theorem State.keepOver_violAt (s : State) (a n : Nat) : (s.keepOver a n).violAt = s.violAt := by unfold State.keepOver; split <;> rfl
@[simp] theorem State.keepOver_out (s : State) (a n : Nat) : (s.keepOver a n).out = s.out := by unfold State.keepOver; split <;> rfl
@[simp] theorem State.rd_keepOver (s : State) (a n b : Nat) : (s.keepOver a n).rd b = s.rd b := by unfold State.rd; rw [State.keepOver_regs]
@[simp] theorem State.getW_keepOver (s : State) (a n : Nat) (w : Wide) : (s.keepOver a n).getW w = s.getW w := by
  unfold State.getW; rw [State.rd_keepOver, State.rd_keepOver]
/-- While the management clock runs a source keeps nothing back (R258). -/
theorem State.keepOver_running {s : State} (h : s.isl.mgmtStopped = false) (a n : Nat) : s.keepOver a n = s := by
  unfold State.keepOver; rw [h]; rfl

/-! ### An output and a free value -/

@[simp] theorem State.hold_pending (s : State) (x : Nat) (e : XEnt) : (s.hold x e).pending = s.pending := rfl
@[simp] theorem State.emit_pending (s : State) (x : Out) : (s.emit x).pending = s.pending := by unfold State.emit; split <;> rfl
@[simp] theorem State.takeFree_pending (s : State) : s.takeFree.pending = s.pending := rfl
@[simp] theorem State.hold_place (s : State) (x : Nat) (e : XEnt) : (s.hold x e).place = s.place := rfl
@[simp] theorem State.emit_place (s : State) (x : Out) : (s.emit x).place = s.place := by unfold State.emit; split <;> rfl
@[simp] theorem State.takeFree_place (s : State) : s.takeFree.place = s.place := rfl
@[simp] theorem State.hold_now (s : State) (x : Nat) (e : XEnt) : (s.hold x e).now = s.now := rfl
@[simp] theorem State.emit_now (s : State) (x : Out) : (s.emit x).now = s.now := by unfold State.emit; split <;> rfl
@[simp] theorem State.takeFree_now (s : State) : s.takeFree.now = s.now := rfl
@[simp] theorem State.hold_die (s : State) (x : Nat) (e : XEnt) : (s.hold x e).die = s.die := rfl
@[simp] theorem State.emit_die (s : State) (x : Out) : (s.emit x).die = s.die := by unfold State.emit; split <;> rfl
@[simp] theorem State.takeFree_die (s : State) : s.takeFree.die = s.die := rfl
@[simp] theorem State.hold_free (s : State) (x : Nat) (e : XEnt) : (s.hold x e).free = s.free := rfl
@[simp] theorem State.emit_free (s : State) (x : Out) : (s.emit x).free = s.free := by unfold State.emit; split <;> rfl
@[simp] theorem State.hold_regs (s : State) (x : Nat) (e : XEnt) : (s.hold x e).regs = s.regs := rfl
@[simp] theorem State.emit_regs (s : State) (x : Out) : (s.emit x).regs = s.regs := by unfold State.emit; split <;> rfl
@[simp] theorem State.takeFree_regs (s : State) : s.takeFree.regs = s.regs := rfl
@[simp] theorem State.hold_shadow (s : State) (x : Nat) (e : XEnt) : (s.hold x e).shadow = s.shadow := rfl
@[simp] theorem State.emit_shadow (s : State) (x : Out) : (s.emit x).shadow = s.shadow := by unfold State.emit; split <;> rfl
@[simp] theorem State.takeFree_shadow (s : State) : s.takeFree.shadow = s.shadow := rfl
@[simp] theorem State.hold_held (s : State) (x : Nat) (e : XEnt) : (s.hold x e).held = s.held := rfl
@[simp] theorem State.emit_held (s : State) (x : Out) : (s.emit x).held = s.held := by unfold State.emit; split <;> rfl
@[simp] theorem State.takeFree_held (s : State) : s.takeFree.held = s.held := rfl
@[simp] theorem State.hold_dlv (s : State) (x : Nat) (e : XEnt) : (s.hold x e).dlv = s.dlv := rfl
@[simp] theorem State.emit_dlv (s : State) (x : Out) : (s.emit x).dlv = s.dlv := by unfold State.emit; split <;> rfl
@[simp] theorem State.takeFree_dlv (s : State) : s.takeFree.dlv = s.dlv := rfl
@[simp] theorem State.hold_lnk (s : State) (x : Nat) (e : XEnt) : (s.hold x e).lnk = s.lnk := rfl
@[simp] theorem State.emit_lnk (s : State) (x : Out) : (s.emit x).lnk = s.lnk := by unfold State.emit; split <;> rfl
@[simp] theorem State.takeFree_lnk (s : State) : s.takeFree.lnk = s.lnk := rfl
@[simp] theorem State.hold_tim (s : State) (x : Nat) (e : XEnt) : (s.hold x e).tim = s.tim := rfl
@[simp] theorem State.emit_tim (s : State) (x : Out) : (s.emit x).tim = s.tim := by unfold State.emit; split <;> rfl
@[simp] theorem State.takeFree_tim (s : State) : s.takeFree.tim = s.tim := rfl
@[simp] theorem State.hold_trn (s : State) (x : Nat) (e : XEnt) : (s.hold x e).trn = s.trn := rfl
@[simp] theorem State.emit_trn (s : State) (x : Out) : (s.emit x).trn = s.trn := by unfold State.emit; split <;> rfl
@[simp] theorem State.takeFree_trn (s : State) : s.takeFree.trn = s.trn := rfl
@[simp] theorem State.hold_mov (s : State) (x : Nat) (e : XEnt) : (s.hold x e).mov = s.mov := rfl
@[simp] theorem State.emit_mov (s : State) (x : Out) : (s.emit x).mov = s.mov := by unfold State.emit; split <;> rfl
@[simp] theorem State.takeFree_mov (s : State) : s.takeFree.mov = s.mov := rfl
@[simp] theorem State.hold_fold (s : State) (x : Nat) (e : XEnt) : (s.hold x e).fold = s.fold := rfl
@[simp] theorem State.emit_fold (s : State) (x : Out) : (s.emit x).fold = s.fold := by unfold State.emit; split <;> rfl
@[simp] theorem State.takeFree_fold (s : State) : s.takeFree.fold = s.fold := rfl
@[simp] theorem State.hold_fw (s : State) (x : Nat) (e : XEnt) : (s.hold x e).fw = s.fw := rfl
@[simp] theorem State.emit_fw (s : State) (x : Out) : (s.emit x).fw = s.fw := by unfold State.emit; split <;> rfl
@[simp] theorem State.takeFree_fw (s : State) : s.takeFree.fw = s.fw := rfl
@[simp] theorem State.hold_pod (s : State) (x : Nat) (e : XEnt) : (s.hold x e).pod = s.pod := rfl
@[simp] theorem State.emit_pod (s : State) (x : Out) : (s.emit x).pod = s.pod := by unfold State.emit; split <;> rfl
@[simp] theorem State.takeFree_pod (s : State) : s.takeFree.pod = s.pod := rfl
@[simp] theorem State.takeFree_isl (s : State) : s.takeFree.isl = s.isl := rfl
@[simp] theorem State.hold_age (s : State) (x : Nat) (e : XEnt) : (s.hold x e).age = s.age := rfl
@[simp] theorem State.emit_age (s : State) (x : Out) : (s.emit x).age = s.age := by unfold State.emit; split <;> rfl
@[simp] theorem State.takeFree_age (s : State) : s.takeFree.age = s.age := rfl
@[simp] theorem State.hold_strt (s : State) (x : Nat) (e : XEnt) : (s.hold x e).strt = s.strt := rfl
@[simp] theorem State.emit_strt (s : State) (x : Out) : (s.emit x).strt = s.strt := by unfold State.emit; split <;> rfl
@[simp] theorem State.takeFree_strt (s : State) : s.takeFree.strt = s.strt := rfl
@[simp] theorem State.hold_lme (s : State) (x : Nat) (e : XEnt) : (s.hold x e).lme = s.lme := rfl
@[simp] theorem State.emit_lme (s : State) (x : Out) : (s.emit x).lme = s.lme := by unfold State.emit; split <;> rfl
@[simp] theorem State.takeFree_lme (s : State) : s.takeFree.lme = s.lme := rfl
@[simp] theorem State.hold_evq (s : State) (x : Nat) (e : XEnt) : (s.hold x e).evq = s.evq := rfl
@[simp] theorem State.emit_evq (s : State) (x : Out) : (s.emit x).evq = s.evq := by unfold State.emit; split <;> rfl
@[simp] theorem State.takeFree_evq (s : State) : s.takeFree.evq = s.evq := rfl
@[simp] theorem State.hold_trq (s : State) (x : Nat) (e : XEnt) : (s.hold x e).trq = s.trq := rfl
@[simp] theorem State.emit_trq (s : State) (x : Out) : (s.emit x).trq = s.trq := by unfold State.emit; split <;> rfl
@[simp] theorem State.takeFree_trq (s : State) : s.takeFree.trq = s.trq := rfl
@[simp] theorem State.hold_violAt (s : State) (x : Nat) (e : XEnt) : (s.hold x e).violAt = s.violAt := rfl
@[simp] theorem State.emit_violAt (s : State) (x : Out) : (s.emit x).violAt = s.violAt := by unfold State.emit; split <;> rfl
@[simp] theorem State.takeFree_violAt (s : State) : s.takeFree.violAt = s.violAt := rfl
@[simp] theorem State.hold_beyond (s : State) (x : Nat) (e : XEnt) : (s.hold x e).beyond = s.beyond := rfl
@[simp] theorem State.emit_beyond (s : State) (x : Out) : (s.emit x).beyond = s.beyond := by unfold State.emit; split <;> rfl
@[simp] theorem State.takeFree_beyond (s : State) : s.takeFree.beyond = s.beyond := rfl
@[simp] theorem State.hold_out (s : State) (x : Nat) (e : XEnt) : (s.hold x e).out = s.out := rfl
@[simp] theorem State.takeFree_out (s : State) : s.takeFree.out = s.out := rfl

theorem State.emit_passes (s : State) (x : Out) (h : s.xOpen 2 = true) : s.emit x = { s with out := x :: s.out } := by
  unfold State.emit; simp [h]
theorem State.emit_inner (s : State) (x : Out) (h : x.toCore = false) : s.emit x = { s with out := x :: s.out } := by
  unfold State.emit; simp [h]

/-! ### Trace records and events change registers and their own queues -/

@[simp] theorem State.traceIn_pending (s : State) (r : List Byte) : (s.traceIn r).pending = s.pending := by
  unfold State.traceIn; split
  · rfl
  · exact State.count_pending ..
@[simp] theorem State.trace_pending (s : State) (ty : Nat) (d : List Byte) : (s.trace ty d).pending = s.pending := by
  rw [State.trace, State.traceIn_pending, State.setF_pending]
@[simp] theorem State.traceIn_place (s : State) (r : List Byte) : (s.traceIn r).place = s.place := by
  unfold State.traceIn; split
  · rfl
  · exact State.count_place ..
@[simp] theorem State.trace_place (s : State) (ty : Nat) (d : List Byte) : (s.trace ty d).place = s.place := by
  rw [State.trace, State.traceIn_place, State.setF_place]
@[simp] theorem State.traceIn_now (s : State) (r : List Byte) : (s.traceIn r).now = s.now := by
  unfold State.traceIn; split
  · rfl
  · exact State.count_now ..
@[simp] theorem State.trace_now (s : State) (ty : Nat) (d : List Byte) : (s.trace ty d).now = s.now := by
  rw [State.trace, State.traceIn_now, State.setF_now]
@[simp] theorem State.traceIn_die (s : State) (r : List Byte) : (s.traceIn r).die = s.die := by
  unfold State.traceIn; split
  · rfl
  · exact State.count_die ..
@[simp] theorem State.trace_die (s : State) (ty : Nat) (d : List Byte) : (s.trace ty d).die = s.die := by
  rw [State.trace, State.traceIn_die, State.setF_die]
@[simp] theorem State.traceIn_free (s : State) (r : List Byte) : (s.traceIn r).free = s.free := by
  unfold State.traceIn; split
  · rfl
  · exact State.count_free ..
@[simp] theorem State.trace_free (s : State) (ty : Nat) (d : List Byte) : (s.trace ty d).free = s.free := by
  rw [State.trace, State.traceIn_free, State.setF_free]
@[simp] theorem State.traceIn_shadow (s : State) (r : List Byte) : (s.traceIn r).shadow = s.shadow := by
  unfold State.traceIn; split
  · rfl
  · exact State.count_shadow ..
@[simp] theorem State.trace_shadow (s : State) (ty : Nat) (d : List Byte) : (s.trace ty d).shadow = s.shadow := by
  rw [State.trace, State.traceIn_shadow, State.setF_shadow]
@[simp] theorem State.traceIn_held (s : State) (r : List Byte) : (s.traceIn r).held = s.held := by
  unfold State.traceIn; split
  · rfl
  · exact State.count_held ..
@[simp] theorem State.trace_held (s : State) (ty : Nat) (d : List Byte) : (s.trace ty d).held = s.held := by
  rw [State.trace, State.traceIn_held, State.setF_held]
@[simp] theorem State.traceIn_dlv (s : State) (r : List Byte) : (s.traceIn r).dlv = s.dlv := by
  unfold State.traceIn; split
  · rfl
  · exact State.count_dlv ..
@[simp] theorem State.trace_dlv (s : State) (ty : Nat) (d : List Byte) : (s.trace ty d).dlv = s.dlv := by
  rw [State.trace, State.traceIn_dlv, State.setF_dlv]
@[simp] theorem State.traceIn_lnk (s : State) (r : List Byte) : (s.traceIn r).lnk = s.lnk := by
  unfold State.traceIn; split
  · rfl
  · exact State.count_lnk ..
@[simp] theorem State.trace_lnk (s : State) (ty : Nat) (d : List Byte) : (s.trace ty d).lnk = s.lnk := by
  rw [State.trace, State.traceIn_lnk, State.setF_lnk]
@[simp] theorem State.traceIn_tim (s : State) (r : List Byte) : (s.traceIn r).tim = s.tim := by
  unfold State.traceIn; split
  · rfl
  · exact State.count_tim ..
@[simp] theorem State.trace_tim (s : State) (ty : Nat) (d : List Byte) : (s.trace ty d).tim = s.tim := by
  rw [State.trace, State.traceIn_tim, State.setF_tim]
@[simp] theorem State.traceIn_trn (s : State) (r : List Byte) : (s.traceIn r).trn = s.trn := by
  unfold State.traceIn; split
  · rfl
  · exact State.count_trn ..
@[simp] theorem State.trace_trn (s : State) (ty : Nat) (d : List Byte) : (s.trace ty d).trn = s.trn := by
  rw [State.trace, State.traceIn_trn, State.setF_trn]
@[simp] theorem State.traceIn_mov (s : State) (r : List Byte) : (s.traceIn r).mov = s.mov := by
  unfold State.traceIn; split
  · rfl
  · exact State.count_mov ..
@[simp] theorem State.trace_mov (s : State) (ty : Nat) (d : List Byte) : (s.trace ty d).mov = s.mov := by
  rw [State.trace, State.traceIn_mov, State.setF_mov]
@[simp] theorem State.traceIn_fold (s : State) (r : List Byte) : (s.traceIn r).fold = s.fold := by
  unfold State.traceIn; split
  · rfl
  · exact State.count_fold ..
@[simp] theorem State.trace_fold (s : State) (ty : Nat) (d : List Byte) : (s.trace ty d).fold = s.fold := by
  rw [State.trace, State.traceIn_fold, State.setF_fold]
@[simp] theorem State.traceIn_fw (s : State) (r : List Byte) : (s.traceIn r).fw = s.fw := by
  unfold State.traceIn; split
  · rfl
  · exact State.count_fw ..
@[simp] theorem State.trace_fw (s : State) (ty : Nat) (d : List Byte) : (s.trace ty d).fw = s.fw := by
  rw [State.trace, State.traceIn_fw, State.setF_fw]
@[simp] theorem State.traceIn_pod (s : State) (r : List Byte) : (s.traceIn r).pod = s.pod := by
  unfold State.traceIn; split
  · rfl
  · exact State.count_pod ..
@[simp] theorem State.trace_pod (s : State) (ty : Nat) (d : List Byte) : (s.trace ty d).pod = s.pod := by
  rw [State.trace, State.traceIn_pod, State.setF_pod]
@[simp] theorem State.traceIn_isl (s : State) (r : List Byte) : (s.traceIn r).isl = s.isl := by
  unfold State.traceIn; split
  · rfl
  · exact State.count_isl ..
@[simp] theorem State.trace_isl (s : State) (ty : Nat) (d : List Byte) : (s.trace ty d).isl = s.isl := by
  rw [State.trace, State.traceIn_isl, State.setF_isl]
@[simp] theorem State.traceIn_age (s : State) (r : List Byte) : (s.traceIn r).age = s.age := by
  unfold State.traceIn; split
  · rfl
  · exact State.count_age ..
@[simp] theorem State.trace_age (s : State) (ty : Nat) (d : List Byte) : (s.trace ty d).age = s.age := by
  rw [State.trace, State.traceIn_age, State.setF_age]
@[simp] theorem State.traceIn_strt (s : State) (r : List Byte) : (s.traceIn r).strt = s.strt := by
  unfold State.traceIn; split
  · rfl
  · exact State.count_strt ..
@[simp] theorem State.trace_strt (s : State) (ty : Nat) (d : List Byte) : (s.trace ty d).strt = s.strt := by
  rw [State.trace, State.traceIn_strt, State.setF_strt]
@[simp] theorem State.traceIn_lme (s : State) (r : List Byte) : (s.traceIn r).lme = s.lme := by
  unfold State.traceIn; split
  · rfl
  · exact State.count_lme ..
@[simp] theorem State.trace_lme (s : State) (ty : Nat) (d : List Byte) : (s.trace ty d).lme = s.lme := by
  rw [State.trace, State.traceIn_lme, State.setF_lme]
@[simp] theorem State.traceIn_evq (s : State) (r : List Byte) : (s.traceIn r).evq = s.evq := by
  unfold State.traceIn; split
  · rfl
  · exact State.count_evq ..
@[simp] theorem State.trace_evq (s : State) (ty : Nat) (d : List Byte) : (s.trace ty d).evq = s.evq := by
  rw [State.trace, State.traceIn_evq, State.setF_evq]
@[simp] theorem State.traceIn_violAt (s : State) (r : List Byte) : (s.traceIn r).violAt = s.violAt := by
  unfold State.traceIn; split
  · rfl
  · exact State.count_violAt ..
@[simp] theorem State.trace_violAt (s : State) (ty : Nat) (d : List Byte) : (s.trace ty d).violAt = s.violAt := by
  rw [State.trace, State.traceIn_violAt, State.setF_violAt]
@[simp] theorem State.traceIn_out (s : State) (r : List Byte) : (s.traceIn r).out = s.out := by
  unfold State.traceIn; split
  · rfl
  · exact State.count_out ..
@[simp] theorem State.trace_out (s : State) (ty : Nat) (d : List Byte) : (s.trace ty d).out = s.out := by
  rw [State.trace, State.traceIn_out, State.setF_out]

@[simp] theorem State.evRegs_pending (s : State) (k c d : Nat) (b : Bool) : (s.evRegs k c d b).pending = s.pending := by
  rw [State.evRegs, State.evSeen, State.setF_pending, State.putW_pending, State.wr_pending, State.wr_pending, State.count_pending]
@[simp] theorem State.evTrace_pending (s : State) (k c : Nat) : (s.evTrace k c).pending = s.pending := by
  unfold State.evTrace; split
  · exact State.trace_pending ..
  · rfl
@[simp] theorem State.evLost_pending (s : State) (q : List Ev) : (s.evLost q).pending = s.pending := by
  unfold State.evLost; rw [State.setB_pending, State.count_pending]
@[simp] theorem State.evQueue_pending (s : State) (e : Ev) : (s.evQueue e).pending = s.pending := by
  unfold State.evQueue; split
  · unfold State.evFail; split
    · rfl
    · exact State.evLost_pending ..
  · unfold State.evMinor; split
    · rfl
    · split
      · rfl
      · exact State.evLost_pending ..
@[simp] theorem State.raiseD_pending (s : State) (c d : Nat) (b : Bool) : (s.raiseD c d b).pending = s.pending := by
  rw [State.raiseD, State.evQueue_pending, State.evTrace_pending, State.evRegs_pending]
@[simp] theorem State.raise_pending (s : State) (c : Nat) : (s.raise c).pending = s.pending := State.raiseD_pending s c 0 false

@[simp] theorem State.evRegs_place (s : State) (k c d : Nat) (b : Bool) : (s.evRegs k c d b).place = s.place := by
  rw [State.evRegs, State.evSeen, State.setF_place, State.putW_place, State.wr_place, State.wr_place, State.count_place]
@[simp] theorem State.evTrace_place (s : State) (k c : Nat) : (s.evTrace k c).place = s.place := by
  unfold State.evTrace; split
  · exact State.trace_place ..
  · rfl
@[simp] theorem State.evLost_place (s : State) (q : List Ev) : (s.evLost q).place = s.place := by
  unfold State.evLost; rw [State.setB_place, State.count_place]
@[simp] theorem State.evQueue_place (s : State) (e : Ev) : (s.evQueue e).place = s.place := by
  unfold State.evQueue; split
  · unfold State.evFail; split
    · rfl
    · exact State.evLost_place ..
  · unfold State.evMinor; split
    · rfl
    · split
      · rfl
      · exact State.evLost_place ..
@[simp] theorem State.raiseD_place (s : State) (c d : Nat) (b : Bool) : (s.raiseD c d b).place = s.place := by
  rw [State.raiseD, State.evQueue_place, State.evTrace_place, State.evRegs_place]
@[simp] theorem State.raise_place (s : State) (c : Nat) : (s.raise c).place = s.place := State.raiseD_place s c 0 false

@[simp] theorem State.evRegs_now (s : State) (k c d : Nat) (b : Bool) : (s.evRegs k c d b).now = s.now := by
  rw [State.evRegs, State.evSeen, State.setF_now, State.putW_now, State.wr_now, State.wr_now, State.count_now]
@[simp] theorem State.evTrace_now (s : State) (k c : Nat) : (s.evTrace k c).now = s.now := by
  unfold State.evTrace; split
  · exact State.trace_now ..
  · rfl
@[simp] theorem State.evLost_now (s : State) (q : List Ev) : (s.evLost q).now = s.now := by
  unfold State.evLost; rw [State.setB_now, State.count_now]
@[simp] theorem State.evQueue_now (s : State) (e : Ev) : (s.evQueue e).now = s.now := by
  unfold State.evQueue; split
  · unfold State.evFail; split
    · rfl
    · exact State.evLost_now ..
  · unfold State.evMinor; split
    · rfl
    · split
      · rfl
      · exact State.evLost_now ..
@[simp] theorem State.raiseD_now (s : State) (c d : Nat) (b : Bool) : (s.raiseD c d b).now = s.now := by
  rw [State.raiseD, State.evQueue_now, State.evTrace_now, State.evRegs_now]
@[simp] theorem State.raise_now (s : State) (c : Nat) : (s.raise c).now = s.now := State.raiseD_now s c 0 false

@[simp] theorem State.evRegs_die (s : State) (k c d : Nat) (b : Bool) : (s.evRegs k c d b).die = s.die := by
  rw [State.evRegs, State.evSeen, State.setF_die, State.putW_die, State.wr_die, State.wr_die, State.count_die]
@[simp] theorem State.evTrace_die (s : State) (k c : Nat) : (s.evTrace k c).die = s.die := by
  unfold State.evTrace; split
  · exact State.trace_die ..
  · rfl
@[simp] theorem State.evLost_die (s : State) (q : List Ev) : (s.evLost q).die = s.die := by
  unfold State.evLost; rw [State.setB_die, State.count_die]
@[simp] theorem State.evQueue_die (s : State) (e : Ev) : (s.evQueue e).die = s.die := by
  unfold State.evQueue; split
  · unfold State.evFail; split
    · rfl
    · exact State.evLost_die ..
  · unfold State.evMinor; split
    · rfl
    · split
      · rfl
      · exact State.evLost_die ..
@[simp] theorem State.raiseD_die (s : State) (c d : Nat) (b : Bool) : (s.raiseD c d b).die = s.die := by
  rw [State.raiseD, State.evQueue_die, State.evTrace_die, State.evRegs_die]
@[simp] theorem State.raise_die (s : State) (c : Nat) : (s.raise c).die = s.die := State.raiseD_die s c 0 false

@[simp] theorem State.evRegs_free (s : State) (k c d : Nat) (b : Bool) : (s.evRegs k c d b).free = s.free := by
  rw [State.evRegs, State.evSeen, State.setF_free, State.putW_free, State.wr_free, State.wr_free, State.count_free]
@[simp] theorem State.evTrace_free (s : State) (k c : Nat) : (s.evTrace k c).free = s.free := by
  unfold State.evTrace; split
  · exact State.trace_free ..
  · rfl
@[simp] theorem State.evLost_free (s : State) (q : List Ev) : (s.evLost q).free = s.free := by
  unfold State.evLost; rw [State.setB_free, State.count_free]
@[simp] theorem State.evQueue_free (s : State) (e : Ev) : (s.evQueue e).free = s.free := by
  unfold State.evQueue; split
  · unfold State.evFail; split
    · rfl
    · exact State.evLost_free ..
  · unfold State.evMinor; split
    · rfl
    · split
      · rfl
      · exact State.evLost_free ..
@[simp] theorem State.raiseD_free (s : State) (c d : Nat) (b : Bool) : (s.raiseD c d b).free = s.free := by
  rw [State.raiseD, State.evQueue_free, State.evTrace_free, State.evRegs_free]
@[simp] theorem State.raise_free (s : State) (c : Nat) : (s.raise c).free = s.free := State.raiseD_free s c 0 false

@[simp] theorem State.evRegs_shadow (s : State) (k c d : Nat) (b : Bool) : (s.evRegs k c d b).shadow = s.shadow := by
  rw [State.evRegs, State.evSeen, State.setF_shadow, State.putW_shadow, State.wr_shadow, State.wr_shadow, State.count_shadow]
@[simp] theorem State.evTrace_shadow (s : State) (k c : Nat) : (s.evTrace k c).shadow = s.shadow := by
  unfold State.evTrace; split
  · exact State.trace_shadow ..
  · rfl
@[simp] theorem State.evLost_shadow (s : State) (q : List Ev) : (s.evLost q).shadow = s.shadow := by
  unfold State.evLost; rw [State.setB_shadow, State.count_shadow]
@[simp] theorem State.evQueue_shadow (s : State) (e : Ev) : (s.evQueue e).shadow = s.shadow := by
  unfold State.evQueue; split
  · unfold State.evFail; split
    · rfl
    · exact State.evLost_shadow ..
  · unfold State.evMinor; split
    · rfl
    · split
      · rfl
      · exact State.evLost_shadow ..
@[simp] theorem State.raiseD_shadow (s : State) (c d : Nat) (b : Bool) : (s.raiseD c d b).shadow = s.shadow := by
  rw [State.raiseD, State.evQueue_shadow, State.evTrace_shadow, State.evRegs_shadow]
@[simp] theorem State.raise_shadow (s : State) (c : Nat) : (s.raise c).shadow = s.shadow := State.raiseD_shadow s c 0 false

@[simp] theorem State.evRegs_held (s : State) (k c d : Nat) (b : Bool) : (s.evRegs k c d b).held = s.held := by
  rw [State.evRegs, State.evSeen, State.setF_held, State.putW_held, State.wr_held, State.wr_held, State.count_held]
@[simp] theorem State.evTrace_held (s : State) (k c : Nat) : (s.evTrace k c).held = s.held := by
  unfold State.evTrace; split
  · exact State.trace_held ..
  · rfl
@[simp] theorem State.evLost_held (s : State) (q : List Ev) : (s.evLost q).held = s.held := by
  unfold State.evLost; rw [State.setB_held, State.count_held]
@[simp] theorem State.evQueue_held (s : State) (e : Ev) : (s.evQueue e).held = s.held := by
  unfold State.evQueue; split
  · unfold State.evFail; split
    · rfl
    · exact State.evLost_held ..
  · unfold State.evMinor; split
    · rfl
    · split
      · rfl
      · exact State.evLost_held ..
@[simp] theorem State.raiseD_held (s : State) (c d : Nat) (b : Bool) : (s.raiseD c d b).held = s.held := by
  rw [State.raiseD, State.evQueue_held, State.evTrace_held, State.evRegs_held]
@[simp] theorem State.raise_held (s : State) (c : Nat) : (s.raise c).held = s.held := State.raiseD_held s c 0 false

@[simp] theorem State.evRegs_dlv (s : State) (k c d : Nat) (b : Bool) : (s.evRegs k c d b).dlv = s.dlv := by
  rw [State.evRegs, State.evSeen, State.setF_dlv, State.putW_dlv, State.wr_dlv, State.wr_dlv, State.count_dlv]
@[simp] theorem State.evTrace_dlv (s : State) (k c : Nat) : (s.evTrace k c).dlv = s.dlv := by
  unfold State.evTrace; split
  · exact State.trace_dlv ..
  · rfl
@[simp] theorem State.evLost_dlv (s : State) (q : List Ev) : (s.evLost q).dlv = s.dlv := by
  unfold State.evLost; rw [State.setB_dlv, State.count_dlv]
@[simp] theorem State.evQueue_dlv (s : State) (e : Ev) : (s.evQueue e).dlv = s.dlv := by
  unfold State.evQueue; split
  · unfold State.evFail; split
    · rfl
    · exact State.evLost_dlv ..
  · unfold State.evMinor; split
    · rfl
    · split
      · rfl
      · exact State.evLost_dlv ..
@[simp] theorem State.raiseD_dlv (s : State) (c d : Nat) (b : Bool) : (s.raiseD c d b).dlv = s.dlv := by
  rw [State.raiseD, State.evQueue_dlv, State.evTrace_dlv, State.evRegs_dlv]
@[simp] theorem State.raise_dlv (s : State) (c : Nat) : (s.raise c).dlv = s.dlv := State.raiseD_dlv s c 0 false

@[simp] theorem State.evRegs_lnk (s : State) (k c d : Nat) (b : Bool) : (s.evRegs k c d b).lnk = s.lnk := by
  rw [State.evRegs, State.evSeen, State.setF_lnk, State.putW_lnk, State.wr_lnk, State.wr_lnk, State.count_lnk]
@[simp] theorem State.evTrace_lnk (s : State) (k c : Nat) : (s.evTrace k c).lnk = s.lnk := by
  unfold State.evTrace; split
  · exact State.trace_lnk ..
  · rfl
@[simp] theorem State.evLost_lnk (s : State) (q : List Ev) : (s.evLost q).lnk = s.lnk := by
  unfold State.evLost; rw [State.setB_lnk, State.count_lnk]
@[simp] theorem State.evQueue_lnk (s : State) (e : Ev) : (s.evQueue e).lnk = s.lnk := by
  unfold State.evQueue; split
  · unfold State.evFail; split
    · rfl
    · exact State.evLost_lnk ..
  · unfold State.evMinor; split
    · rfl
    · split
      · rfl
      · exact State.evLost_lnk ..
@[simp] theorem State.raiseD_lnk (s : State) (c d : Nat) (b : Bool) : (s.raiseD c d b).lnk = s.lnk := by
  rw [State.raiseD, State.evQueue_lnk, State.evTrace_lnk, State.evRegs_lnk]
@[simp] theorem State.raise_lnk (s : State) (c : Nat) : (s.raise c).lnk = s.lnk := State.raiseD_lnk s c 0 false

@[simp] theorem State.evRegs_tim (s : State) (k c d : Nat) (b : Bool) : (s.evRegs k c d b).tim = s.tim := by
  rw [State.evRegs, State.evSeen, State.setF_tim, State.putW_tim, State.wr_tim, State.wr_tim, State.count_tim]
@[simp] theorem State.evTrace_tim (s : State) (k c : Nat) : (s.evTrace k c).tim = s.tim := by
  unfold State.evTrace; split
  · exact State.trace_tim ..
  · rfl
@[simp] theorem State.evLost_tim (s : State) (q : List Ev) : (s.evLost q).tim = s.tim := by
  unfold State.evLost; rw [State.setB_tim, State.count_tim]
@[simp] theorem State.evQueue_tim (s : State) (e : Ev) : (s.evQueue e).tim = s.tim := by
  unfold State.evQueue; split
  · unfold State.evFail; split
    · rfl
    · exact State.evLost_tim ..
  · unfold State.evMinor; split
    · rfl
    · split
      · rfl
      · exact State.evLost_tim ..
@[simp] theorem State.raiseD_tim (s : State) (c d : Nat) (b : Bool) : (s.raiseD c d b).tim = s.tim := by
  rw [State.raiseD, State.evQueue_tim, State.evTrace_tim, State.evRegs_tim]
@[simp] theorem State.raise_tim (s : State) (c : Nat) : (s.raise c).tim = s.tim := State.raiseD_tim s c 0 false

@[simp] theorem State.evRegs_trn (s : State) (k c d : Nat) (b : Bool) : (s.evRegs k c d b).trn = s.trn := by
  rw [State.evRegs, State.evSeen, State.setF_trn, State.putW_trn, State.wr_trn, State.wr_trn, State.count_trn]
@[simp] theorem State.evTrace_trn (s : State) (k c : Nat) : (s.evTrace k c).trn = s.trn := by
  unfold State.evTrace; split
  · exact State.trace_trn ..
  · rfl
@[simp] theorem State.evLost_trn (s : State) (q : List Ev) : (s.evLost q).trn = s.trn := by
  unfold State.evLost; rw [State.setB_trn, State.count_trn]
@[simp] theorem State.evQueue_trn (s : State) (e : Ev) : (s.evQueue e).trn = s.trn := by
  unfold State.evQueue; split
  · unfold State.evFail; split
    · rfl
    · exact State.evLost_trn ..
  · unfold State.evMinor; split
    · rfl
    · split
      · rfl
      · exact State.evLost_trn ..
@[simp] theorem State.raiseD_trn (s : State) (c d : Nat) (b : Bool) : (s.raiseD c d b).trn = s.trn := by
  rw [State.raiseD, State.evQueue_trn, State.evTrace_trn, State.evRegs_trn]
@[simp] theorem State.raise_trn (s : State) (c : Nat) : (s.raise c).trn = s.trn := State.raiseD_trn s c 0 false

@[simp] theorem State.evRegs_mov (s : State) (k c d : Nat) (b : Bool) : (s.evRegs k c d b).mov = s.mov := by
  rw [State.evRegs, State.evSeen, State.setF_mov, State.putW_mov, State.wr_mov, State.wr_mov, State.count_mov]
@[simp] theorem State.evTrace_mov (s : State) (k c : Nat) : (s.evTrace k c).mov = s.mov := by
  unfold State.evTrace; split
  · exact State.trace_mov ..
  · rfl
@[simp] theorem State.evLost_mov (s : State) (q : List Ev) : (s.evLost q).mov = s.mov := by
  unfold State.evLost; rw [State.setB_mov, State.count_mov]
@[simp] theorem State.evQueue_mov (s : State) (e : Ev) : (s.evQueue e).mov = s.mov := by
  unfold State.evQueue; split
  · unfold State.evFail; split
    · rfl
    · exact State.evLost_mov ..
  · unfold State.evMinor; split
    · rfl
    · split
      · rfl
      · exact State.evLost_mov ..
@[simp] theorem State.raiseD_mov (s : State) (c d : Nat) (b : Bool) : (s.raiseD c d b).mov = s.mov := by
  rw [State.raiseD, State.evQueue_mov, State.evTrace_mov, State.evRegs_mov]
@[simp] theorem State.raise_mov (s : State) (c : Nat) : (s.raise c).mov = s.mov := State.raiseD_mov s c 0 false

@[simp] theorem State.evRegs_fold (s : State) (k c d : Nat) (b : Bool) : (s.evRegs k c d b).fold = s.fold := by
  rw [State.evRegs, State.evSeen, State.setF_fold, State.putW_fold, State.wr_fold, State.wr_fold, State.count_fold]
@[simp] theorem State.evTrace_fold (s : State) (k c : Nat) : (s.evTrace k c).fold = s.fold := by
  unfold State.evTrace; split
  · exact State.trace_fold ..
  · rfl
@[simp] theorem State.evLost_fold (s : State) (q : List Ev) : (s.evLost q).fold = s.fold := by
  unfold State.evLost; rw [State.setB_fold, State.count_fold]
@[simp] theorem State.evQueue_fold (s : State) (e : Ev) : (s.evQueue e).fold = s.fold := by
  unfold State.evQueue; split
  · unfold State.evFail; split
    · rfl
    · exact State.evLost_fold ..
  · unfold State.evMinor; split
    · rfl
    · split
      · rfl
      · exact State.evLost_fold ..
@[simp] theorem State.raiseD_fold (s : State) (c d : Nat) (b : Bool) : (s.raiseD c d b).fold = s.fold := by
  rw [State.raiseD, State.evQueue_fold, State.evTrace_fold, State.evRegs_fold]
@[simp] theorem State.raise_fold (s : State) (c : Nat) : (s.raise c).fold = s.fold := State.raiseD_fold s c 0 false

@[simp] theorem State.evRegs_fw (s : State) (k c d : Nat) (b : Bool) : (s.evRegs k c d b).fw = s.fw := by
  rw [State.evRegs, State.evSeen, State.setF_fw, State.putW_fw, State.wr_fw, State.wr_fw, State.count_fw]
@[simp] theorem State.evTrace_fw (s : State) (k c : Nat) : (s.evTrace k c).fw = s.fw := by
  unfold State.evTrace; split
  · exact State.trace_fw ..
  · rfl
@[simp] theorem State.evLost_fw (s : State) (q : List Ev) : (s.evLost q).fw = s.fw := by
  unfold State.evLost; rw [State.setB_fw, State.count_fw]
@[simp] theorem State.evQueue_fw (s : State) (e : Ev) : (s.evQueue e).fw = s.fw := by
  unfold State.evQueue; split
  · unfold State.evFail; split
    · rfl
    · exact State.evLost_fw ..
  · unfold State.evMinor; split
    · rfl
    · split
      · rfl
      · exact State.evLost_fw ..
@[simp] theorem State.raiseD_fw (s : State) (c d : Nat) (b : Bool) : (s.raiseD c d b).fw = s.fw := by
  rw [State.raiseD, State.evQueue_fw, State.evTrace_fw, State.evRegs_fw]
@[simp] theorem State.raise_fw (s : State) (c : Nat) : (s.raise c).fw = s.fw := State.raiseD_fw s c 0 false

@[simp] theorem State.evRegs_pod (s : State) (k c d : Nat) (b : Bool) : (s.evRegs k c d b).pod = s.pod := by
  rw [State.evRegs, State.evSeen, State.setF_pod, State.putW_pod, State.wr_pod, State.wr_pod, State.count_pod]
@[simp] theorem State.evTrace_pod (s : State) (k c : Nat) : (s.evTrace k c).pod = s.pod := by
  unfold State.evTrace; split
  · exact State.trace_pod ..
  · rfl
@[simp] theorem State.evLost_pod (s : State) (q : List Ev) : (s.evLost q).pod = s.pod := by
  unfold State.evLost; rw [State.setB_pod, State.count_pod]
@[simp] theorem State.evQueue_pod (s : State) (e : Ev) : (s.evQueue e).pod = s.pod := by
  unfold State.evQueue; split
  · unfold State.evFail; split
    · rfl
    · exact State.evLost_pod ..
  · unfold State.evMinor; split
    · rfl
    · split
      · rfl
      · exact State.evLost_pod ..
@[simp] theorem State.raiseD_pod (s : State) (c d : Nat) (b : Bool) : (s.raiseD c d b).pod = s.pod := by
  rw [State.raiseD, State.evQueue_pod, State.evTrace_pod, State.evRegs_pod]
@[simp] theorem State.raise_pod (s : State) (c : Nat) : (s.raise c).pod = s.pod := State.raiseD_pod s c 0 false

@[simp] theorem State.evRegs_isl (s : State) (k c d : Nat) (b : Bool) : (s.evRegs k c d b).isl = s.isl := by
  rw [State.evRegs, State.evSeen, State.setF_isl, State.putW_isl, State.wr_isl, State.wr_isl, State.count_isl]
@[simp] theorem State.evTrace_isl (s : State) (k c : Nat) : (s.evTrace k c).isl = s.isl := by
  unfold State.evTrace; split
  · exact State.trace_isl ..
  · rfl
@[simp] theorem State.evLost_isl (s : State) (q : List Ev) : (s.evLost q).isl = s.isl := by
  unfold State.evLost; rw [State.setB_isl, State.count_isl]
@[simp] theorem State.evQueue_isl (s : State) (e : Ev) : (s.evQueue e).isl = s.isl := by
  unfold State.evQueue; split
  · unfold State.evFail; split
    · rfl
    · exact State.evLost_isl ..
  · unfold State.evMinor; split
    · rfl
    · split
      · rfl
      · exact State.evLost_isl ..
@[simp] theorem State.raiseD_isl (s : State) (c d : Nat) (b : Bool) : (s.raiseD c d b).isl = s.isl := by
  rw [State.raiseD, State.evQueue_isl, State.evTrace_isl, State.evRegs_isl]
@[simp] theorem State.raise_isl (s : State) (c : Nat) : (s.raise c).isl = s.isl := State.raiseD_isl s c 0 false

@[simp] theorem State.evRegs_age (s : State) (k c d : Nat) (b : Bool) : (s.evRegs k c d b).age = s.age := by
  rw [State.evRegs, State.evSeen, State.setF_age, State.putW_age, State.wr_age, State.wr_age, State.count_age]
@[simp] theorem State.evTrace_age (s : State) (k c : Nat) : (s.evTrace k c).age = s.age := by
  unfold State.evTrace; split
  · exact State.trace_age ..
  · rfl
@[simp] theorem State.evLost_age (s : State) (q : List Ev) : (s.evLost q).age = s.age := by
  unfold State.evLost; rw [State.setB_age, State.count_age]
@[simp] theorem State.evQueue_age (s : State) (e : Ev) : (s.evQueue e).age = s.age := by
  unfold State.evQueue; split
  · unfold State.evFail; split
    · rfl
    · exact State.evLost_age ..
  · unfold State.evMinor; split
    · rfl
    · split
      · rfl
      · exact State.evLost_age ..
@[simp] theorem State.raiseD_age (s : State) (c d : Nat) (b : Bool) : (s.raiseD c d b).age = s.age := by
  rw [State.raiseD, State.evQueue_age, State.evTrace_age, State.evRegs_age]
@[simp] theorem State.raise_age (s : State) (c : Nat) : (s.raise c).age = s.age := State.raiseD_age s c 0 false

@[simp] theorem State.evRegs_strt (s : State) (k c d : Nat) (b : Bool) : (s.evRegs k c d b).strt = s.strt := by
  rw [State.evRegs, State.evSeen, State.setF_strt, State.putW_strt, State.wr_strt, State.wr_strt, State.count_strt]
@[simp] theorem State.evTrace_strt (s : State) (k c : Nat) : (s.evTrace k c).strt = s.strt := by
  unfold State.evTrace; split
  · exact State.trace_strt ..
  · rfl
@[simp] theorem State.evLost_strt (s : State) (q : List Ev) : (s.evLost q).strt = s.strt := by
  unfold State.evLost; rw [State.setB_strt, State.count_strt]
@[simp] theorem State.evQueue_strt (s : State) (e : Ev) : (s.evQueue e).strt = s.strt := by
  unfold State.evQueue; split
  · unfold State.evFail; split
    · rfl
    · exact State.evLost_strt ..
  · unfold State.evMinor; split
    · rfl
    · split
      · rfl
      · exact State.evLost_strt ..
@[simp] theorem State.raiseD_strt (s : State) (c d : Nat) (b : Bool) : (s.raiseD c d b).strt = s.strt := by
  rw [State.raiseD, State.evQueue_strt, State.evTrace_strt, State.evRegs_strt]
@[simp] theorem State.raise_strt (s : State) (c : Nat) : (s.raise c).strt = s.strt := State.raiseD_strt s c 0 false

@[simp] theorem State.evRegs_lme (s : State) (k c d : Nat) (b : Bool) : (s.evRegs k c d b).lme = s.lme := by
  rw [State.evRegs, State.evSeen, State.setF_lme, State.putW_lme, State.wr_lme, State.wr_lme, State.count_lme]
@[simp] theorem State.evTrace_lme (s : State) (k c : Nat) : (s.evTrace k c).lme = s.lme := by
  unfold State.evTrace; split
  · exact State.trace_lme ..
  · rfl
@[simp] theorem State.evLost_lme (s : State) (q : List Ev) : (s.evLost q).lme = s.lme := by
  unfold State.evLost; rw [State.setB_lme, State.count_lme]
@[simp] theorem State.evQueue_lme (s : State) (e : Ev) : (s.evQueue e).lme = s.lme := by
  unfold State.evQueue; split
  · unfold State.evFail; split
    · rfl
    · exact State.evLost_lme ..
  · unfold State.evMinor; split
    · rfl
    · split
      · rfl
      · exact State.evLost_lme ..
@[simp] theorem State.raiseD_lme (s : State) (c d : Nat) (b : Bool) : (s.raiseD c d b).lme = s.lme := by
  rw [State.raiseD, State.evQueue_lme, State.evTrace_lme, State.evRegs_lme]
@[simp] theorem State.raise_lme (s : State) (c : Nat) : (s.raise c).lme = s.lme := State.raiseD_lme s c 0 false

@[simp] theorem State.evRegs_violAt (s : State) (k c d : Nat) (b : Bool) : (s.evRegs k c d b).violAt = s.violAt := by
  rw [State.evRegs, State.evSeen, State.setF_violAt, State.putW_violAt, State.wr_violAt, State.wr_violAt, State.count_violAt]
@[simp] theorem State.evTrace_violAt (s : State) (k c : Nat) : (s.evTrace k c).violAt = s.violAt := by
  unfold State.evTrace; split
  · exact State.trace_violAt ..
  · rfl
@[simp] theorem State.evLost_violAt (s : State) (q : List Ev) : (s.evLost q).violAt = s.violAt := by
  unfold State.evLost; rw [State.setB_violAt, State.count_violAt]
@[simp] theorem State.evQueue_violAt (s : State) (e : Ev) : (s.evQueue e).violAt = s.violAt := by
  unfold State.evQueue; split
  · unfold State.evFail; split
    · rfl
    · exact State.evLost_violAt ..
  · unfold State.evMinor; split
    · rfl
    · split
      · rfl
      · exact State.evLost_violAt ..
@[simp] theorem State.raiseD_violAt (s : State) (c d : Nat) (b : Bool) : (s.raiseD c d b).violAt = s.violAt := by
  rw [State.raiseD, State.evQueue_violAt, State.evTrace_violAt, State.evRegs_violAt]
@[simp] theorem State.raise_violAt (s : State) (c : Nat) : (s.raise c).violAt = s.violAt := State.raiseD_violAt s c 0 false

@[simp] theorem State.evRegs_out (s : State) (k c d : Nat) (b : Bool) : (s.evRegs k c d b).out = s.out := by
  rw [State.evRegs, State.evSeen, State.setF_out, State.putW_out, State.wr_out, State.wr_out, State.count_out]
@[simp] theorem State.evTrace_out (s : State) (k c : Nat) : (s.evTrace k c).out = s.out := by
  unfold State.evTrace; split
  · exact State.trace_out ..
  · rfl
@[simp] theorem State.evLost_out (s : State) (q : List Ev) : (s.evLost q).out = s.out := by
  unfold State.evLost; rw [State.setB_out, State.count_out]
@[simp] theorem State.evQueue_out (s : State) (e : Ev) : (s.evQueue e).out = s.out := by
  unfold State.evQueue; split
  · unfold State.evFail; split
    · rfl
    · exact State.evLost_out ..
  · unfold State.evMinor; split
    · rfl
    · split
      · rfl
      · exact State.evLost_out ..
@[simp] theorem State.raiseD_out (s : State) (c d : Nat) (b : Bool) : (s.raiseD c d b).out = s.out := by
  rw [State.raiseD, State.evQueue_out, State.evTrace_out, State.evRegs_out]
@[simp] theorem State.raise_out (s : State) (c : Nat) : (s.raise c).out = s.out := State.raiseD_out s c 0 false

end Sys2Proof.Machine
end

