-- ==== Sys2Proof/Laws/Regs.lean ====
section
/-! SUPPORT. What a word, a field and a counter read after a register has been written, and that every write of registers keeps the
canonical form of the register window. -/

namespace Sys2Proof.Machine

/-! ### Words -/

/-- A word after a word has been written. -/
theorem State.rd_wr (s : State) (a b v : Nat) : (s.wr a v).rd b = if b = a then v % 2 ^ 32 else s.rd b := by
  unfold State.rd State.wr
  rw [Sparse.get_set]
  by_cases h : b = a
  · rw [if_pos h, if_pos h, BitVec.toNat_ofNat]
  · rw [if_neg h, if_neg h]

/-- The word written. -/
theorem State.rd_wr_same (s : State) (a v : Nat) : (s.wr a v).rd a = v % 2 ^ 32 := by rw [State.rd_wr, if_pos rfl]

/-- Every other word reads as before. -/
theorem State.rd_wr_ne (s : State) {a b : Nat} (v : Nat) (h : b ≠ a) : (s.wr a v).rd b = s.rd b := by rw [State.rd_wr, if_neg h]

/-- A word is below 2^32. -/
theorem State.rd_lt (s : State) (a : Nat) : s.rd a < 2 ^ 32 := (s.regs.get a).isLt

/-- A word other than the field's reads as before. -/
theorem State.rd_setF_ne (s : State) (f : Fld) (n : Nat) {b : Nat} (h : b ≠ f.off) : (s.setF f n).rd b = s.rd b := State.rd_wr_ne s _ h

/-- A word other than the field's reads as before. -/
theorem State.rd_setB_ne (s : State) (f : Fld) (v : Bool) {b : Nat} (h : b ≠ f.off) : (s.setB f v).rd b = s.rd b := State.rd_setF_ne s f _ h

/-- A word other than the two of the register reads as before. -/
theorem State.rd_putW_ne (s : State) (w : Wide) (v : Nat) {b : Nat} (h : b ≠ w.off) (h' : b ≠ w.off + 4) : (s.putW w v).rd b = s.rd b := by
  unfold State.putW
  rw [State.rd_wr_ne _ _ h', State.rd_wr_ne _ _ h]

/-- A word that no listed field lies in reads as before. -/
theorem State.rd_setFs_ne (s : State) (l : List (Fld × Nat)) {b : Nat} (h : ∀ p ∈ l, b ≠ p.1.off) : (s.setFs l).rd b = s.rd b := by
  induction l generalizing s with
  | nil => rfl
  | cons p l ih => exact (ih (s.setF p.1 p.2) (fun q hq => h q (List.mem_cons_of_mem _ hq))).trans (State.rd_setF_ne s _ _ (h p (by simp)))

/-- A word that is not the counter's reads as before. -/
theorem State.rd_count_ne (s : State) (c : Cnt) (n : Nat) {b : Nat} (h : b ≠ c.off) (h' : b ≠ c.off + 4) : (s.count c n).rd b = s.rd b := by
  unfold State.count
  simp only
  rw [State.rd_keepOver]
  split
  · exact State.rd_putW_ne s _ _ h h'
  · exact State.rd_wr_ne s _ h

/-- A 64-bit register reads what has been written. -/
theorem State.getW_putW (s : State) (w : Wide) (v : Nat) : (s.putW w v).getW w = v % 2 ^ 64 := by
  unfold State.getW State.putW
  rw [State.rd_wr_ne _ _ (by omega), State.rd_wr_same, State.rd_wr_same]
  omega

/-! ### Fields -/

/-- A field that fits its word, replaced in a word. -/
theorem Fld.put_lt (f : Fld) (hf : f.lo + f.w ≤ 32) {w : Nat} (hw : w < 2 ^ 32) (n : Nat) : f.put w n < 2 ^ 32 := by
  unfold Fld.put
  have h1 : n % 2 ^ f.w < 2 ^ f.w := Nat.mod_lt _ (Nat.two_pow_pos _)
  have h2 : w % 2 ^ f.lo < 2 ^ f.lo := Nat.mod_lt _ (Nat.two_pow_pos _)
  have h3 : n % 2 ^ f.w * 2 ^ f.lo + w % 2 ^ f.lo < 2 ^ (f.lo + f.w) := by
    rw [pow_add]
    nlinarith [Nat.two_pow_pos f.lo]
  obtain ⟨d, hd⟩ := Nat.le.dest hf
  have h4 : w / 2 ^ (f.lo + f.w) < 2 ^ d := by
    rw [Nat.div_lt_iff_lt_mul (Nat.two_pow_pos _), ← pow_add]
    rwa [show d + (f.lo + f.w) = 32 by omega]
  have h5 : (2 : Nat) ^ 32 = 2 ^ d * 2 ^ (f.lo + f.w) := by rw [← pow_add]; congr 1; omega
  rw [h5]
  nlinarith [Nat.two_pow_pos (f.lo + f.w)]

/-- The field of a word in which it has been replaced. -/
theorem Fld.bits_put (f : Fld) (w n : Nat) : bitsOf (f.put w n) f.lo f.w = n % 2 ^ f.w := by
  unfold bitsOf Fld.put
  have h2 : w % 2 ^ f.lo < 2 ^ f.lo := Nat.mod_lt _ (Nat.two_pow_pos _)
  rw [pow_add, show w / (2 ^ f.lo * 2 ^ f.w) * (2 ^ f.lo * 2 ^ f.w) + n % 2 ^ f.w * 2 ^ f.lo + w % 2 ^ f.lo
    = w % 2 ^ f.lo + 2 ^ f.lo * (w / (2 ^ f.lo * 2 ^ f.w) * 2 ^ f.w + n % 2 ^ f.w) by ring,
    Nat.add_mul_div_left _ _ (Nat.two_pow_pos _), Nat.div_eq_of_lt h2, Nat.zero_add, Nat.mul_add_mod_self_right, Nat.mod_mod]

/-- A field reads what has been written. -/
theorem State.getF_setF (s : State) (f : Fld) (hf : f.lo + f.w ≤ 32) (n : Nat) : (s.setF f n).getF f = n % 2 ^ f.w := by
  unfold State.getF State.setF
  rw [State.rd_wr_same, Nat.mod_eq_of_lt (Fld.put_lt f hf (State.rd_lt s _) n), Fld.bits_put]

/-- Another field of the same word is not touched by a replacement. -/
theorem Fld.bits_put_ne (f g : Fld) (w n : Nat) (h : g.lo + g.w ≤ f.lo ∨ f.lo + f.w ≤ g.lo) : bitsOf (f.put w n) g.lo g.w = bitsOf w g.lo g.w := by
  unfold bitsOf Fld.put
  rcases h with h | h
  · obtain ⟨d, hd⟩ := Nat.le.dest h
    have e : w / 2 ^ (f.lo + f.w) * 2 ^ (f.lo + f.w) + n % 2 ^ f.w * 2 ^ f.lo + w % 2 ^ f.lo
        = w % 2 ^ f.lo + 2 ^ (g.lo + g.w) * (2 ^ d * (w / 2 ^ (f.lo + f.w) * 2 ^ f.w + n % 2 ^ f.w)) := by
      rw [← hd, pow_add, pow_add _ _ d]; ring
    have e2 : w = w % 2 ^ f.lo + 2 ^ (g.lo + g.w) * (2 ^ d * (w / 2 ^ f.lo)) := by
      have := Nat.mod_add_div w (2 ^ f.lo)
      rw [← hd, pow_add] at this ⊢
      nlinarith
    rw [e]
    conv => rhs; rw [e2]
    rw [pow_add, Nat.mul_assoc, Nat.add_mul_div_left _ _ (Nat.two_pow_pos _), Nat.add_mul_mod_self_left, Nat.mul_assoc,
      Nat.add_mul_div_left _ _ (Nat.two_pow_pos _), Nat.add_mul_mod_self_left]
  · obtain ⟨d, hd⟩ := Nat.le.dest h
    have h2 : w % 2 ^ f.lo < 2 ^ f.lo := Nat.mod_lt _ (Nat.two_pow_pos _)
    have h1 : n % 2 ^ f.w < 2 ^ f.w := Nat.mod_lt _ (Nat.two_pow_pos _)
    have h3 : n % 2 ^ f.w * 2 ^ f.lo + w % 2 ^ f.lo < 2 ^ (f.lo + f.w) := by
      rw [pow_add]; nlinarith [Nat.two_pow_pos f.lo]
    rw [← hd, pow_add _ _ d, ← Nat.div_div_eq_div_mul, ← Nat.div_div_eq_div_mul,
      show w / 2 ^ (f.lo + f.w) * 2 ^ (f.lo + f.w) + n % 2 ^ f.w * 2 ^ f.lo + w % 2 ^ f.lo
        = (n % 2 ^ f.w * 2 ^ f.lo + w % 2 ^ f.lo) + 2 ^ (f.lo + f.w) * (w / 2 ^ (f.lo + f.w)) by ring,
      Nat.add_mul_div_left _ _ (Nat.two_pow_pos _), Nat.div_eq_of_lt h3, Nat.zero_add]

/-- Every other field reads as before. -/
theorem State.getF_setF_ne (s : State) (f g : Fld) (hf : f.lo + f.w ≤ 32) (n : Nat)
    (h : g.off ≠ f.off ∨ g.lo + g.w ≤ f.lo ∨ f.lo + f.w ≤ g.lo) : (s.setF f n).getF g = s.getF g := by
  unfold State.getF State.setF
  by_cases ho : g.off = f.off
  · rw [ho, State.rd_wr_same, Nat.mod_eq_of_lt (Fld.put_lt f hf (State.rd_lt s _) n), Fld.bits_put_ne f g _ _ (h.resolve_left (not_not.2 ho))]
  · rw [State.rd_wr_ne _ _ ho]

/-- A field of another word reads as before. -/
theorem State.getF_wr_ne (s : State) (a v : Nat) (g : Fld) (h : g.off ≠ a) : (s.wr a v).getF g = s.getF g := by
  unfold State.getF; rw [State.rd_wr_ne _ _ h]

/-- A field of another word reads as before. -/
theorem State.getF_count_ne (s : State) (c : Cnt) (n : Nat) (g : Fld) (h : g.off ≠ c.off) (h' : g.off ≠ c.off + 4) :
    (s.count c n).getF g = s.getF g := by
  unfold State.getF; rw [State.rd_count_ne _ _ _ h h']

/-- A flag reads what has been written. -/
theorem State.getB_setB (s : State) (f : Fld) (hf : f.lo + f.w ≤ 32) (hw : f.w = 1) (b : Bool) : (s.setB f b).getB f = b := by
  unfold State.getB State.setB
  rw [State.getF_setF s f hf, hw]
  cases b <;> rfl

/-! ### Counters, R12 -/

/-- A 32-bit counter rises and holds at all ones. -/
theorem State.cnt_count (s : State) (c : Cnt) (n : Nat) (hc : c.w = 32) : (s.count c n).cnt c = min (2 ^ 32 - 1) (s.cnt c + n) := by
  have h : ¬ c.w = 48 := by omega
  unfold State.count
  simp only
  rw [if_neg h]
  unfold State.cnt
  rw [if_neg h, if_neg h, State.rd_keepOver, State.rd_wr_same, hc]
  exact Nat.mod_eq_of_lt (by omega)

/-- A 48-bit counter rises and holds at all ones. -/
theorem State.cnt_count48 (s : State) (c : Cnt) (n : Nat) (hc : c.w = 48) : (s.count c n).cnt c = min (2 ^ 48 - 1) (s.cnt c + n) := by
  unfold State.count
  simp only
  rw [if_pos hc]
  unfold State.cnt
  rw [if_pos hc, if_pos hc, State.getW_keepOver, State.getW_putW, hc]
  exact Nat.mod_eq_of_lt (by omega)

/-! ### The canonical form of the register window -/

theorem State.wr_wf {s : State} (h : s.regs.wf = true) (a v : Nat) : (s.wr a v).regs.wf = true := Sparse.set_wf h _ _
theorem State.setF_wf {s : State} (h : s.regs.wf = true) (f : Fld) (n : Nat) : (s.setF f n).regs.wf = true := State.wr_wf h _ _
theorem State.setB_wf {s : State} (h : s.regs.wf = true) (f : Fld) (b : Bool) : (s.setB f b).regs.wf = true := State.wr_wf h _ _
theorem State.bump_wf {s : State} (h : s.regs.wf = true) (f : Fld) (n : Nat) : (s.bump f n).regs.wf = true := State.wr_wf h _ _
theorem State.putW_wf {s : State} (h : s.regs.wf = true) (w : Wide) (v : Nat) : (s.putW w v).regs.wf = true := State.wr_wf (State.wr_wf h _ _) _ _
theorem State.setFs_wf {s : State} (h : s.regs.wf = true) (l : List (Fld × Nat)) : (s.setFs l).regs.wf = true := by
  induction l generalizing s with
  | nil => exact h
  | cons p l ih => exact ih (State.setF_wf h p.1 p.2)
theorem State.count_wf {s : State} (h : s.regs.wf = true) (c : Cnt) (n : Nat) : (s.count c n).regs.wf = true := by
  unfold State.count; simp only; rw [State.keepOver_regs]; split
  · exact State.putW_wf h _ _
  · exact State.wr_wf h _ _
theorem State.traceIn_wf {s : State} (h : s.regs.wf = true) (r : List Byte) : (s.traceIn r).regs.wf = true := by
  unfold State.traceIn; split
  · exact h
  · exact State.count_wf h _ _
theorem State.trace_wf {s : State} (h : s.regs.wf = true) (ty : Nat) (d : List Byte) : (s.trace ty d).regs.wf = true :=
  State.traceIn_wf (State.setF_wf h _ _) _
theorem State.evRegs_wf {s : State} (h : s.regs.wf = true) (k c d : Nat) (b : Bool) : (s.evRegs k c d b).regs.wf = true :=
  State.setF_wf (State.putW_wf (State.wr_wf (State.wr_wf (State.count_wf h _ _) _ _) _ _) _ _) _ _
theorem State.evTrace_wf {s : State} (h : s.regs.wf = true) (k c : Nat) : (s.evTrace k c).regs.wf = true := by
  unfold State.evTrace; split
  · exact State.trace_wf h _ _
  · exact h
theorem State.evLost_wf {s : State} (h : s.regs.wf = true) (q : List Ev) : (s.evLost q).regs.wf = true :=
  State.setB_wf (State.count_wf (s := { s with evq := q }) h _ _) _ _
theorem State.evQueue_wf {s : State} (h : s.regs.wf = true) (e : Ev) : (s.evQueue e).regs.wf = true := by
  unfold State.evQueue; split
  · unfold State.evFail; split
    · exact h
    · exact State.evLost_wf h _
  · unfold State.evMinor; split
    · exact h
    · split
      · exact h
      · exact State.evLost_wf h _
/-- An event keeps the canonical form. -/
theorem State.raiseD_wf {s : State} (h : s.regs.wf = true) (c d : Nat) (b : Bool) : (s.raiseD c d b).regs.wf = true :=
  State.evQueue_wf (State.evTrace_wf (State.evRegs_wf h _ _ _ _) _ _) _

end Sys2Proof.Machine
end

