-- ==== Sys2Proof/Laws/Frames.lean ====
section
/-! SUPPORT. What the shared operations of the links, the events and the replies leave as it was: the registers outside the counters and the
event and trace registers (0x5000–0x57FF), and the groups of the state that they do not act on. -/

namespace Sys2Proof.Machine

/-- An offset outside the counters and the event and trace registers. -/
def Plain (off : Nat) : Prop := off < 0x5000 ∨ 0x5800 ≤ off

/-- A field follows its word. -/
theorem State.getF_of_rd {s t : State} (f : Fld) (h : t.rd f.off = s.rd f.off) : t.getF f = s.getF f := by unfold State.getF; rw [h]
/-- A flag follows its word. -/
theorem State.getB_of_rd {s t : State} (f : Fld) (h : t.rd f.off = s.rd f.off) : t.getB f = s.getB f := by
  unfold State.getB; rw [State.getF_of_rd f h]

/-! ### Events and trace -/

theorem State.rd_traceIn (s : State) (r : List Byte) {off : Nat} (h : Plain off) : (s.traceIn r).rd off = s.rd off := by
  unfold State.traceIn; split
  · rfl
  · exact State.rd_count_ne _ _ _ (by unfold Plain at h; show off ≠ 0x5210; omega) (by unfold Plain at h; show off ≠ 0x5214; omega)

/-- A trace record changes no plain register. -/
theorem State.rd_trace (s : State) (ty : Nat) (d : List Byte) {off : Nat} (h : Plain off) : (s.trace ty d).rd off = s.rd off := by
  unfold State.trace
  rw [State.rd_traceIn _ _ h, State.rd_setF_ne]
  unfold Plain at h; show off ≠ TRACE_SEQ_SEQ.off; simp only [TRACE_SEQ_SEQ]; omega

theorem State.rd_evRegs (s : State) (k c d : Nat) (b : Bool) {off : Nat} (h : Plain off) : (s.evRegs k c d b).rd off = s.rd off := by
  unfold Plain at h
  unfold State.evRegs State.evSeen
  rw [State.rd_setF_ne _ _ _ (by simp only [EVT_STATUS_SEEN]; omega), State.rd_putW_ne _ _ _ (by simp only [EVT_LAST_TICK]; omega)
    (by simp only [EVT_LAST_TICK]; omega), State.rd_wr_ne _ _ (by simp only [EVT_DETAIL]; omega), State.rd_wr_ne _ _ (by simp only [EVT_LAST]; omega),
    State.rd_count_ne]
  · unfold evCnt; split
    · simp only [CNT_EV_CORR]; omega
    · split <;> simp only [CNT_EV_DEGR, CNT_EV_FAIL] <;> omega
  · unfold evCnt; split
    · simp only [CNT_EV_CORR]; omega
    · split <;> simp only [CNT_EV_DEGR, CNT_EV_FAIL] <;> omega

theorem State.rd_evTrace (s : State) (k c : Nat) {off : Nat} (h : Plain off) : (s.evTrace k c).rd off = s.rd off := by
  unfold State.evTrace; split
  · exact State.rd_trace _ _ _ h
  · rfl

theorem State.rd_evLost (s : State) (q : List Ev) {off : Nat} (h : Plain off) : (s.evLost q).rd off = s.rd off := by
  unfold Plain at h
  unfold State.evLost
  rw [State.rd_setB_ne _ _ _ (by simp only [EVT_STATUS_LOST]; omega), State.rd_count_ne _ _ _ (by simp only [CNT_EV_DROP]; omega)
    (by simp only [CNT_EV_DROP]; omega)]
  rfl

theorem State.rd_evQueue (s : State) (e : Ev) {off : Nat} (h : Plain off) : (s.evQueue e).rd off = s.rd off := by
  unfold State.evQueue; split
  · unfold State.evFail; split
    · rfl
    · exact State.rd_evLost _ _ h
  · unfold State.evMinor; split
    · rfl
    · split
      · rfl
      · exact State.rd_evLost _ _ h

/-- An event changes no plain register. -/
theorem State.rd_raiseD (s : State) (c d : Nat) (b : Bool) {off : Nat} (h : Plain off) : (s.raiseD c d b).rd off = s.rd off := by
  unfold State.raiseD; rw [State.rd_evQueue _ _ h, State.rd_evTrace _ _ _ h, State.rd_evRegs _ _ _ _ _ h]

/-- An event changes no plain register. -/
theorem State.rd_raise (s : State) (c : Nat) {off : Nat} (h : Plain off) : (s.raise c).rd off = s.rd off := State.rd_raiseD s c 0 false h

/-- A counter's rise changes no plain register. -/
theorem State.rd_count (s : State) (c : Cnt) (n : Nat) (hc : 0x5000 ≤ c.off ∧ c.off < 0x57FC) {off : Nat} (h : Plain off) :
    (s.count c n).rd off = s.rd off := State.rd_count_ne s c n (by unfold Plain at h; omega) (by unfold Plain at h; omega)

/-- What `EVT_LAST` reads after an event (R345). -/
theorem State.raise_last (s : State) (c : Nat) (hc : c < 2 ^ 30) : (s.raise c).rd EVT_LAST = evClass c * 2 ^ 30 + c := by
  have hcls : evClass c ≤ 2 := by unfold evClass; split <;> (try split) <;> omega
  have h1 : (s.evRegs (evClass c) c 0 false).rd EVT_LAST = evClass c * 2 ^ 30 + c := by
    unfold State.evRegs State.evSeen
    rw [State.rd_setF_ne _ _ _ (by decide), State.rd_putW_ne _ _ _ (by decide) (by decide), State.rd_wr_ne _ _ (by decide), State.rd_wr_same]
    exact Nat.mod_eq_of_lt (by omega)
  have h2 : ∀ t : State, ∀ q, (t.evLost q).rd EVT_LAST = t.rd EVT_LAST := fun t q => by
    unfold State.evLost
    rw [State.rd_setB_ne _ _ _ (by decide), State.rd_count_ne _ _ _ (by decide) (by decide)]
    rfl
  have h3 : ∀ t : State, ∀ e, (t.evQueue e).rd EVT_LAST = t.rd EVT_LAST := fun t e => by
    unfold State.evQueue; split
    · unfold State.evFail; split
      · rfl
      · exact h2 _ _
    · unfold State.evMinor; split
      · rfl
      · split
        · rfl
        · exact h2 _ _
  have h5 : ∀ t : State, ∀ r, (t.traceIn r).rd EVT_LAST = t.rd EVT_LAST := fun t r => by
    unfold State.traceIn; split
    · rfl
    · exact State.rd_count_ne _ _ _ (by decide) (by decide)
  have h4 : ∀ t : State, ∀ k c, (t.evTrace k c).rd EVT_LAST = t.rd EVT_LAST := fun t k c => by
    unfold State.evTrace; split
    · unfold State.trace; rw [h5, State.rd_setF_ne _ _ _ (by decide)]
    · rfl
  rw [State.raise, State.raiseD, h3, h4, h1]

/-! ### Replies of Wilvel commands -/

/-- What a step on the way of a reply keeps: plain registers, schedule, movers, time, lanes, ageing, start and Fold, and of the islands all but what
waits at their crossings. -/
structure ReplyKeeps (s t : State) : Prop where
  rd : ∀ off, Plain off → t.rd off = s.rd off
  mov : t.mov = s.mov
  trn : t.trn = s.trn
  tim : t.tim = s.tim
  lnk : t.lnk = s.lnk
  age : t.age = s.age
  isl : t.isl = { s.isl with wait := t.isl.wait }
  strt : t.strt = s.strt
  now : t.now = s.now
  die : t.die = s.die
  place : t.place = s.place
  fold : t.fold = s.fold
  fw : t.fw = s.fw
  runs : t.lme.runs = s.lme.runs

theorem ReplyKeeps.rfl (s : State) : ReplyKeeps s s := by constructor <;> intros <;> first | rfl

theorem ReplyKeeps.trans {s t u : State} (h : ReplyKeeps s t) (k : ReplyKeeps t u) : ReplyKeeps s u :=
  ⟨fun o p => (k.rd o p).trans (h.rd o p), k.mov.trans h.mov, k.trn.trans h.trn, k.tim.trans h.tim, k.lnk.trans h.lnk, k.age.trans h.age,
    by rw [k.isl, h.isl], k.strt.trans h.strt, k.now.trans h.now, k.die.trans h.die, k.place.trans h.place, k.fold.trans h.fold, k.fw.trans h.fw,
    k.runs.trans h.runs⟩

theorem State.wvLog_keeps (s : State) (e : WvLog) : ReplyKeeps s (s.wvLog e) := by constructor <;> intros <;> first | rfl

/-- A packet that leaves changes the reply log at most. -/
theorem State.packetLeaves_keeps (s : State) (path : WvPath) (p : List Byte) : ReplyKeeps s (s.packetLeaves path p) := by
  unfold State.packetLeaves; split
  · exact State.wvLog_keeps _ _
  · exact ReplyKeeps.rfl s

theorem State.mbxShows_keeps (s : State) : ReplyKeeps s s.mbxShows := by
  unfold State.mbxShows; split
  · exact State.packetLeaves_keeps ..
  · exact ReplyKeeps.rfl s

/-- An output changes what has left, or what waits at a crossing. -/
theorem State.emit_keeps (s : State) (x : Out) : ReplyKeeps s (s.emit x) := by
  unfold State.emit; split <;> constructor <;> intros <;> first | rfl

theorem State.packetToCore_keeps (s : State) (p : List Byte) : ReplyKeeps s (s.packetToCore p) := by
  unfold State.packetToCore; dsimp only; split
  · exact (State.emit_keeps _ _).trans (State.packetLeaves_keeps _ _ _)
  · exact State.emit_keeps _ _

theorem State.sendPacket_keeps (s : State) (p : WvPath) (b : Bool) (x : List Byte) : ReplyKeeps s (s.sendPacket p b x) := by
  have h : ReplyKeeps s { s with lme := { s.lme with rpl := s.lme.rpl ++ [x] } } := by constructor <;> intros <;> first | rfl
  cases p with
  | mailbox =>
    unfold State.sendPacket; dsimp only; split
    · exact h.trans (State.mbxShows_keeps _)
    · exact h
  | core => exact State.packetToCore_keeps _ _
  | mgt => constructor <;> intros <;> first | rfl
  | sb => exact (State.emit_keeps _ _).trans (State.packetLeaves_keeps _ _ _)

theorem State.sendPackets_keeps (s : State) (p : WvPath) (l : List (List Byte)) : ReplyKeeps s (s.sendPackets p l) := by
  unfold State.sendPackets
  induction l generalizing s with
  | nil => exact ReplyKeeps.rfl s
  | cons x l ih => exact (State.sendPacket_keeps s p true x).trans (ih _)

theorem State.wvCounted_keeps (s : State) (st : Nat) : ReplyKeeps s (s.wvCounted st) := by
  unfold State.wvCounted
  split
  · exact ReplyKeeps.rfl s
  · constructor
    · exact fun off h => State.rd_count s _ _ (by decide) h
    all_goals simp only [State.count_mov, State.count_trn, State.count_tim, State.count_lnk, State.count_age, State.count_isl, State.count_strt,
      State.count_now, State.count_die, State.count_place, State.count_fold, State.count_fw, State.count_lme]

/-- A reply changes, of the registers, `CNT_WV_REFUSED` alone, and it leaves schedule, movers, time, lanes and Fold as they were. -/
theorem State.wvReply_keeps (s : State) (h : CmdHdr) (opc st : Nat) (d : List Byte) (again : Bool) : ReplyKeeps s (s.wvReply h opc st d again) := by
  exact (State.sendPackets_keeps s h.path _).trans (State.wvCounted_keeps _ st)

/-- Commands that end are answered, and no more. -/
theorem State.replies_keep (l : List WvRun) (st : Nat) (d : List Byte) (s : State) :
    ReplyKeeps s (l.foldl (fun s r => s.wvReply r.h r.opc st d false) s) := by
  induction l generalizing s with
  | nil => exact ReplyKeeps.rfl s
  | cons x l ih => exact (State.wvReply_keeps s x.h x.opc st d false).trans (ih _)

end Sys2Proof.Machine
end

