-- ==== Sys2Proof/Laws/Clocks.lean ====
section
/-! SUPPORT. While every clock runs and every crossing is open nothing waits: register accesses reach their registers and outputs leave. -/

namespace Sys2Proof.Machine

/-- A crossing that an access takes is one of the six, or none (R252). -/
theorem crossOf_lt (off : Nat) : crossOf off = 6 ∨ crossOf off < 6 := by
  unfold crossOf; split
  · exact .inr (by decide)
  · split
    · exact .inl rfl
    · exact .inr (by decide)

end Sys2Proof.Machine

namespace Sys2Proof

open Machine

theorem ClocksRun.clockRuns {s : State} (h : ClocksRun s) : s.clockRuns = true := (Bool.and_eq_true_iff.mp h.mgmt).1

/-- Every register access reaches its register. -/
theorem ClocksRun.reaches {s : State} (h : ClocksRun s) (off : Nat) : s.reaches off = true := by
  unfold State.reaches
  rcases crossOf_lt off with e | e
  · simp [h.mgmt, e]
  · simp [h.mgmt, h.xings _ e]

/-- A command that writes a register does so at once. -/
theorem ClocksRun.regCmd {s : State} (h : ClocksRun s) (off v : Nat) (f : State → State) : s.regCmd off v f = f s := by
  unfold State.regCmd; rw [if_pos (h.reaches off)]

/-- An output leaves at once. -/
theorem ClocksRun.emit {s : State} (h : ClocksRun s) (x : Out) : s.emit x = { s with out := x :: s.out } := State.emit_passes s x (h.xings 2 (by decide))

/-- Clocks and handshakes decide it: a state with the same ones keeps it. -/
theorem ClocksRun.of_eq {s t : State} (h : ClocksRun s) (isl : t.isl = { s.isl with wait := t.isl.wait }) (seen : ∀ c, t.clkSeen c = s.clkSeen c) :
    ClocksRun t := by
  have hc : t.clockRuns = s.clockRuns := by unfold State.clockRuns; rw [isl]
  refine ⟨?_, fun x hx => ?_⟩
  · unfold State.mgmtRuns; rw [hc, seen]; exact h.mgmt
  · have := h.xings x hx
    unfold State.xOpen at this ⊢
    rw [hc, isl, funext seen]; exact this

/-- A reply that has nothing to wait for leaves the islands as they were. -/
theorem ClocksRun.emit_isl {s : State} (h : ClocksRun s) (x : Out) : (s.emit x).isl = s.isl := by rw [h.emit]

end Sys2Proof
end

