-- ==== Sys2Proof/Laws/Time.lean ====
section
/-! SUPPORT. What the passing of time changes: the two clocks, counters, the checkers that may lock, and free values; and what the arrival of a flit
notes. -/

namespace Sys2Proof.Machine

/-! ### An arrival, R90 -/

@[simp] theorem State.hear_regs (s : State) : s.hear.regs = s.regs := rfl
@[simp] theorem State.hear_rd (s : State) (off : Nat) : s.hear.rd off = s.rd off := rfl
@[simp] theorem State.hear_lnk (s : State) : s.hear.lnk = s.lnk := rfl
@[simp] theorem State.hear_now (s : State) : s.hear.now = s.now := rfl
@[simp] theorem State.hear_isl (s : State) : s.hear.isl = s.isl := rfl
@[simp] theorem State.hear_lc (s : State) : s.hear.dlv.lc = s.dlv.lc := rfl

/-! ### Time -/

/-- `t` differs from `s` in registers, clocks, free values taken and events kept at a counter alone. -/
def TimeOnly (s t : State) : Prop := t = { s with regs := t.regs, now := t.now, die := t.die, free := t.free, beyond := t.beyond }

theorem TimeOnly.refl (s : State) : TimeOnly s s := rfl

theorem TimeOnly.trans {s t u : State} (h : TimeOnly s t) (h' : TimeOnly t u) : TimeOnly s u := by
  unfold TimeOnly at *; rw [h', h]

theorem State.countIf_only (s : State) (b : Bool) (c : Cnt) (d : Nat) : TimeOnly s (s.countIf b c d) := by
  unfold State.countIf State.count State.keepOver TimeOnly
  split
  · simp only; split <;> split <;> rfl
  · rfl

theorem State.rd_countIf (s : State) (b : Bool) (c : Cnt) (d : Nat) {off : Nat} (h : off ≠ c.off) (h' : off ≠ c.off + 4) :
    (s.countIf b c d).rd off = s.rd off := by
  unfold State.countIf; split
  · exact State.rd_count_ne s c d h h'
  · rfl

/-- A step that keeps a relation, repeated over a list, keeps it. -/
theorem TimeOnly.foldl {α : Type} (f : State → α → State) (h : ∀ s x, TimeOnly s (f s x)) (l : List α) : ∀ s, TimeOnly s (l.foldl f s) := by
  induction l with
  | nil => exact fun s => TimeOnly.refl s
  | cons x l ih => exact fun s => (h s x).trans (ih (f s x))

theorem State.rd_foldl {α : Type} (f : State → α → State) (off : Nat) (l : List α) :
    (∀ s, ∀ x ∈ l, (f s x).rd off = s.rd off) → ∀ s, (l.foldl f s).rd off = s.rd off := by
  induction l with
  | nil => exact fun _ _ => rfl
  | cons x l ih =>
    exact fun h s => (ih (fun s y hy => h s y (List.mem_cons_of_mem _ hy)) (f s x)).trans (h s x List.mem_cons_self)

theorem State.tickCounts_only (s : State) (d : Nat) : TimeOnly s (s.tickCounts d) := by
  unfold State.tickCounts
  have h := TimeOnly.foldl (fun t c => t.countIf (s.crStalled c) (CNT_CRSTALL c) d) (fun t c => State.countIf_only t _ _ d) (List.range 6) s
  exact (((((((h.trans (State.countIf_only _ _ _ _)).trans (State.countIf_only _ _ _ _)).trans (State.countIf_only _ _ _ _)).trans
    (State.countIf_only _ _ _ _)).trans (State.countIf_only _ _ _ _)).trans (State.countIf_only _ _ _ _)).trans (State.countIf_only _ _ _ _))

theorem State.rd_tickCounts (s : State) (d : Nat) {off : Nat} (h : PlainWord off) : (s.tickCounts d).rd off = s.rd off := by
  unfold PlainWord at h
  unfold State.tickCounts
  simp only
  rw [State.rd_countIf, State.rd_countIf, State.rd_countIf, State.rd_countIf, State.rd_countIf, State.rd_countIf, State.rd_countIf, State.rd_foldl]
  · intro t c hc
    have := List.mem_range.1 hc
    exact State.rd_countIf _ _ _ _ (by simp only [CNT_CRSTALL]; omega) (by simp only [CNT_CRSTALL]; omega)
  all_goals first
    | (simp only [CNT_BANK_FULL]; omega)
    | (simp only [CNT_STR_STARVE]; omega)
    | (simp only [CNT_MOV_FETCH_STALL]; omega)
    | (simp only [CNT_MOV_TAG_STALL]; omega)
    | (simp only [CNT_FOLD_OPWAIT]; omega)
    | (simp only [CNT_XJ_WAIT]; omega)
    | (simp only [CNT_FW_PACE]; omega)

/-- A checker that may lock by a free value. -/
theorem State.lockStep_only (s : State) (f : Fld) (n : Nat) : TimeOnly s (s.setF f n).takeFree := rfl

theorem State.patLocks_only (s : State) : TimeOnly s s.patLocks := by
  unfold State.patLocks
  generalize (List.range 18).filter _ = l
  exact TimeOnly.foldl _ (fun t x => State.lockStep_only t _ _) l s

theorem State.rd_lockStep (s : State) (f : Fld) (n : Nat) {off : Nat} (h : off ≠ f.off) : ((s.setF f n).takeFree).rd off = s.rd off :=
  State.rd_setF_ne s f n h

theorem State.rd_patLocks (s : State) {off : Nat} (h : off ∉ PassingWords) : s.patLocks.rd off = s.rd off := by
  unfold State.patLocks
  refine State.rd_foldl _ off _ (fun t l hl => State.rd_lockStep t _ _ (fun e => h ?_)) s
  rw [e]
  exact List.mem_map.2 ⟨l, (List.mem_filter.1 hl).1, by simp only [LANE_PAT, LANE_PAT_LOCK]⟩

/-- Time changes the clocks, registers and free values alone. -/
theorem State.elapse_only (s : State) (d : Nat) : TimeOnly s (s.elapse d) := by
  unfold State.elapse; split
  · exact TimeOnly.refl s
  · exact ((State.tickCounts_only s d).trans (State.patLocks_only _)).trans rfl

/-- Of the registers outside the counters, the event and the trace registers, time changes those of the checkers alone. -/
theorem State.rd_elapse (s : State) (d : Nat) : PlainKept PassingWords s (s.elapse d) := by
  intro off h h'
  unfold State.elapse; split
  · rfl
  · exact (State.rd_patLocks _ h').trans (State.rd_tickCounts s d h)

/-- A clock that runs counts the ticks. -/
theorem State.elapse_now (s : State) (d : Nat) (h : s.clockRuns = true) : (s.elapse d).now = s.now + d := by
  unfold State.elapse; split
  · rename_i e
    have : d = 0 := by
      unfold State.clockRuns at h
      simp only [Bool.and_eq_true, Bool.not_eq_true'] at h
      simpa [h.1, h.2] using e
    omega
  · rfl

end Sys2Proof.Machine
end

