-- ==== Sys2Proof/WellFormed.lean ====
section
/-! DEFINITION. Which terms of Instr are commands that the block can be given: the lengths and ranges the spec gives the
operands of each row. The machine is total; a well-formed term is one that the outside world can really send. -/

namespace Sys2Proof

/-- A CREDIT-INIT or TALLY body gives two values for each of the six channels (R100). -/
def CreditMsg.wf (m : CreditMsg) : Bool := m.room.length == 6 && m.owed.length == 6

/-- A SHIFT-REQ or SHIFT-ACK body carries at most 16 positions (R124). -/
def ShiftMsg.wf (m : ShiftMsg) : Bool := decide (m.map.length ≤ 16)

/-- A READY body carries at most 16 positions (R111). -/
def ReadyMsg.wf (m : ReadyMsg) : Bool := decide (m.map.length ≤ 16)

/-- A message is 1 to 64 pips long (R60). -/
def msgWf (m : List Pip) : Bool := decide (1 ≤ m.length ∧ m.length ≤ 64)

/-- The command is one that can be given. -/
def Instr.wf : Instr → Bool
  | .coreMessageOffer m => msgWf m
  | .moverResponseReceive m => msgWf m
  | .creditInitReceive m => m.wf
  | .tallyReceive m => m.wf
  | .readyMessage m => m.wf
  | .shiftReqReceive m => m.wf
  | .shiftAckReceive m => m.wf
  | .sbFrameReceive _ body _ _ _ => decide (body.length ≤ 65540)
  | .fitCheckEnd deck => decide (deck.length ≤ 16) && deck.all (fun p => decide (p.length ≤ 8192))
  | .deckFetchComplete page _ => decide (page.length ≤ 8192)
  | .eqQualifyEnd errs _ => decide (errs.length ≤ 18)
  | .retrainLaneCheckEnd errs => decide (errs.length ≤ 18)
  | .mfgPrbsEnd errs => decide (errs.counts.length ≤ 18)
  | .streamRelayArrival _ data => decide (data.bytes.length ≤ 240)
  | .relayReceive _ _ data => decide (data.bytes.length ≤ 240)
  | .wilvelPacketReceive _ packet => decide (packet.length ≤ 1024)
  | .regRead _ offs => decide (offs.length ≤ 252)
  | .regWrite _ writes => decide (writes.length ≤ 126)
  | .registerWrite r _ _ => r != .coreSide
  | .lowWordRead r _ => r != .coreSide
  | .flitReceive dt _ => decide (dt < 2 ^ 32)
  | .transmitFlit dt => decide (dt < 2 ^ 32)
  | _ => true

end Sys2Proof
end

