-- ==== Sys2Proof/Tests/Slice0.lean ====
section
/-! SUPPORT. Tests of the model on small states: the ill-formed commands that WellFormed refuses, single steps, and for every statement with
hypotheses a state and operands that meet them, clause by clause. -/

namespace Sys2Proof.Tests

open Machine

set_option Elab.async false

/-- A state of an instance with a few register words and everything else as after reset. -/
def bare (i : Nat) (l : List (Nat × Word)) : State := { State.resetAt i with regs := Sparse.setAll [] l }

/-- A state of an instance with its clocks running, a few register fields set, and everything else as after reset. -/
def st (i : Nat) (l : List (Fld × Nat)) : State :=
  (bare i []).setFs ([(ISL_STATUS_LCORE_OK, 1), (ISL_STATUS_ARITH_OK, 1), (ISL_STATUS_CORE_OK, 1)] ++ l)

/-- The conditions of ClocksRun as one Boolean. -/
def clocked (s : State) : Bool := s.mgmtRuns && (List.range 6).all s.xOpen

theorem clocked_of (s : State) (h : clocked s = true) : ClocksRun s := by
  simp only [clocked, Bool.and_eq_true, List.all_eq_true, List.mem_range] at h
  exact ⟨h.1, h.2⟩

/-! ### Witnesses: resets, clocks, link state -/

theorem witness_IdleStepIsOneTick : (bare 14 []).pending = [] := by decide

theorem witness_IdentityNeverChanges : IdentityOf 0 (bare 0 []) ∧ IdentityOf 113 (bare 113 []) :=
  ⟨⟨by decide, by decide, by decide, by decide⟩, ⟨by decide, by decide, by decide, by decide⟩⟩

/-- A die in reset whose link was in a state. -/
def inReset (was : Nat) : State := { bare 14 [] with isl := { Isl.reset with inReset := true, linkWas := was } }

theorem witness_DieResetReleaseGoesOn : (inReset 3).isl.inReset = true ∧ (inReset 4).isl.inReset = true ∧ (inReset 4).isl.linkWas = 4
    ∧ (inReset 8).isl.inReset = true ∧ (inReset 8).isl.linkWas = 8 ∧ (inReset 9).isl.inReset = true := by decide

/-- A die whose clock is stopped. -/
def noClock (l : List (Fld × Nat)) : State := { st 14 l with isl := { Isl.reset with clkOn := false } }

theorem witness_DieClockStopsAndReturns : (bare 14 []).isl.clkOn = true
    ∧ (∀ k ∈ [3, 8], let s := noClock [(LINK_STATUS_STATE, k)]
      s.isl.clkOn = false ∧ ¬(4 ≤ s.link ∧ s.link ≤ 7) ∧ s.lme.queue = [] ∧ s.lme.runs = [] ∧ s.getB TIME_CTRL_MASTER = false
      ∧ s.isl.wait = [] ∧ ∀ j < 8, s.getB (FOLD_XJ_CFG_GO j) = false) := by decide

/-- An instance whose crossing 5 is at a step of its handshake. -/
def atStep (n : Nat) : State := { st 14 [(ISL_XING_RESYNC, 0x21)] with isl := { Isl.reset with hs := [1, 0, 0, 0, 0, n] } }

theorem witness_ClockWatchersAndCrossings : (st 14 [(ISL_STATUS_LCORE_OK, 1)]).clkSeen .linkCore = true ∧ (bare 14 []).clkSeen .mgmt = true
    ∧ (bare 14 []).clkSeen .arith = false ∧ (atStep 2).isl.hs.getD 5 0 = 2 ∧ (atStep 3).isl.hs.getD 5 0 = 3 ∧ (atStep 4).isl.hs.getD 5 0 = 4
    ∧ putBit ((atStep 4).getF ISL_XING_RESYNC) 5 false ≠ 0
    ∧ (∀ s ∈ [bare 14 [], atStep 4, { st 14 [] with isl := { Isl.reset with mgmtStopped := true } }], s.isl.wait = [] ∧ s.lme.queue = [] ∧ ∀ j < 8, s.getB (FOLD_XJ_CFG_GO j) = false)
    ∧ (let s := { st 14 [] with isl := { Isl.reset with mgmtStopped := true } }; s.clkSeen .mgmt = false)
    ∧ (let s := atStep 4; (0 : Fin 6).val < 3 ∧ s.isl.hs.getD (0 : Fin 6) 0 = 1)
    ∧ (∀ n ∈ [0, 15], let s := noClock []
      let s := { s with isl := { s.isl with wait := List.replicate n (4, .access .bus true none 0 0) } }
      ∀ off ∈ [ISL_CTRL, LINK_CTRL, TURN_CTRL, START_CTRL, LME_CTRL, FOLD_XJ_CFG 7],
        s.reaches off = false ∧ (s.isl.wait.filter (fun p => p.1 == xOf off && !p.2.outward)).length < xDepth (xOf off)) := by decide

theorem witness_HoldIsEnteredOnItsCauses : (∀ i ∈ [14, 113], ∀ k ∈ [4, 5, 6], let s := st i [(LINK_STATUS_STATE, k), (ISL_CTRL_HOLD_EN, 1)]
    4 ≤ s.link ∧ s.link ≤ 6 ∧ s.getB ISL_CTRL_HOLD_EN = true) ∧ (bare 14 []).far = false
    ∧ (let s := st 14 [(LINK_STATUS_STATE, 6), (ISL_CTRL_HOLD_EN, 0)]
       4 ≤ s.link ∧ s.link ≤ 6 ∧ s.far = false ∧ s.getB ISL_CTRL_HOLD_EN = false ∧ ∀ x ∈ s.mov.tags, x.link = false) := by decide

theorem witness_WarningsAndTheirEnd : (st 14 [(LINK_STATUS_STATE, 4)]).link = 4 ∧ (st 14 [(LINK_STATUS_STATE, 5)]).link = 5
    ∧ (bare 14 []).far = false ∧ (bare 49 []).far = false := by decide

theorem witness_DownIsEnteredOnItsReasons :
    (st 14 []).reaches LINK_CTRL = true ∧ (st 14 []).trn.writes = [] ∧ (∀ k ∈ [0, 7], (st 14 [(LINK_STATUS_STATE, k)]).link = k ∧ ∀ x ∈ (st 14 [(LINK_STATUS_STATE, k)]).mov.tags, x.link = false)
    ∧ (st 14 [(LINK_STATUS_STATE, 2)]).link = 2
    ∧ ((st 14 [(LINK_STATUS_STATE, 3)]).link = 3 ∧ (st 14 [(LINK_STATUS_STATE, 3)]).lnk.held18 = false)
    ∧ (let s := { st 50 [(LINK_STATUS_STATE, 3)] with lnk := { Lnk.reset with held18 := true } }; s.link = 3 ∧ s.lnk.held18 = true)
    ∧ (let s := { st 14 [(LINK_STATUS_STATE, 5)] with dlv := { Dlv.reset with loopOn := true, probeSent := 1024 } }
       s.link = 5 ∧ s.dlv.loopOn = true ∧ s.dlv.probeSent = 1024 ∧ s.dlv.echoes = 0)
    ∧ (let s := st 14 [(LINK_STATUS_STATE, 1), (START_STATUS_STAGE, 4)]
       s.link = 1 ∧ s.lnk.exchanged = false ∧ s.starting = true ∧ (0x20000 : BitVec 24).toNat &&& maskOf s.lanes ≠ 0)
    ∧ (let s := { st 14 [(LINK_STATUS_STATE, 2)] with lnk := { Lnk.reset with msgs := [⟨5, [], 64, 0⟩] } }
       ∃ m ∈ s.lnk.msgs, m.tcode ≠ 1 ∧ 64 ≤ m.sends) := by decide

theorem witness_RetrainIsStartedByItsCauses :
    (st 14 []).reaches LINK_CTRL = true ∧ (∀ k ∈ [4, 5], (st 14 [(LINK_STATUS_STATE, k)]).link = k ∧ (st 14 [(LINK_STATUS_STATE, k)]).run = false)
    ∧ (let s := { st 14 [(LINK_STATUS_STATE, 4)] with dlv := { Dlv.reset with exch := true } }; s.link = 4 ∧ s.dlv.exch = true)
    ∧ (let s := st 14 [(LINK_STATUS_STATE, 4), (START_STATUS_STAGE, 10), (DLV_CTRL_WATCH_EN, 1), (DLV_WATCH_ARMED, 0x20), (DLV_FLOOR_FLOOR 5, 1)]
       s.link = 4 ∧ s.run = false ∧ s.inService = true ∧ s.getB DLV_CTRL_WATCH_EN = true ∧ bitOf (s.getF DLV_WATCH_ARMED) 5 = true
       ∧ s.chanBusy 5 = false ∧ (∀ e ∈ s.dlv.bank, e.pips.getD 5 0 = 0) ∧ s.window 5 < s.getF (DLV_FLOOR_FLOOR 5))
    ∧ (let s := st 14 [(LINK_STATUS_STATE, 5), (TURN_CTRL_RUN, 1)]; s.link = 5 ∧ s.run = true ∧ (Deferred.retrain 5) ∉ s.lnk.wait)
    ∧ (let s := st 14 [(LINK_STATUS_STATE, 6), (LINK_FAIL_RUN, 1)]; s.link = 6 ∧ s.getF LINK_FAIL_RUN < 2) := by decide

theorem witness_SensorsAndPartners :
    (∀ k ∈ [3, 8], let s := st 113 [(LINK_STATUS_STATE, k)]; s.far = true ∧ ¬(4 ≤ s.link ∧ s.link ≤ 7))
    ∧ (∀ v ∈ [2, 3], let s := st 113 [(AGE_LANE_STAT_VERDICT 16, v)]
      s.far = true ∧ s.lanes.contains (16 : Fin 18).val = true ∧ 2 ≤ s.getF (AGE_LANE_STAT_VERDICT (16 : Fin 18)))
    ∧ (∀ v ∈ [0, 1], let s := st 50 [(LINK_STATUS_STATE, 4), (LINK_MAP_POS 0, 31), (AGE_LANE_STAT_VERDICT 0, v)]
      s.far = true ∧ s.lanes.contains (0 : Fin 18).val = true ∧ s.getF (AGE_LANE_STAT_VERDICT (0 : Fin 18)) < 2
      ∧ s.mapList.contains (0 : Fin 18).val = false ∧ s.age.sweep = none ∧ s.lnk.repair = none) := by decide

/-! ### Witnesses: registers -/

theorem witness_UnalignedAccessChangesNothing : clocked (st 14 []) = true ∧ Requester.bus ≠ .coreSide ∧ Requester.lme ≠ .coreSide ∧ (0xFFFF : BitVec 16).toNat % 4 ≠ 0
    ∧ (0x0001 : BitVec 16).toNat % 4 ≠ 0
    ∧ (let s := { st 14 [] with isl := { Isl.reset with mgmtStopped := true } }; s.mgmtRuns = false ∧ s.isl.wait = []) := by decide

theorem witness_RegisterAccessesFollowTheirCodes : clocked (st 14 []) = true ∧ Requester.bus ≠ .coreSide ∧ (st 14 []).getB ID_SEAL_SEALED = false ∧ (st 14 []).shadow = []
    ∧ (let s := st 14 [(ID_SEAL_SEALED, 1), (ID_POD_POD, 511)]; clocked s = true ∧ s.getB ID_SEAL_SEALED = true ∧ (0 : Word).toNat % 512 ≠ s.getF ID_POD_POD) := by decide

/-- Ring 63 bound to VI 255, with sixteen descriptors. -/
def ringOf255 : State := st 14 [(MOV_RING_CFG_BOUND 63, 1), (MOV_RING_CFG_VI 63, 255), (MOV_RING_CFG_LOG2SIZE 63, 4), (VI_ENT_STATE 255, 1)]

theorem witness_CoreSideReachesItsOwnRing :
    (let s := ringOf255
     clocked s = true ∧ s.getB (MOV_RING_CFG_BOUND 63) = true ∧ s.ringVi 63 = (255 : Byte).toNat ∧ s.viActive (255 : Byte).toNat = true ∧ s.shadow = []
     ∧ ((16 : Word).toNat % 2 ^ 16 + 2 ^ 16 - s.getF (MOV_RING_DONE_DONE 63)) % 2 ^ 16 ≤ 2 ^ s.getF (MOV_RING_CFG_LOG2SIZE 63)
     ∧ (BitVec.ofNat 16 (MOV_RING_HEAD 63)).toNat % 4 = 0 ∧ s.resourceVi (BitVec.ofNat 16 (MOV_RING_HEAD 63)).toNat ≠ some (254 : Byte).toNat)
    ∧ (0x2000 : BitVec 16).toNat % 4 = 0 ∧ coreReaches (0x2000 : BitVec 16).toNat = false
    ∧ (let s := st 14 [(MOV_RING_CFG_BOUND 63, 1), (MOV_RING_CFG_VI 63, 255)]; clocked s = true ∧ s.viActive (255 : Byte).toNat = false) := by decide

theorem witness_CoreSideReachesItsOwnRing_more :
    (∀ r ∈ [0, 1], let s := st 14 [(FOLD_CTX_CFG_EN 31, 1), (FOLD_CTX_CFG_VI 31, 255), (FOLD_CTX_DST_OUTDST 31, 1), (FOLD_CTX_DST_OUTSEL 31, 31), (MOV_SWIN_CFG_DIR 31, r), (VI_ENT_STATE 255, 1)]
      clocked s = true ∧ s.viActive (255 : Byte).toNat = true ∧ s.resourceVi (MOV_SWIN_PROD 31) = some (255 : Byte).toNat
      ∧ s.resourceVi (MOV_SWIN_CONS 31) = some (255 : Byte).toNat ∧ s.winRx 31 = decide (r = 1))
    ∧ (∀ g ∈ [0, 1], let s := ringOf255.setFs [(FOLD_XJ_CFG_RING 7, 63), (FOLD_XJ_CFG_GO 7, g)]
      clocked s = true ∧ s.resourceVi (FOLD_XJ_COUNT 7) = some (255 : Byte).toNat ∧ s.viActive (255 : Byte).toNat = true ∧ s.shadow = []
      ∧ s.getB (FOLD_XJ_CFG_GO 7) = decide (g = 1) ∧ coreReaches (BitVec.ofNat 16 (FOLD_XJ_COUNT 7)).toNat = true) := by decide +kernel

/-- A schedule of one program runs on a link in Up: Rounds of 4,096 ticks, all QUI. -/
def quietRounds (l : List (Fld × Nat)) : State :=
  let s := st 14 ([(TURN_CTRL_RUN, 1), (TURN_LEN_LEN, 4096), (LINK_STATUS_STATE, 4), (TURN_DIR_TX_VALID 0, 1)] ++ l)
  { s with tim := { Tim.reset with len := 4096 }, trn := { Trn.reset with frames := [(0, 0xFFF30000)] } }

theorem witness_LaneEqualisationWrites_quiet :
    let s := { quietRounds [(LANE_STATUS_STATE 17, 3)] with age := { Age.reset with pendTx := [(17, 0x00F00008)] } }
    clocked s = true ∧ s.lanes.contains (17 : Fin 18).val = true ∧ s.age.sweep = none ∧ s.laneState 17 = 3 ∧ (s.quiLeft s.tick).isSome = true ∧ s.lnk.fTx = 0
      ∧ s.age.pendTx = [((17 : Fin 18).val, 0x00F00008)] ∧ s.age.pendRx = [] := by decide

theorem witness_LaneEqualisationWrites :
    (∀ k ∈ [1, 3, 5], let s := st 14 [(LANE_STATUS_STATE 17, k)]
      clocked s = true ∧ s.lanes.contains (17 : Fin 18).val = true ∧ s.age.sweep = none ∧ s.laneState 17 = k)
    ∧ (let e := eqOfWord (0x00F00008 : Word).toNat; eqAllowed e.1 e.2.1 e.2.2.1 e.2.2.2 = true)
    ∧ (let e := eqOfWord (0x000F1F1F : Word).toNat; eqAllowed e.1 e.2.1 e.2.2.1 e.2.2.2 = false)
    ∧ (let s := { st 14 [(LANE_STATUS_STATE 17, 1)] with age := { Age.reset with pendTx := [(17, 0x00F00008)] } }
       clocked s = true ∧ s.lanes.contains (17 : Fin 18).val = true ∧ s.age.sweep = none ∧ s.laneState 17 ≠ 3 ∧ s.age.pendTx = [((17 : Fin 18).val, 0x00F00008)] ∧ s.age.pendRx = []) := by decide

theorem witness_LanePatternsStartAndStop :
    (∀ k ∈ [2, 4], let s := st 50 [(LANE_STATUS_STATE 16, k)]
      clocked s = true ∧ s.lanes.contains (16 : Fin 18).val = true ∧ s.laneState 16 = k ∧ s.getB (LANE_PAT_RUN 16) = false)
    ∧ (let s := st 50 [(LANE_STATUS_STATE 16, 3)]; clocked s = true ∧ s.laneState 16 ≠ 2 ∧ s.laneState 16 ≠ 4)
    ∧ (∀ k ∈ [0, 1], let s := st 50 [(LANE_PAT_RUN 16, 1), (LANE_PAT_LOCK 16, k)]; clocked s = true ∧ s.getB (LANE_PAT_RUN 16) = true ∧ s.getB (LANE_PAT_LOCK 16) = decide (k = 1)) := by decide

/-! ### Witnesses: schedule and time -/

theorem witness_SchedulesAreCheckedArmedAndHalted :
    (clocked (st 14 []) = true ∧ (st 14 []).run = false ∧ (st 14 []).getB TURN_WHATIF_EN = false)
    ∧ (let s := { st 14 [] with trn := { Trn.reset with checking := true } }; clocked s = true ∧ s.trn.checking = true)
    ∧ (let s := st 14 [(TURN_CHECK_PASS, 1), (TIME_STATUS_SYNCED, 1)]
       clocked s = true ∧ s.getB TURN_CHECK_PASS = true ∧ s.getB TIME_STATUS_SYNCED = true ∧ s.getB LINK_STATUS_BASECAP = false)
    ∧ (st 14 []).getB TURN_CHECK_PASS = false ∧ (let s := st 14 [(TURN_CTRL_RUN, 1)]; clocked s = true ∧ s.run = true) := by decide

theorem witness_DescriptorsOfStreamsAreWritten :
    (let s := st 14 []
     clocked s = true ∧ s.run = false ∧ bitOf (0x7FFFFFFF : Word).toNat 31 = false ∧ bitOf (0x80000000 : Word).toNat 31 = true
      ∧ s.streamAllowed (1023 : BitVec 10).toNat (bitsOf (0x80000000 : Word).toNat 16 8) 0 = false)
    ∧ (let s := st 14 [(VI_ENT_STATE 255, 1), (VI_SHR_SBASE4 255, 255), (VI_SHR_SCNT4 255, 1)]
       clocked s = true ∧ s.run = false ∧ s.streamAllowed (1023 : BitVec 10).toNat (bitsOf (0xFFFF0000 : Word).toNat 16 8) (s.desc 1023 2) = true)
    ∧ (let s := st 14 [(TURN_CTRL_RUN, 1)]; clocked s = true ∧ s.run = true) := by decide

theorem witness_RoundsBegin :
    (∀ l ∈ [[], [(TURN_CTRL_RUN, 1)]], ∀ a ∈ [none, some 1, some 2], let s := { st 14 l with trn := { Trn.reset with armed := a } }
      s.isl.clkOn = true ∧ s.isl.inReset = false ∧ s.tim.adjust = 0 ∧ s.trn.void = false ∧ s.lnk.wait = [] ∧ s.lme.queue = []
      ∧ s.lme.runs = [] ∧ s.getF TURN_DECK_NDECK = 0 ∧ s.tick ≤ s.b + s.lenNow ∧ s.b + s.lenNow < 2 ^ 64 ∧ s.run = !l.isEmpty ∧ s.tim.round = 0)
    ∧ (∀ k ∈ [4, 5], let s := { st 14 [(LINK_STATUS_STATE, k)] with lnk := { Lnk.reset with wait := [.retrain 7] } }
      s.lnk.wait = [.retrain 7] ∧ s.link = k ∧ s.run = false)
    ∧ (let s := { quietRounds [] with lnk := { Lnk.reset with wait := [.retrain 7] } }
       s.lnk.wait = [.retrain 7] ∧ s.link = 4 ∧ s.run = true ∧ (s.quiRuns.find? (fun p => decide (s.tick < p.2))).isSome = true) := by decide

theorem crc32Byte_lt (c : Nat) (b : Byte) (h : c < 2 ^ 32) : crc32Byte c b < 2 ^ 32 := by
  have step : ∀ (l : List Nat) (x : Nat), x < 2 ^ 32 →
      l.foldl (fun c _ => if c % 2 = 1 then (c / 2) ^^^ 0xEDB88320 else c / 2) x < 2 ^ 32 := by
    intro l
    induction l with
    | nil => intro x hx; exact hx
    | cons _ l ih =>
      intro x hx
      rw [List.foldl_cons]
      apply ih
      split
      · exact Nat.xor_lt_two_pow (by omega) (by decide)
      · omega
  exact step _ _ (Nat.xor_lt_two_pow h (by have := b.isLt; omega))

theorem crc32_lt (l : List Byte) : crc32 l < 2 ^ 32 := by
  have step : ∀ (l : List Byte) (x : Nat), x < 2 ^ 32 → l.foldl crc32Byte x < 2 ^ 32 := by
    intro l
    induction l with
    | nil => intro x hx; exact hx
    | cons b l ih => intro x hx; exact ih _ (crc32Byte_lt x b hx)
  exact Nat.xor_lt_two_pow (step l _ (by decide)) (by decide)

/-- A page of zeros of a Far instance. -/
def zeroPage : List Word := List.replicate 2048 0

/-- A running schedule of a Far instance whose program lies in Deck page 14, of a recorded CRC. -/
def onDeck (c : Nat) (f : Option (Nat × Nat × Nat)) : State :=
  let s := st 113 [(TURN_CTRL_RUN, 1), (TURN_DECK_NDECK, 1), (TURN_DIR_TX_DECK 0, 1), (TURN_DIR_TX_START 0, 14 * 2048)]
  { s with trn := { Trn.reset with crcs := [BitVec.ofNat 32 c], deckFetch := f } }

theorem onDeck_crc (c : Nat) (f : Option (Nat × Nat × Nat)) (h : c < 2 ^ 32) : ((onDeck c f).trn.crcs[14 - 14]?).map (·.toNat) = some c := by
  show some (BitVec.ofNat 32 c).toNat = _
  rw [BitVec.toNat_ofNat, Nat.mod_eq_of_lt h]

theorem onDeck_xOpen (c : Nat) (f : Option (Nat × Nat × Nat)) : (onDeck c f).xOpen 2 = true := by
  have h : (onDeck c f).xOpen 2 = (onDeck 0 none).xOpen 2 := rfl
  rw [h]
  decide +kernel

theorem witness_DeckPagesAreFetched_issue : let s := onDeck 0 none
    s.run = true ∧ s.progDeck (s.progOf (s.tim.round + 1)) = true ∧ s.trn.deckReady = false ∧ s.trn.deckMiss = false ∧ s.trn.deckFetch = none := by
  decide

theorem witness_DeckPagesAreFetched_miss : let s := { onDeck 1 (some (14, 64, 64)) with regs := (onDeck 1 none).regs }
    s.trn.deckFetch = some (14, 64, 64) ∧ deckLines s.place ≤ 64 ∧ s.trn.deckReady = false ∧ s.xOpen 2 = true ∧ ([] : List Word).length ≠ pageEntries s.place := by
  decide

theorem witness_DeckPagesAreFetched : ∃ (s : State) (page : List Word), s.trn.deckFetch = some (14, 64, 64) ∧ deckLines s.place ≤ 64
    ∧ s.trn.deckReady = false ∧ s.xOpen 2 = true ∧ page.length = pageEntries s.place ∧ (s.trn.crcs[14 - 14]?).map (·.toNat) = some (crc32 (pageBytes page)) := by
  refine ⟨onDeck (crc32 (pageBytes zeroPage)) (some (14, 64, 64)), zeroPage, rfl, ?_, rfl, ?_, ?_, onDeck_crc _ _ (crc32_lt _)⟩
  · show deckLines 113 ≤ 64
    decide
  · exact onDeck_xOpen _ _
  · show (List.replicate 2048 (0 : Word)).length = 2048
    exact List.length_replicate

/-- A link in Up or Shift of a die in stage 8 or later whose credits are exchanged. -/
def exchanging (l : List (Fld × Nat)) (t1 n : Nat) : State :=
  let s := st 14 ([(LINK_STATUS_STATE, 4), (DLV_STATUS_INITDONE, 1), (START_STATUS_STAGE, 8)] ++ l)
  { s with tim := { Tim.reset with answered := n, sync := [(255, t1)] } }

theorem witness_TimeIsExchanged :
    (exchanging [] 0 15).syncOpen = true ∧ (exchanging [(LINK_STATUS_STATE, 5)] 0 0).syncOpen = true
    ∧ (exchanging [] 0 0).link = 4 ∧ (exchanging [(LINK_STATUS_STATE, 5)] 0 0).link = 5
    ∧ (let m : SyncMsg := ⟨255, true, 300, 200, 700⟩
       (exchanging [] 100 0).tim.sync = [(m.id.toNat, 100)]
       ∧ (exchanging [] 100 0).isParent = false ∧ (exchanging [] 100 0).tim.owdRt = none
       ∧ ((m.arrived - 100 : Int) - (m.tsend - m.trecv) + signed 16 ((exchanging [] 100 0).getF TIME_ASYM_ASYM)) % 2 = 0
       ∧ (let s := exchanging [(TIME_CTRL_ROLE, 1)] 100 15
          s.tim.sync = [(m.id.toNat, 100)] ∧ s.isParent = true ∧ m.synced = true ∧ s.tim.answered = 15 ∧ s.getB TIME_STATUS_SYNCED = false
          ∧ s.getB TIME_CTRL_MASTER = false)) := by decide

theorem witness_NoticesCrossFarLinks :
    (let s := bare 113 []
     let m : StretchMsg := ⟨false, true, 240, 255, 511, BitVec.ofNat 64 (2 ^ 64 - 1)⟩
     let g : GenMsg := ⟨false, 511, 255, 1023, 255⟩
     s.far = true ∧ m.got = false ∧ s.tim.rxSeen.contains (m.origin.toNat, m.seq.toNat) = false
     ∧ g.got = false ∧ s.tim.genSeen.contains (g.origin.toNat, g.nseq.toNat) = false ∧ g.origin.toNat ≠ s.pod_
     ∧ s.podGen g.origin.toNat g.vi.toNat = none)
    ∧ (let s := { bare 113 [] with tim := { Tim.reset with fwds := [⟨⟨.core, 0, 0⟩, 0x32, [0x26], 63⟩, ⟨⟨.mailbox, 0, 0⟩, 0x48, [0x27], 0⟩] } }
       ∀ f ∈ s.tim.fwds, f.sends < 64) := by decide

/-! ### Witnesses: movers, rings, windows -/

/-- Ring 63, enabled and bound to VI 255, which has a share, with all that lets it start; tags 0x8000 to 0x803F. -/
def moving (l : List (Fld × Nat)) (m : Mov) : State :=
  { st 14 ([(MOV_RING_CFG_EN 63, 1), (MOV_RING_CFG_BOUND 63, 1), (MOV_RING_CFG_VI 63, 255), (MOV_RING_CFG_LOG2SIZE 63, 4), (VI_ENT_STATE 255, 1),
      (VI_SHR_SHARE 255, 1), (MOV_CTRL_EN, 1), (MOV_CTRL_PAUSE, 0), (MOV_TAGS_LOG2, 6), (MOV_TAGS_BASE, 0)] ++ l) with mov := m }

/-- A descriptor: operation, LENGTH, SRC, DST and TIMEOUT. -/
def descr (op len src dst tmo : Nat) : BitVec 512 := BitVec.ofNat 512 (op * 2 ^ 508 + len * 2 ^ 448 + src * 2 ^ 384 + dst * 2 ^ 320 + tmo * 2 ^ 160)

/-- Mover 3 in a phase with a descriptor of ring 63. -/
def running (phase : Nat) (d : BitVec 512) : Mov :=
  { Mov.reset with eng := [Eng.idle, Eng.idle, Eng.idle, { Eng.idle with active := true, ring := 63, phase := phase, desc := d }] }

theorem witness_RingsAndWindowsAreSet :
    (∀ v ∈ [0, 16], let s := moving [] Mov.reset
      clocked s = true ∧ ((BitVec.ofNat 16 v).toNat + 2 ^ 16 - s.getF (MOV_RING_DONE_DONE 63)) % 2 ^ 16 ≤ 2 ^ s.getF (MOV_RING_CFG_LOG2SIZE 63))
    ∧ (∀ v ∈ [17, 65535], let s := moving [] Mov.reset
      clocked s = true ∧ 2 ^ s.getF (MOV_RING_CFG_LOG2SIZE 63) < ((BitVec.ofNat 16 v).toNat + 2 ^ 16 - s.getF (MOV_RING_DONE_DONE 63)) % 2 ^ 16)
    ∧ (∀ l ∈ [4, 12], let s := moving [(MOV_RING_CFG_EN 63, 0), (MOV_RING_CFG_LOG2SIZE 63, l)] Mov.reset
      clocked s = true ∧ s.getB (MOV_RING_CFG_EN 63) = false ∧ s.getB (MOV_RING_CFG_BOUND 63) = true ∧ 4 ≤ s.getF (MOV_RING_CFG_LOG2SIZE 63)
      ∧ s.getF (MOV_RING_CFG_LOG2SIZE 63) ≤ 12)
    ∧ (let s := moving [] Mov.reset; clocked s = true ∧ s.getB (MOV_RING_CFG_EN 63) = true)
    ∧ (let s := st 14 [(⟨(MOV_SWIN_BASE 31).off + 4, 0, 32⟩, 0x40030000)]
       clocked s = true ∧ bitOf (0xFFFFFFFF : Word).toNat 31 = true ∧ s.winEn 31 = false ∧ s.winBaseOk (s.getW (MOV_SWIN_BASE 31)) = true ∧ s.winRx 31 = false)
    ∧ bitOf (0x7FFFFFFF : Word).toNat 31 = false ∧ (let s := st 14 [(MOV_SWIN_CFG_EN 31, 1)]; clocked s = true ∧ s.winEn 31 = true)
    ∧ (let s := st 113 []; clocked s = true ∧ s.winBaseOk (s.getW (MOV_SWIN_BASE 0)) = false) ∧ (let s := st 14 [(MOV_SWIN_CFG_DIR 31, 1)]; clocked s = true ∧ s.winRx 31 = true) := by decide +kernel

theorem witness_DescriptorsAreFetchedAndPublished :
    (let s := moving [(MOV_RING_HEAD_HEAD 63, 65535)] Mov.reset
     clocked s = true ∧ s.getB (MOV_RING_CFG_EN 63) = true ∧ (s.mov.fetchAt.get 63).toNat ≠ s.getF (MOV_RING_HEAD_HEAD 63) ∧ s.fetching < 16
     ∧ s.freeTag = some 0x8000)
    ∧ (∀ dead ∈ [true, false], let e : Tag := ⟨0xFFFF, 5, 63, 2, 0, 0, 0, 0, 0, false, dead, false⟩
       let s := { st 14 [] with mov := { Mov.reset with tags := [e] } }
       clocked s = true ∧ s.mov.tags.find? (fun x => x.tag == (0xFFFF : BitVec 16).toNat && x.kind == 5) = some e ∧ e.dead = dead ∧ (∀ r < 64, s.ringStarts r = false) ∧ s.trn.writes = [])
    ∧ (∀ f ∈ [0, 1], let s := { moving [] { Mov.reset with pub := [(31, 7)] } with regs := ((moving [] Mov.reset).setF ⟨(MOV_SWIN_FLAG 31).off, 0, 32⟩ f).regs }
       clocked s = true ∧ s.mov.pub.find? (fun p => p.1 == (31 : Fin 32).val) = some ((31 : Fin 32).val, 7) ∧ s.pubReady 31 7 = true ∧ s.getW (MOV_SWIN_FLAG 31) = f
       ∧ s.freeTag = some 0x8000) := by decide +kernel

theorem witness_DescriptorsStart : ∀ p ∈ [(1, 1, 0, 128), (1, 2 ^ 30, 0, 2 ^ 30), (2, 0, 0, 16), (3, 0, 16, 0), (4, 0, 0, 0)],
    let d := descr p.1 p.2.1 p.2.2.1 p.2.2.2 0
    let s := moving [(MOV_RING_HEAD_HEAD 63, 1)] { Mov.reset with fetched := [(63, 0, 0, d)] }
    clocked s = true ∧ s.mov.fetched = [((63 : Fin 64).val, s.getF (MOV_RING_TAIL_TAIL 63), 0, d)] ∧ s.getF (MOV_RING_TAIL_TAIL 63) ≠ s.getF (MOV_RING_HEAD_HEAD 63)
    ∧ s.badDesc d = false ∧ s.mov.eng.length = 4 ∧ (s.eng 3).active = false ∧ s.engTags 3 = [] ∧ s.wsetOf 63 = [] ∧ s.ringStarts 63 = true
    ∧ s.freeTag = some 0x8000 ∧ s.getB MOV_CTRL_TRACE = false ∧ s.ringBusy 63 = false ∧ dWinadv d = false ∧ (dOp d = 1 ∨ dOp d = 2 ∨ dOp d = 3 ∨ dOp d = 4) := by
  decide +kernel

/-- An answer of channel RSP with an operation, a status and an OW of a VI, to tag 0x8000. -/
def answer (op status vi : Nat) (rest : List Pip) : List Pip := mkMsg 1 op 0x8000 (status * 2 ^ 88 + vi * 2 ^ 24) rest

theorem witness_MoversReadAndAreAnswered :
    (let s := moving [] (running 1 (descr 1 1 0 128 0))
     clocked s = true ∧ (s.eng 3).active = true ∧ dOp (s.eng 3).desc = 1 ∧ (s.eng 3).phase = 1 ∧ (s.eng 3).stop = false ∧ (s.eng 3).relOn = false
     ∧ (s.eng 3).lines = [] ∧ (s.eng 3).next < lineCount (dSrc (s.eng 3).desc) (dLength (s.eng 3).desc)
     ∧ (s.eng 3).wnext < lineCount (dDst (s.eng 3).desc) (dLength (s.eng 3).desc) ∧ (s.engTags 3).length < 1024 ∧ s.freeTag = some 0x8000)
    ∧ (let s := st 14 []; clocked s = true ∧ s.staleOw (msgOw (answer 2 0 255 [])) = true)
    ∧ (∀ k ∈ [(0, 1, 1), (4, 5, 2)],
      let x : Tag := ⟨0x8000, k.1, 3, 63, 0, 0, 255, 0, 0, false, false, false⟩
      let s := moving [] { running k.2.1 (descr 1 1 0 128 0) with tags := [x] }
      let msg := answer k.2.2 0 255 (if k.1 = 0 then List.replicate 8 0 else [])
      clocked s = true ∧ s.trn.writes = [] ∧ s.staleOw (msgOw msg) = false ∧ s.mov.tags.find? (fun y => y.tag == (msgHead msg).tag) = some x ∧ x.dead = false
      ∧ (∀ j < 8, s.getB (FOLD_XJ_CFG_GO j) = false) ∧ x.owner < s.mov.eng.length ∧ (s.eng x.owner).active = true ∧ (msgHead msg).op ≠ 15
      ∧ bitsOf (msgWord msg) 24 8 ≠ 3 ∧ dOp (s.eng x.owner).desc = 1 ∧ (s.eng x.owner).phase = k.2.1 ∧ (s.eng x.owner).stop = false
      ∧ (s.eng x.owner).relOn = false ∧ (s.eng x.owner).wnext < lineCount (dDst (s.eng x.owner).desc) (dLength (s.eng x.owner).desc)
      ∧ (s.eng x.owner).code = 0 ∧ s.mov.fetched = [] ∧ dIrq (s.eng x.owner).desc = false ∧ (s.eng x.owner).ring < 64) := by decide +kernel

theorem witness_WaitsAndFailuresOfRequests :
    (∀ p ∈ [1, 3], let s := moving [] (running p (descr 3 0 16 0 1))
      clocked s = true ∧ (3 : Fin 4).val < s.mov.eng.length ∧ (s.eng 3).active = true ∧ dOp (s.eng 3).desc = 3 ∧ (s.eng 3).stop = false ∧ (s.eng 3).relOn = false
      ∧ s.engTags 3 = [] ∧ s.freeTag = some 0x8000 ∧ (s.eng 3).phase = p ∧ dTimeout (s.eng 3).desc ≠ 0 ∧ (s.eng 3).code = 0
      ∧ s.getB MOV_CTRL_TRACE = false)
    ∧ (∀ k ∈ [0, 2], ∀ dead ∈ [false, true], let x : Tag := ⟨0xFFFF, k, 3, 63, 0, 0, 255, 0, 0, false, dead, false⟩
      let s := moving [] { running 1 (descr 1 1 0 128 0) with tags := [x] }
      clocked s = true ∧ x.kind ≤ 2 ∧ x.owner < s.mov.eng.length ∧ (s.eng x.owner).active = true ∧ (s.eng x.owner).code = 0 ∧ x.dead = dead
      ∧ (dead = false → s.mov.tags.find? (fun y => y.tag == (0xFFFF : BitVec 16).toNat && !y.dead) = some x)
      ∧ s.mov.tags.find? (fun y => y.tag == (0xFFFF : BitVec 16).toNat && !y.link && !y.timedOut) = some x)
    ∧ (let s := { st 14 [] with mov := { Mov.reset with tags := [⟨0xFFFF, 0, 3, 63, 0, 0, 255, 0, 0, false, true, true⟩] } }
       clocked s = true ∧ ∀ y ∈ s.mov.tags, y.tag = (0xFFFF : BitVec 16).toNat → y.timedOut = true) := by decide +kernel

/-! ### Witnesses: Fold -/

/-- Job 7 for ring 63 over a number of elements from FP32 to a format, its destination 1 MiB up; the ring bound or not. -/
def jobOf (n fmt : Nat) (l : List (Fld × Nat)) : State :=
  st 14 ([(FOLD_XJ_COUNT_COUNT 7, n), (FOLD_XJ_CFG_IFMT 7, 1), (FOLD_XJ_CFG_OFMT 7, fmt), (FOLD_XJ_CFG_RING 7, 63), (⟨(FOLD_XJ_DST 7).off, 0, 32⟩, 2 ^ 20)] ++ l)

theorem witness_FoldContextsAndJobsAreSet :
    (let s := st 14 []; clocked s = true ∧ s.run = false ∧ s.fold.jobs.length = 8 ∧ ∀ j < 8, s.getB (FOLD_XJ_CFG_GO j) = false)
    ∧ (let s := st 14 [(TURN_CTRL_RUN, 1)]; clocked s = true ∧ s.run = true)
    ∧ (let s := jobOf 1 0 [(FOLD_XJ_CFG_GO 7, 1)]; clocked s = true ∧ s.fold.jobs.length = 8 ∧ s.getB (FOLD_XJ_CFG_GO 7) = true)
    ∧ (let s := jobOf 1 0 []
       clocked s = true ∧ s.fold.jobs.length = 8 ∧ s.getB (FOLD_XJ_CFG_GO 7) = false ∧ s.getB (MOV_RING_CFG_BOUND (s.jobRing 7)) = false)
    ∧ (∀ p ∈ [(1, 3, false), (0, 3, false), (1, 6, true)], let s := jobOf p.1 p.2.1 [(MOV_RING_CFG_BOUND 63, 1)]
      clocked s = true ∧ s.fold.jobs.length = 8 ∧ s.getB (FOLD_XJ_CFG_GO 7) = false ∧ s.getB (MOV_RING_CFG_BOUND (s.jobRing 7)) = true ∧ s.jobCount 7 = p.1 ∧ s.jobBad 7 = p.2.2)
    ∧ (∀ q ∈ [0, 1], let s := { jobOf 0 3 [(FOLD_XJ_CFG_GO 7, 1), (FOLD_XJ_CFG_IRQ 7, q)] with
         fold := { Fold.reset with jobs := List.replicate 8 { Job.empty with started := true, wr := 0, stop := true } } }
       clocked s = true ∧ s.fold.jobs.length = 8 ∧ s.jobFinished 7 = true ∧ s.getB (FOLD_XJ_CFG_IRQ 7) = decide (q = 1))
    ∧ (let s := st 14 [(FOLD_XJ_CFG_GO 0, 1)]; clocked s = true ∧ s.getB (FOLD_XJ_CFG_GO 0) = true)
    ∧ (let s := bare 14 []; ∀ off ∈ [FOLD_CTX_CFG 31, FOLD_XJ_CFG 7],
       s.reaches off = false ∧ (s.isl.wait.filter (fun p => p.1 == xOf off && !p.2.outward)).length < xDepth (xOf off))
    ∧ (let s := noClock []; s.reaches ISL_CTRL = false ∧ (s.isl.wait.filter (fun p => p.1 == xOf ISL_CTRL && !p.2.outward)).length < xDepth (xOf ISL_CTRL))
    ∧ (let s := st 14 [(FOLD_XJ_CFG_GO 7, 1)]; clocked s = true ∧ s.run = false ∧ ∃ j < 8, s.getB (FOLD_XJ_CFG_GO j) = true) := by decide +kernel

theorem witness_IntegerFoldsAsR203Says : (32 : Nat) ∈ [32, 64] ∧ (2 : Nat) ^ 64 - 1 < 2 ^ 64 := by decide

/-- Context 31 of an integer format and operation, valid, while a schedule runs, with inputs staged. -/
def folding (fmt op insrc outdst : Nat) (x : Ctx) : State :=
  { st 14 [(TURN_CTRL_RUN, 1), (FOLD_CTX_CFG_EN 31, 1), (FOLD_CTX_STATUS_OK 31, 1), (FOLD_CTX_CFG_IFMT 31, fmt), (FOLD_CTX_CFG_OFMT 31, fmt),
      (FOLD_CTX_CFG_OP 31, op), (FOLD_CTX_SRC_INSRC 31, insrc), (FOLD_CTX_SRC_OPSRC 31, 2), (FOLD_CTX_CFG_SEGS 31, 1),
      (FOLD_CTX_DST_OUTDST 31, outdst), (FOLD_CTX_DST_OUTSEL 31, 31)] with
    fold := { Fold.reset with ctx := List.replicate 31 Ctx.empty ++ [x] } }

/-- Context 31 with IFMT, OFMT, OP, INSRC and OPSRC, with IN and OPND bytes staged, and eighths of a slot spent in the cycle that runs. -/
def combining (i o op insrc osrc nx ny spent : Nat) : State :=
  let s := (folding i op insrc 2 { Ctx.empty with inQ := List.replicate nx (some 0x40), opQ := List.replicate ny 0x40 }).setFs
    [(FOLD_CTX_CFG_OFMT 31, o), (FOLD_CTX_SRC_OPSRC 31, osrc)]
  { s with fold := { s.fold with slots := spent } }

/-- What the clauses on an element ask of context 31 whatever its operation. -/
def combines (s : State) (nx ny : Nat) : Prop :=
  s.run = true ∧ s.ctxOk 31 = true ∧ s.fold.ctx.length = 32 ∧ s.clockRuns = true ∧ s.clkSeen .arith = true ∧ s.ctxMay 31 = true
    ∧ (s.ctx 31).inQ = (List.replicate nx (0x40 : Byte)).map some ++ [] ∧ (s.ctx 31).opQ = List.replicate ny 0x40 ++ []

theorem witness_ElementsAreCombined : ∀ q ∈ [(0, 0, 1, 2, 2, 8, 8, 0), (1, 1, 4, 2, 0, 4, 0, 1), (3, 1, 2, 2, 1, 4, 2, 1), (0, 8, 8, 2, 2, 24, 24, 8),
      (0, 0, 8, 2, 2, 24, 24, 8), (1, 2, 1, 2, 2, 4, 4, 1), (0, 0, 4, 0, 2, 0, 8, 0), (7, 7, 7, 2, 2, 8, 8, 7)], ∀ spent ∈ [0, 1024],
    let p := q.2.2.2.2.2.2.2
    let s := combining q.1 q.2.1 q.2.2.1 q.2.2.2.1 q.2.2.2.2.1 q.2.2.2.2.2.1 q.2.2.2.2.2.2.1 spent
    let hasIn : Bool := s.getF (FOLD_CTX_SRC_INSRC 31) != 0
    let osrc := s.getF (FOLD_CTX_SRC_OPSRC 31)
    combines s q.2.2.2.2.2.1 q.2.2.2.2.2.2.1 ∧ partialOf (s.ctxOp 31) (s.ctxIf 31) = some p ∧ s.ctxIf 31 ≠ 9 ∧ s.getB (FOLD_CTX_ANCHOR_ASRC 31) = false
      ∧ (if hasIn then osrc ≤ 2 else osrc = 2)
      ∧ (s.ctxOf 31 = p ∨ (isMx (s.ctxOf 31) = false ∧ hasIn = true ∧ osrc = 2 ∧ (if p = 8 then s.ctxOf 31 ≤ 1 else xcodePair p (s.ctxOf 31) = true)))
      ∧ q.2.2.2.2.2.1 = (if hasIn then elemBits p / 8 else 0)
      ∧ q.2.2.2.2.2.2.1 = (if osrc = 0 then 0 else if osrc = 1 then elemBits (s.ctxIf 31) / 8 else elemBits p / 8)
      ∧ (spent = 0 → s.slotsSpent + s.slotCost 31 ≤ 1024) ∧ (spent = 1024 → osrc ≠ 1 → s.slotCost 31 ≠ 0 → 1024 < s.slotsSpent + s.slotCost 31) ∧ s.isl.inReset = false := by
  unfold combines
  decide +kernel

theorem witness_ElementsAreCombined_full : let s := combining 0 0 1 2 2 8 8 1024
    1024 < s.slotsSpent + s.slotCost 31 ∧ s.getF (FOLD_CTX_SRC_OPSRC 31) ≠ 1 := by decide +kernel

theorem witness_ElementsAreCombined_xcode : ∀ q ∈ [(1, 0, 2, 0, 4, 0), (1, 0x14, 2, 0, 128, 0), (0x10, 1, 0, 2, 0, 33), (6, 6, 2, 0, 4, 0)],
    let s := combining q.1 q.2.1 0 q.2.2.1 q.2.2.2.1 q.2.2.2.2.1 q.2.2.2.2.2 0
    let hasIn : Bool := s.getF (FOLD_CTX_SRC_INSRC 31) != 0
    let n := if isMx (s.ctxIf 31) || isMx (s.ctxOf 31) then 32 else 1
    combines s q.2.2.2.2.1 q.2.2.2.2.2 ∧ s.ctxOp 31 = 0 ∧ xcodePair (s.ctxIf 31) (s.ctxOf 31) = true
      ∧ (if hasIn then s.getF (FOLD_CTX_SRC_OPSRC 31) = 0 else s.getF (FOLD_CTX_SRC_OPSRC 31) = 2) ∧ s.slotsSpent + s.slotCost 31 ≤ 1024
      ∧ q.2.2.2.2.1 = (if hasIn then elemBytes (s.ctxIf 31) n else 0) ∧ q.2.2.2.2.2 = (if hasIn then 0 else elemBytes (s.ctxIf 31) n)
      ∧ (s.ctx 31).used + elemBytes (s.ctxOf 31) n + s.ctxReads 31 ≤ s.ctxCap 31 := by
  unfold combines
  decide +kernel

theorem witness_ElementsAreCombined_waits :
    (let s := combining 6 6 1 2 2 4 0 0
     s.run = true ∧ s.ctxOk 31 = true ∧ s.fold.ctx.length = 32 ∧ s.clockRuns = true ∧ s.clkSeen .arith = true ∧ partialOf (s.ctxOp 31) (s.ctxIf 31) = some 6
     ∧ s.ctxIf 31 ≠ 9 ∧ s.getF (FOLD_CTX_SRC_OPSRC 31) = 2 ∧ s.getB (FOLD_CTX_ANCHOR_ASRC 31) = false ∧ (s.ctx 31).opQ.length < elemBits 6 / 8)
    ∧ (let s := folding 6 1 2 0 Ctx.empty; s.ctxMay 31 = false) := by decide +kernel

theorem witness_ElementsAreCombined_values :
    (∃ v : FVal, ∃ n g, v = .nan n g) ∧ (0 : Int) < 1 ∧ 9 ≤ flog2 1 9 ∧ 16 ≤ flog2 1 16 ∧ (0 : Nat) < 2 ^ 16
    ∧ (∀ k : Int, Ap.fin 0 = .fin k → k.natAbs < 2 ^ 189) ∧ -(2 ^ 191 - 3 : Int) ≤ 2 ^ 191 - 1 ∧ (-200 : Int) < flog2 1 0 ∧ flog2 1 0 ≤ 0
    ∧ (∃ v ∈ [FVal.inf true], ∀ n m e, v ≠ .fin n m e) := by
  refine ⟨⟨.nan false false, false, false, rfl⟩, by decide, by decide, by decide, by decide, ?_, by decide, by decide, by decide, ?_⟩
  · intro k h
    cases h
    decide
  · exact ⟨_, List.mem_singleton.2 rfl, fun _ _ _ h => nomatch h⟩

theorem witness_FoldDataEntersAndLeaves :
    (∀ d ∈ [0, 2], let s := folding 6 1 2 d { Ctx.empty with outQ := [1] }
      clocked s = true ∧ s.fold.ctx.length = 32 ∧ s.run = true ∧ s.ctxOk 31 = true ∧ s.getF (FOLD_CTX_DST_OUTDST 31) = d ∧ (s.ctx 31).outQ ≠ [])
    ∧ (let s := (folding 6 1 2 1 { Ctx.empty with outQ := List.replicate 128 1 }).setFs [(MOV_TAGS_LOG2, 6), (MOV_TAGS_BASE, 0)]
       clocked s = true ∧ s.fold.ctx.length = 32 ∧ s.run = true ∧ s.ctxOk 31 = true
       ∧ s.getF (FOLD_CTX_DST_OUTDST 31) = 1 ∧ s.freeTag = some 0x8000 ∧ (s.ctx 31).outQ ≠ [] ∧ (s.ctx 31).outQ.length ≤ (s.outRound 31).2 ∧ s.trn.writes = []
       ∧ s.getW (MOV_SWIN_BASE (s.getF (FOLD_CTX_DST_OUTSEL 31) % 32)) % 128 = 0 ∧ (s.ctx 31).outQ.length ≤ s.winRoom (s.getF (FOLD_CTX_DST_OUTSEL 31) % 32)
       ∧ (s.winProd 31 + s.aheadOf (0x30000 + 31)) % 128 + (s.ctx 31).outQ.length ≤ 128)
    ∧ (let s := folding 6 1 2 0 Ctx.empty
       clocked s = true ∧ s.fold.ctx.length = 32 ∧ s.run = true ∧ s.ctxOk 31 = true
       ∧ s.getF (FOLD_CTX_SRC_INSRC 31) = 2 ∧ s.getF (FOLD_CTX_SRC_INSEL 31) = (0 : BitVec 12).toNat ∧ s.getF (FOLD_CTX_SRC_INSEL 31) ≠ (4095 : BitVec 12).toNat
       ∧ s.getF (FOLD_CTX_SRC_OPSRC 31) = 2 ∧ s.getF (FOLD_CTX_SRC_OPSEL 31) = (0 : BitVec 12).toNat ∧ s.getF (FOLD_CTX_SRC_OPSEL 31) ≠ (4095 : BitVec 12).toNat
       ∧ (List.replicate 4 (0 : Byte)).length ≤ s.ctxFree 31)
    ∧ (let s := { folding 6 1 2 0 Ctx.empty with trn := { Trn.reset with ahead := [⟨0x10000 + 31, 0, 0, 8192, 0, 0, none⟩] } }
       clocked s = true ∧ s.fold.ctx.length = 32 ∧ s.run = true ∧ s.ctxOk 31 = true ∧ s.getF (FOLD_CTX_SRC_INSRC 31) = 2
       ∧ s.getF (FOLD_CTX_SRC_INSEL 31) = (0 : BitVec 12).toNat ∧ s.ctxFree 31 < (List.replicate 1 (0 : Byte)).length)
    ∧ (let s := { st 14 [] with trn := { Trn.reset with descs := [(4092, 0x80000000), (4094, 0x3000000F)] } }
       clocked s = true ∧ s.fold.ctx.length = 32
       ∧ (s.descValid (1023 : BitVec 10).toNat && !s.descRx (1023 : BitVec 10).toNat && s.portKind (1023 : BitVec 10).toNat == 3
         && s.portOk (1023 : BitVec 10).toNat false && s.descPort (1023 : BitVec 10).toNat % 128 == (15 : BitVec 7).toNat
         && bitsOf (s.descPort (1023 : BitVec 10).toNat) 16 10 == (0 : BitVec 10).toNat) = true)
    ∧ (∀ b ∈ [none, some 0], let s := { st 14 [] with trn := { Trn.reset with badIn := b } }
       clocked s = true ∧ (s.descValid 1023 && !s.descRx 1023 && s.portKind 1023 == 3 && s.portOk 1023 false) = false ∧ (s.trn.badIn = some s.tim.round ↔ b = some 0)) := by decide +kernel

/-! ### Witnesses: delivery -/

/-- A left fold that evaluates what it carries at every element; it equals the plain one. -/
def foldNow {α : Type} (f : Nat → α → Nat) : List α → Nat → Nat
  | [], a => a
  | x :: l, 0 => foldNow f l (f 0 x)
  | x :: l, a + 1 => foldNow f l (f (a + 1) x)

theorem foldNow_eq {α : Type} (f : Nat → α → Nat) (l : List α) : ∀ a, l.foldl f a = foldNow f l a := by
  induction l with
  | nil => intro a; cases a <;> rfl
  | cons x l ih => intro a; cases a <;> exact ih _

theorem rsErrors_clean (r : List Nat) (h : ∀ i < 8, foldNow (fun acc x => gfMul acc (gfAlpha i) ^^^ x) r 0 = 0) : rsErrors r = some [] := by
  have hz : (rsSyndromes r).all (· == 0) = true := by
    rw [List.all_eq_true]
    intro y hy
    obtain ⟨i, hi, rfl⟩ := List.mem_map.1 hy
    have := h i (List.mem_range.1 hi)
    rw [← foldNow_eq] at this
    simpa using this
  simp only [rsErrors, hz, if_true]

/-- The wire bytes of a wire flit on 16 lanes, first of its first group, descrambled. -/
def clear (w : BitVec 2176) : List Byte := scramble (List.range 16) 0 0 (wireBytes w)

/-- Its flit bytes where it has no error. -/
def flitIn (w : BitVec 2176) : List Byte :=
  ((codeword 0 (clear w)).take 128).map (BitVec.ofNat 8) ++ ((codeword 1 (clear w)).take 128).map (BitVec.ofNat 8)

/-- Nothing is wrong with a wire flit: every syndrome of both codewords is 0, and the CRC matches. -/
def Clean (w : BitVec 2176) : Prop :=
  (∀ i < 8, foldNow (fun acc x => gfMul acc (gfAlpha i) ^^^ x) (codeword 0 (clear w)) 0 = 0)
  ∧ (∀ i < 8, foldNow (fun acc x => gfMul acc (gfAlpha i) ^^^ x) (codeword 1 (clear w)) 0 = 0)
  ∧ foldNow (crcByte 64 0x42F0E1EBA9EA3693) ((flitIn w).take 248) 0 = bytesAt (flitIn w) 248 8

/-- A link that receives on 16 lanes, in a state of the link and with register fields set. -/
def receiving (l : List (Fld × Nat)) : State := { st 14 ((LINK_STATUS_STATE, 4) :: l) with lnk := { Lnk.reset with rxMap := List.range 16 } }

theorem decode_of_clean (w : BitVec 2176) (h0 : ∀ i < 8, foldNow (fun acc x => gfMul acc (gfAlpha i) ^^^ x) (codeword 0 (clear w)) 0 = 0)
    (h1 : ∀ i < 8, foldNow (fun acc x => gfMul acc (gfAlpha i) ^^^ x) (codeword 1 (clear w)) 0 = 0) :
    decodeFlit (clear w) = ⟨[], [0, 0], 0, some (flitIn w)⟩ := by
  simp only [decodeFlit, rsErrors_clean _ h0, rsErrors_clean _ h1]
  rfl

theorem carries_of_clean (l : List (Fld × Nat)) (w : BitVec 2176) (h : Clean w) : Carries (receiving l) w (flitIn w) := by
  refine ⟨?_, ?_⟩
  · exact decode_of_clean w h.1 h.2.1
  · rw [crc64, foldNow_eq]
    exact h.2.2

/-- An idle flit. -/
def idleFlit : BitVec 2176 := 0xffffffffffffffff0ffffeffe1fffffffffdfbf9f7f5f3f1efedebe9e7e5e3e1fffffffffffffffffffffffffffffffffefefefefefefefefefefefefefefefe000000000000000001010101010101010024486c90b4d8fc2004684cb094f8dc000000000000000000000000000000001c1c1c1c1c1c1c1c1c1c1c1c1c1c1c1c00020406080a0c0e10121416181a1c1e0008101820283038404850586068707801010101010101010101010101010101f8f8f8f8f8f8f8f8f9f9f9f9f9f9f9f90024496d92b6dbff24006d49b692ffdb009020b040d060f08010a030c050e0701c1c1c1c1c1c1c1c1c1c1c1c1c1c1c1c70cf746f78ab7c3260ff64cd68106c7cc92accb63bab08b2abc2d9576883c3f4
/-- A stream flit of SEQ 1. -/
def streamFlit : BitVec 2176 := 0xfffffeffffffffff0fffffffa1fffffffffdfbf9f7f5f3f1efedebe9e7e5e3e1fffffffffffffffffffffffffffffffffefefefefefefefefefefefefefefefe000000000000000001010101010101010024486c90b4d8fc2004684cb094f8dc000000000000000000000000000000001c1c1c1c1c1c1c1c1c1c1c1c1c1c1c1c00020406080a0c0e10121416181a1c1e0008101820283038404850586068707801010101010101010101010101010101f8f8f8f8f8f8f8f8f9f9f9f9f9f9f9f90024496d92b6dbff24006d49b692ffdb009020b040d060f08010a030c050e0701c1c1c1c1c1c1c1c1c1c1c1c1c1c1c1c70ac749078d67c5360d46409687b6c54be3f060fa0b1223c34fc6caef7033aa7
/-- A payload flit of SEQ 1 with a one-pip message of channel 2 in slot 0. -/
def messageFlit : BitVec 2176 := 0xfffffeffffffffff0fffffffffffffffdf0dfaf908f50cf1efedebe9e7e5e3e1ffffffffffffffffffffffffffffffff0e0efefefefefefefefefefefefefefe00000000000000000101010101010101f0d4486c90b4d8fc2004684cb094f8dc00000000000000000000000000000000ecec1c1c1c1c1c1c1c1c1c1c1c1c1c1c00020406080a0c0e10121416181a1c1ef0f81018202830384048505860687078010101010101010101010101010101010808f8f8f8f8f8f8f9f9f9f9f9f9f9f90024496d92b6dbff24006d49b692ffdbf06020b040d060f08010a030c050e0701c1c1c1c1c1c1c1c1c1c1c1c1c1c1c1c8004741978f37ca560e264f668146c49364fe50f715ed5c887397920dc9175ac

/-- A wire flit without symbol errors whose CRC-64 is wrong. -/
def badFlit : BitVec 2176 := 0xfffffffffffffffffffffffffffffffffffdfbf9f7f5f3f1efedebe9e7e5e3e1fffffffffffffffffffffffffffffffffefefefefefefefefefefefefefefefe000000000000000001010101010101010024486c90b4d8fc2004684cb094f8dc000000000000000000000000000000001c1c1c1c1c1c1c1c1c1c1c1c1c1c1c1c00020406080a0c0e10121416181a1c1e0008101820283038404850586068707801010101010101010101010101010101f8f8f8f8f8f8f8f8f9f9f9f9f9f9f9f90024496d92b6dbff24006d49b692ffdb009020b040d060f08010a030c050e0701c1c1c1c1c1c1c1c1c1c1c1c1c1c1c1c70727476787a7c7e60626466686a6c6f00ff000b0051003601ee01ac01c90119

theorem idleFlit_clean : Clean idleFlit := by
  refine ⟨?_, ?_, ?_⟩ <;> decide +kernel
theorem streamFlit_clean : Clean streamFlit := by
  refine ⟨?_, ?_, ?_⟩ <;> decide +kernel
theorem messageFlit_clean : Clean messageFlit := by
  refine ⟨?_, ?_, ?_⟩ <;> decide +kernel

theorem badFlit_fails : ∃ f, (decodeFlit (clear badFlit)).flit = some f ∧ crc64 (f.take 248) ≠ bytesAt f 248 8 := by
  refine ⟨flitIn badFlit, ?_, ?_⟩
  · rw [decode_of_clean _ (by decide +kernel) (by decide +kernel)]
  · rw [crc64, foldNow_eq]
    decide +kernel

theorem witness_WireFlitsRoundTrip : (List.replicate 256 (0xFF : Byte)).length = 256
    ∧ ∀ n ∈ [1, 16], 1 ≤ (List.replicate n 31).length ∧ (List.replicate n 31).length ≤ 16 ∧ (∀ x ∈ List.replicate n 31, x < 32) ∧ 2 < 3 := by
  decide +kernel

theorem witness_HeadersAndBodiesRoundTrip :
    (let h : Hdr := ⟨65535, 65535, 15, 1023, 3, true, true, true, 15⟩
     h.seq < 2 ^ 16 ∧ h.ack < 2 ^ 16 ∧ h.cch < 16 ∧ h.cpips < 1024 ∧ h.kind < 4 ∧ h.firsthead < 16)
    ∧ 2 ^ 64 - 1 < 2 ^ 64 ∧ (List.replicate 15 nulPip).length = 15 ∧ (List.replicate 63 nulPip).length < 64 ∧ 15 < 16 ∧ 63 < 64
    ∧ (⟨255, 4, 18, 3, 0, 0xFFFFFFFF, 0xFFFFFF, List.replicate 16 255⟩ : ShiftMsg).map.length = 16 := by decide

theorem witness_FlitsAreReceived_bad : (bare 14 []).xOpen 0 = false ∧ (bare 14 []).isl.inReset = false ∧ (bare 14 []).isl.wait = [] ∧ (receiving []).xOpen 0 = true ∧ (receiving []).linkRuns = true ∧ (receiving [(LINK_STATUS_STATE, 5)]).linkRuns = true
    ∧ (∀ l ∈ (receiving []).lnk.rxMap, l < 18)
    ∧ (∃ f, (decodeFlit (scramble (receiving []).lnk.rxMap (receiving []).lnk.gRx (receiving []).lnk.fRx (wireBytes badFlit))).flit = some f
        ∧ crc64 (f.take 248) ≠ bytesAt f 248 8) := ⟨by decide, by decide, by decide, by decide, by decide, by decide, by decide, badFlit_fails⟩

/-- The header of a wire flit. -/
def hdrIn (w : BitVec 2176) : Hdr := hdrOf (bytesAt (flitIn w) 0 8)

/-- A link that receives, the last SEQ accepted being `n`, with register fields set. -/
def after (n : Nat) (l : List (Fld × Nat)) : State := receiving ([(DLV_SEQ_RXSEQ, n), (DLV_BANK_ACKED, 0)] ++ l)

theorem witness_FlitsAreReceived_quiet (n : Nat) (l : List (Fld × Nat)) : Carries (after n l) idleFlit (flitIn idleFlit)
    ∧ Carries (after n l) streamFlit (flitIn streamFlit) ∧ Carries (after n l) messageFlit (flitIn messageFlit) :=
  ⟨carries_of_clean _ _ idleFlit_clean, carries_of_clean _ _ streamFlit_clean, carries_of_clean _ _ messageFlit_clean⟩

theorem witness_FlitsAreReceived :
    hdrIn idleFlit = ⟨0, 0, 15, 0, 1, false, false, false, 15⟩ ∧ hdrIn streamFlit = ⟨1, 0, 15, 0, 0, false, true, false, 15⟩
    ∧ hdrIn messageFlit = ⟨1, 0, 15, 0, 0, false, false, false, 0⟩
    ∧ (∀ n ∈ [0, 1, 32768, 32769, 65535], let s := after n []
      s.xOpen 0 = true ∧ s.linkRuns = true ∧ QuietHdr s ⟨0, 0, 15, 0, 1, false, false, false, 15⟩ ∧ QuietHdr s ⟨1, 0, 15, 0, 0, false, true, false, 15⟩
      ∧ (1 + 2 ^ 17 - (s.getF DLV_SEQ_RXSEQ + 1)) % 2 ^ 16 = (65536 - n) % 65536)
    ∧ (after 0 []).run = false
    ∧ (let s := after 0 []
       s.dlv.part = [] ∧ s.dlv.due = 0 ∧ s.guestEdge = false ∧ flitSlots (flitIn messageFlit) = mkMsg 2 1 0xFFFF 0 [] ++ List.replicate 14 nulPip
       ∧ opPips 2 1 = some 1 ∧ headOf ((mkMsg 2 1 0xFFFF 0 []).headD 0) = ⟨2, 1, 1, 0xFFFF⟩)
    ∧ (∀ n ∈ [0, 1023], (after 0 [(DLV_RXBUF_HELD 2, n)]).getF (DLV_RXBUF_HELD 2) + 1 ≤ rxCap 14 2)
    ∧ (∀ n ∈ [0, 65534], let s := after 0 [(DLV_RXBUF_HELD 2, 1024), (DLV_RXBUF_OWED 2, n)]
      rxCap s.place 2 < s.getF (DLV_RXBUF_HELD 2) + 1 ∧ s.getF (DLV_RXBUF_OWED 2) + 1 < 2 ^ 16) := by
  refine ⟨?_, ?_, ?_, ?_, ?_, ?_, ?_, ?_⟩
  · decide +kernel
  · decide +kernel
  · decide +kernel
  · unfold QuietHdr; decide +kernel
  all_goals decide +kernel

/-- A link on 16 lanes in Up with messages waiting and fields set. -/
def sending (tx : List TxMsg) (l : List (Fld × Nat)) : State := { st 14 ((LINK_STATUS_STATE, 4) :: l) with dlv := { Dlv.reset with tx := tx } }

theorem sending_sends (s : State) (h : s.clockRuns = true ∧ (s.xOpen 1 = true ∧ s.dlv.heard = none) ∧ s.isl.wait = [] ∧ s.linkRuns = true ∧ s.lnk.gap = false ∧ s.trn.void = false ∧ s.guestEdge = false ∧ s.run = false
    ∧ s.dlv.urgent = [] ∧ s.dlv.lc = [] ∧ s.dlv.idleOnly = false ∧ s.dlv.cur = [] ∧ s.tim.beatDue = false) : SendsMessages s :=
  let g := h.2.2
  ⟨h.1, h.2.1.1, (fun t ht => by rw [h.2.1.2] at ht; cases ht), g.1, g.2.1, g.2.2.1, g.2.2.2.1, g.2.2.2.2.1, g.2.2.2.2.2.1, g.2.2.2.2.2.2.1,
    g.2.2.2.2.2.2.2.1, g.2.2.2.2.2.2.2.2.1, g.2.2.2.2.2.2.2.2.2.1, g.2.2.2.2.2.2.2.2.2.2⟩

theorem witness_FlitsAreSent :
    SendsMessages (sending [] []) ∧ SendsMessages { sending [] [] with dlv := { Dlv.reset with nakDue := true, nakAt := 0, acc := some (1, 5) } } ∧ (sending [] []).dlv.replay = none ∧ (sending [] []).dlv.tx = [] ∧ (sending [] []).getB DLV_STATUS_INITDONE = false
    ∧ (∀ c < 6, (sending [] [(DLV_STATUS_INITDONE, 1)]).getF (DLV_RXBUF_OWED c) = 0)
    ∧ (∀ n ∈ [1, 1023], let s := sending [] [(DLV_STATUS_INITDONE, 1), (DLV_RXBUF_OWED 5, n)]
      s.getB DLV_STATUS_INITDONE = true ∧ n = s.getF (DLV_RXBUF_OWED 5) ∧ ∀ c < 6, c ≠ 5 → s.getF (DLV_RXBUF_OWED c) = 0)
    ∧ (∀ n ∈ [0, 14], let m := mkMsg 5 1 0 0 (List.replicate n 0)
      let s := sending [⟨m, true⟩] [(DLV_WIN_WINDOW 5, 15), (DLV_STATUS_CREDIT_OK, 1), (⟨0x4C8, 0, 8⟩, 0x3F)]
      s.dlv.tx = [⟨m, true⟩] ∧ 1 ≤ m.length ∧ m.length ≤ 15 ∧ (msgHead m).chan ≤ 5 ∧ s.getB DLV_STATUS_INITDONE = false
      ∧ s.dlv.bank.length < bankCap s.place ∧ s.qualifies (msgHead m).chan = true)
    ∧ (∀ a ∈ [0, 65535], let s := { st 14 [(LINK_STATUS_STATE, 5), (DLV_BANK_ACKED, a)] with
         dlv := { Dlv.reset with replay := some (BitVec.ofNat 16 (a + 2)), bank := [⟨1, [], []⟩, ⟨2, [], []⟩] } }
       s.dlv.fresh = false ∧ s.dlv.bank[((BitVec.ofNat 16 (a + 2)).toNat + 2 ^ 17 - (s.getF DLV_BANK_ACKED + 1)) % 2 ^ 16]? = some ⟨2, [], []⟩) := by
  refine ⟨sending_sends _ (by decide), sending_sends _ (by decide), ?_⟩
  decide +kernel

theorem witness_FlitsAreSent_heard : let s := { sending [] [] with dlv := { Dlv.reset with heard := some 0 } }
    s.clockRuns = true ∧ s.dlv.heard = some s.now := by decide

theorem witness_FlitsAreSent_messages : (∀ n ∈ [0, 14], let m := mkMsg 5 1 0 0 (List.replicate n 0)
      SendsMessages (sending [⟨m, true⟩] [(DLV_WIN_WINDOW 5, 15), (DLV_STATUS_CREDIT_OK, 1), (⟨0x4C8, 0, 8⟩, 0x3F)]))
    ∧ (∀ n ∈ [1, 1023], SendsMessages (sending [] [(DLV_STATUS_INITDONE, 1), (DLV_RXBUF_OWED 5, n)]))
    ∧ ∀ a ∈ [0, 65535], SendsMessages { st 14 [(LINK_STATUS_STATE, 5), (DLV_BANK_ACKED, a)] with
         dlv := { Dlv.reset with replay := some (BitVec.ofNat 16 (a + 2)), bank := [⟨1, [], []⟩, ⟨2, [], []⟩] } } := by
  refine ⟨fun n hn => sending_sends _ ?_, fun n hn => sending_sends _ ?_, fun a ha => sending_sends _ ?_⟩
  · revert n; decide
  · revert n; decide
  · revert a; decide

theorem witness_CreditsAreExchangedAndKept :
    (∀ n ∈ [0, 3], let s := { st 14 [(LINK_STATUS_STATE, 6), (DLV_ACKTO_REPLAY_LIMIT, 2)] with
         dlv := { Dlv.reset with bank := [⟨1, [], []⟩], noProgress := n } }
       s.clockRuns = true ∧ s.link = 6 ∧ s.dlv.bank ≠ [] ∧ s.dlv.noProgress ≠ max 1 (s.getF DLV_ACKTO_REPLAY_LIMIT))
    ∧ (∀ n ∈ [0, 2], let s := { st 14 [(LINK_STATUS_STATE, 4), (DLV_ACKTO_REPLAY_LIMIT, 2)] with
         dlv := { Dlv.reset with bank := [⟨1, [], []⟩], noProgress := n } }
       s.clockRuns = true ∧ s.linkRuns = true ∧ s.dlv.bank ≠ [] ∧ s.dlv.noProgress = n ∧ max 1 (s.getF DLV_ACKTO_REPLAY_LIMIT) = 2)
    ∧ (let s := { st 14 [(LINK_STATUS_STATE, 5)] with dlv := { Dlv.reset with exch := true, initAt := 0, flits := 32 } }
       s.clockRuns = true ∧ s.linkRuns = true ∧ s.dlv.exch = true ∧ s.dlv.initAt + 32 ≤ s.dlv.flits ∧ s.getB DLV_STATUS_CREDIT_OK = false ∧ (List.replicate 6 (65535 : BitVec 16)).length = 6
       ∧ s.dlv.bank = [] ∧ s.dlv.cur = [] ∧ s.guestEdge = false)
    ∧ (let s := { st 14 [(LINK_STATUS_STATE, 4), (DLV_STATUS_INITDONE, 1), (⟨0x4CC, 16, 8⟩, 4), (DLV_CTRL_TALLY_MODE, 1)] with
         dlv := { Dlv.reset with tally := 4096 } }
       s.clockRuns = true ∧ s.linkRuns = true ∧ s.tallies = true ∧ 4096 ≤ s.dlv.tally)
    ∧ (let s := st 14 [(LINK_STATUS_STATE, 4), (DLV_STATUS_RXEPOCH, 255), (DLV_SEQ_RXSEQ, 65535), (DLV_STATUS_CREDIT_OK, 1), (DLV_PCAP_PCAP 0, 65535)]
       let m : CreditMsg := ⟨false, 255, 0, 65535, [65535], []⟩
       s.clockRuns = true ∧ s.linkRuns = true ∧ m.epoch.toNat = s.getF DLV_STATUS_RXEPOCH ∧ s.getB DLV_STATUS_CREDIT_OK = true ∧ s.getF DLV_SEQ_RXSEQ = m.rseq.toNat
       ∧ (∀ c < 6, 0 ≤ ((m.room.getD c 0).toNat : Int) - (m.owed.getD c 0).toNat - (s.inFlight c m.aseq.toNat : Int)
          ∧ ((m.room.getD c 0).toNat : Int) - (m.owed.getD c 0).toNat - (s.inFlight c m.aseq.toNat : Int) ≤ s.getF (DLV_PCAP_PCAP c))
       ∧ (254 : Byte).toNat ≠ s.getF DLV_STATUS_RXEPOCH ∧ s.getF DLV_SEQ_RXSEQ ≠ (0 : BitVec 16).toNat)
    ∧ (∀ b ∈ [0, 1, 65535], ∀ i ∈ [48, 49], let s := st i [(FW_RATE_RATE 5, 65535), (FW_RATE_BURST 5, b)]
       s.clockRuns = true ∧ s.guestEdge = true ∧ s.getF (FW_RATE_RATE 5) ≠ 0 ∧ s.dlv.buckets.length = 6 ∧ s.dlv.bucketAt.length = 6) := by decide +kernel

theorem witness_LoopIsMeasured :
    (∀ n ∈ [0, 1023, 1024], let s := { st 14 [(LINK_STATUS_STATE, 4)] with
        dlv := { Dlv.reset with loopOn := true, probeSent := n, echoes := 1, probes := [(255, 0)], flits := 8 } }
      s.clockRuns = true ∧ s.linkRuns = true ∧ s.dlv.loopOn = true ∧ s.dlv.probeSent = n ∧ s.dlv.echoes ≠ 0 ∧ s.dlv.echoes ≠ 127
      ∧ (∀ m ∈ s.dlv.lc, byteAt m.body 0 ≠ 0x29 ∨ byteAt m.body 1 ≠ 0) ∧ (s.dlv.probeSent = 0 ∨ s.dlv.probeFlit + 8 ≤ s.dlv.flits)
      ∧ s.dlv.probes.find? (fun p => p.1 == (255 : Byte).toNat) = some ((255 : Byte).toNat, 0))
    ∧ (let m : LcOut := ⟨probeBody false 255 0, 0⟩
       let s := { st 14 [(LINK_STATUS_STATE, 4)] with dlv := { Dlv.reset with lc := [m] } }
       s.clockRuns = true ∧ s.linkRuns = true ∧ s.run = false ∧ s.lnk.gap = false ∧ s.trn.void = false ∧ s.dlv.idleOnly = false ∧ s.dlv.urgent = []
       ∧ s.dlv.replay = none ∧ s.isl.wait = [] ∧ s.xOpen 1 = true ∧ s.dlv.heard = none ∧ s.dlv.lc = m :: [] ∧ byteAt m.body 0 = 0x29 ∧ byteAt m.body 1 = 0) := by decide

/-- Messages in the receive buffers, oldest first. -/
def holding (i : Nat) (l : List (Fld × Nat)) (rx : List RxMsg) : State := { st i l with dlv := { Dlv.reset with rx := rx } }

theorem witness_MessagesAndStreamsAreDelivered :
    (let s := bare 14 []; s.isl.wait = [] ∧ s.link ≠ 7 ∧ s.xOpen 2 = false) ∧ mkMsg 5 1 0 0 [] ≠ [] ∧ (msgHead (mkMsg 5 1 0 0 [])).chan ≤ 5
    ∧ (∀ k ∈ [7, 8], let s := st 14 [(LINK_STATUS_STATE, k)]; clocked s = true ∧ s.guestEdge = false ∧ s.isl.wait = [] ∧ s.link = k)
    ∧ (∀ i ∈ [48, 49], let s := st i []
      clocked s = true ∧ s.isl.wait = [] ∧ s.link ≠ 7 ∧ s.guestEdge = true ∧ (msgHead (mkMsg 4 1 0 0 [])).chan = 4 ∧ s.getB FW_CTRL_DBG_UNLOCK = false ∧ ∀ x ∈ s.dlv.tx, (msgHead x.m).chan ≠ 4) := by decide

theorem witness_MessagesAndStreamsAreDelivered_out :
    (let x : RxMsg := ⟨2, mkMsg 2 1 0 0 [], 1, 0, 0⟩
       let s := holding 14 [] [x]
       clocked s = true ∧ s.rxFirst 2 = some x ∧ isFence x.m = false ∧ carriesOw x.m = false ∧ s.ownAnswer x.m = false ∧ (msgHead x.m).chan ≠ 5)
    ∧ (∀ v ∈ [0, 1], let x : RxMsg := ⟨0, mkMsg 0 1 0 (255 * 2 ^ 24) [], 1, 0, 0⟩
       let s := holding 14 [(VI_ENT_STATE 255, v)] [x]
       clocked s = true ∧ s.rxFirst 0 = some x ∧ isFence x.m = false ∧ carriesOw x.m = true ∧ owPod (msgOw x.m) = s.pod_ ∧ s.staleOw (msgOw x.m) = decide (v = 0)
       ∧ s.ownAnswer x.m = false ∧ (msgHead x.m).chan ≠ 5)
    ∧ (∀ n ∈ [0, 1], let x : RxMsg := ⟨0, mkMsg 0 8 0 (255 * 2 ^ 24) [], 1, n, 0⟩
       let s := holding 14 [(VI_ENT_STATE 255, 1)] [x]
       clocked s = true ∧ s.rxFirst 0 = some x ∧ isFence x.m = true ∧ s.fenceFree x = decide (n = 0) ∧ owPod (msgOw x.m) = s.pod_ ∧ s.staleOw (msgOw x.m) = false)
    ∧ (let e : SbEntry := ⟨0, 0, 1023, [0]⟩
       let s := { st 14 [] with trn := { Trn.reset with sbuf := [e], descs := [(4092, 0xC0000000), (4094, 0x3000000F)] } }
       clocked s = true ∧ s.trn.void = false ∧ s.trn.sbuf = [e] ∧ s.dueOf e.round e.off = some 0 ∧ s.tick ≤ 0
       ∧ s.guestEdge = false ∧ s.oldPosition e.stream e.round = false ∧ s.portKind e.stream = 3 ∧ s.portOk e.stream true = true)
    ∧ (let s := { st 14 [(TURN_CTRL_RUN, 1), (TURN_LEN_LEN, 4096), (TURN_DIR_RX_VALID 0, 1)] with
         tim := { Tim.reset with len := 4096 }, trn := { Trn.reset with frames := [(0, 0xFFF103FF)] } }
       clocked s = true ∧ s.trn.void = false ∧ s.trn.sbuf = [] ∧ s.nextDue = some (0, none, 0, ⟨⟨1, 1023, 0, 4096⟩, 0, 0⟩) ∧ s.tick ≤ 0) := by decide +kernel

/-! ### Witnesses: training, Shift, LANE-EQ -/

/-- A link in a state, with the training part given and fields set. -/
def linkIn (i k : Nat) (l : List (Fld × Nat)) (n : Lnk) : State := { st i ((LINK_STATUS_STATE, k) :: l) with lnk := n }

theorem witness_TrainingMessagesAreCarried :
    (st 14 [(LANE_STATUS_STATE 18, 3)]).sbUp = true ∧ (List.replicate 1022 (0 : Byte)).length ≤ 1022 ∧ (List.replicate 1024 (0 : Byte)).length ≤ 1024
    ∧ (5 ≤ [1, 0, 0, 0, 0].length ∧ crc16 (([1, 0, 0, 0, 0] : List Byte).take 3) ≠ bytesAt [1, 0, 0, 0, 0] 3 2)
    ∧ (bare 113 []).far = true ∧ (bare 113 []).lnk.copy = none
    ∧ (∀ l ∈ [[0], [0, 17]], let s := { bare 113 [] with lnk := { Lnk.reset with copy := some ([9, 0, 1] ++ List.replicate 52 0, l) } }
      s.far = true ∧ s.lnk.copy = some ([9] ++ beBytes 2 (1 : BitVec 16).toNat ++ List.replicate 52 0, l) ∧ (0 : Byte).toNat ∈ l ∧ (1 : Byte).toNat ∉ l)
    ∧ (List.replicate 52 (0 : Byte)).length = 52 ∧ (52 : BitVec 16).toNat ≤ 52 := by decide +kernel

theorem witness_TrainingMessagesAreCarried_rows (b : List Byte) (seen off : BitVec 24) :
    TrainingRow (1 : Byte).toNat b seen off (.detectMessage (readDetect b) seen off) ∧ TrainingRow (9 : Byte).toNat b seen off (.abortMessage (b.getD 0 0)) :=
  ⟨.inl ⟨by decide, rfl⟩, .inr (.inr (.inr (.inr (.inr (.inr (.inr (.inr ⟨by decide, rfl⟩)))))))⟩

theorem witness_TrainingMessagesAreCarried_block :
    crc16 (((beBytes 64 (0 : BitVec 512).toNat).drop 4).take 56) ≠ bytesAt (beBytes 64 (0 : BitVec 512).toNat) 60 2 := by
  rw [crc16, foldNow_eq]
  decide +kernel

theorem witness_LanesAreEqualised :
    (∀ i ∈ [14, 50], let s := linkIn i 2 [] Lnk.reset
      s.link = 2 ∧ s.lanes.contains (16 : Byte).toNat = true ∧ s.firstReq (255 : Byte).toNat (16 : Byte).toNat 7 = true ∧ s.laneState 16 ≠ 3 ∧ s.age.sweep = none)
    ∧ eqAllowed 15 6 20 6 = true ∧ eqAllowed 15 0 16 16 = true ∧ eqAllowed 15 1 16 16 = false ∧ eqAllowed 0 7 0 0 = false
    ∧ (let s := linkIn 14 2 [] { Lnk.reset with msgs := [⟨2, [255, 17], 0, 0⟩] }; s.link = 2 ∧ ∃ x ∈ s.lnk.msgs, x.tcode = 2 ∧ x.body.take 2 = [255, 17])
    ∧ (∀ b ∈ [false, true], ∀ q ∈ [[], [(0, 0x7F)]], let s := linkIn 14 2 [(START_CTRL_MFGDONE, 1), (START_STATUS_STAGE, 5)] { Lnk.reset with passSent := b, ownPass := 0x3FFFF, eqMode := if q.isEmpty then 2 else 1, tried := q }
      s.link = 2 ∧ (BitVec.ofNat 8 s.lnk.eqMode).toNat = s.lnk.eqMode ∧ s.lnk.peerPass = none ∧ s.lnk.passSent = b ∧ s.getB START_CTRL_MFGDONE = true ∧ s.stage = 5
      ∧ s.starting = true ∧ widestFor s.place (s.nOf (s.lnk.ownPass &&& (0x0FFFF : BitVec 24).toNat)) = fullWidth s.place
      ∧ ∀ p ∈ s.lnk.tried, widestFor s.place (s.nOf p.2) * modeRate p.1 < fullWidth s.place * modeRate s.lnk.eqMode)
    ∧ (let q : Search := ⟨17, true, [3], 2, 0, 0, false, false, 0⟩
       let s := linkIn 14 2 [] { Lnk.reset with searches := [q] }
       s.link = 2 ∧ s.searchOf (17 : Fin 18).val = some q ∧ q.swing = false ∧ q.left = [3])
    ∧ (let s := linkIn 14 6 [] { Lnk.reset with usable := 0x3FFFF }; s.link = 6 ∧ s.lnk.passSent = false ∧ s.lnk.peerPass = none) := by
  decide +kernel

theorem witness_LinksAreNegotiated :
    (∀ n ∈ [0, 2], let s := linkIn 14 1 [(START_STATUS_STAGE, 4)] { Lnk.reset with stable := n, seen := 0x3FFFF, peerSeen := 0x3FFFF }
      (0x3FFFF : BitVec 24).toNat ≠ 0 ∧ s.detected = false ∧ s.link = 1 ∧ s.starting = true ∧ s.getB LINK_STATUS_EMPTY = false ∧ s.guestEdge = false
      ∧ (if (s.lnk.seen, s.lnk.peerSeen) = ((0x3FFFF : BitVec 24).toNat &&& maskOf s.lanes, (0x3FFFF : BitVec 24).toNat) then s.lnk.stable + 1 else 1) < 4)
    ∧ (let s := linkIn 14 3 [(⟨0x448, 16, 8⟩, 7)] { Lnk.reset with msgs := [⟨5, [], 0, 0⟩] }
       let r := beBytes 24 (BitVec.ofNat 192 (2 * 2 ^ 184 + 2 ^ 176 + 2 ^ 112)).toNat
       s.link = 3 ∧ s.far = false ∧ s.guestEdge = false ∧ s.lnk.held18 = false ∧ (∃ x ∈ s.lnk.msgs, x.tcode = 5) ∧ (r.getD 0 0).toNat = 2
       ∧ (r.getD 1 0).toNat ≠ 0 ∧ bitOf ((usedCap ((List.range 24).map (fun i => BitVec.ofNat 8 (s.capByte 0x440 i))) r).getD 9 0).toNat s.lnk.eqMode = true ∧ s.capByte 0x480 0 = 0)
    ∧ (let r : ReadyMsg := ⟨2, 4, 0, []⟩
       let s := { linkIn 14 3 [] { Lnk.reset with ownReady := some r, peerReady := some r } with die := BitVec.ofNat 64 (2 ^ 64 - 65) }
       s.clockRuns = true ∧ s.lnk.held18 = false ∧ (∀ l ∈ mapOf r.map, s.getF (AGE_LANE_STAT_VERDICT (l % 32)) < 2 ∧ bitOf s.excl (l % 32) = false) ∧ s.link = 3 ∧ s.lnk.ownReady = some r ∧ s.lnk.peerReady = some r ∧ s.far = false ∧ s.getB AGE_STATUS_ACTIVE = false ∧ s.lme.runs = []
       ∧ s.tick + 64 < 2 ^ 64)
    ∧ (let s := linkIn 14 3 [] Lnk.reset; s.link = 3 ∧ s.far = false ∧ s.capByte 0x480 0 = 0 ∧ s.lnk.ownReady = none ∧ s.link ≠ 1)
    ∧ (∀ m ∈ ([⟨1, [], 64, 0⟩, ⟨2, [], 63, 0⟩] : List TrainMsg), m.tcode = 1 ∨ m.sends < 64)
    ∧ (let s := linkIn 113 3 [] { Lnk.reset with held18 := true }; s.link = 3 ∧ s.lnk.held18 = true) := by decide +kernel

/-- A proposal of no new exclusions. -/
def shiftOf (reason width : Byte) : ShiftMsg := ⟨255, reason, width, 0, 0, 0, 0, List.replicate 16 31⟩

theorem witness_ShiftsAreAgreedAndSwitch :
    (let s := linkIn 14 4 [(⟨0x4C8, 8, 8⟩, 60), (⟨0x4C8, 16, 8⟩, 3), (LINK_STATUS_MODE, 0)] Lnk.reset
     s.link = 4 ∧ s.lnk.commit = none ∧ s.lnk.shiftOwn = none ∧ s.shiftRefused (shiftOf 0 16) = true ∧ s.shiftRefused (shiftOf 8 16) = true
     ∧ s.shiftRefused (shiftOf 5 5) = true ∧ s.shiftRefused (shiftOf 5 16) = false ∧ s.shiftRefused (shiftOf 4 4) = false
     ∧ (s.shiftEffg 5).isSome = true)
    ∧ (∀ n ∈ [1, 3], let own := shiftOf (BitVec.ofNat 8 n) 16
      let s := linkIn 14 4 [] { Lnk.reset with shiftOwn := some own }
      s.link = 4 ∧ s.lnk.commit = none ∧ s.lnk.shiftOwn = some own ∧ own.id = (shiftOf 1 4).id ∧ (own.reason = 1 ∨ own.reason = 3)
      ∧ own.effg.toNat = s.lnk.gTx % 2 ^ 32 ∧ s.lnk.fTx = 0 ∧ s.lnk.effgDue = false)
    ∧ (∀ ph ∈ [2, 3], let c := shiftOf 6 16
      let s := linkIn 14 5 [(LINK_SHIFT_PHASE, ph)] { Lnk.reset with commit := some c }
      s.link = 5 ∧ s.lnk.commit = some c ∧ s.getF LINK_SHIFT_PHASE = ph ∧ c.effg.toNat = s.lnk.gTx % 2 ^ 32 ∧ s.lnk.rxDone = false ∧ s.lnk.fTx = 0 ∧ s.lnk.fRx = 0 ∧ s.lnk.shiftWait = none
      ∧ s.getF LINK_PEER_EFFG_EFFG = s.lnk.gRx % 2 ^ 32 ∧ s.lnk.repair = none ∧ s.lnk.effgDue = false ∧ s.lnk.keep = none
      ∧ ∀ l ∈ s.mapList, bitOf (s.excl ||| c.excl.toNat) l = false ∧ s.getF (AGE_LANE_STAT_VERDICT l) < 2)
    ∧ (let c := shiftOf 6 16
       let s := linkIn 14 5 [(LINK_SHIFT_PHASE, 2)] { Lnk.reset with commit := some c, shiftWait := some c }
       s.link = 5 ∧ s.lnk.commit = some c ∧ s.getF LINK_SHIFT_PHASE = 2 ∧ c.effg.toNat = s.lnk.gTx % 2 ^ 32 ∧ s.lnk.fTx = 0 ∧ s.lnk.effgDue = false ∧ s.lnk.shiftWait ≠ none)
    ∧ (let own := shiftOf 7 16
       let s := linkIn 14 4 [(LINK_MAP_POS 0, 31)] { Lnk.reset with shiftOwn := some own }
       s.link = 4 ∧ s.lnk.commit = none ∧ s.lnk.shiftOwn = some own ∧ s.awaiting = [] ∧ s.lnk.keep = none)
    ∧ (let s := linkIn 14 5 [] { Lnk.reset with gap := true }; s.lnk.gap = true ∧ s.clockRuns = true) := by decide +kernel

/-- A link in Up or Shift with no lane in its map. -/
def noMap (k : Nat) (l : List (Fld × Nat)) (n : Lnk) : State := linkIn 14 k ((LINK_MAP_POS 0, 31) :: l) n

theorem witness_LaneEqIsAnswered : ∀ k ∈ [4, 5],
    (∀ q ∈ [[], [(255, 17, 0)]], let s := noMap k [] { Lnk.reset with seenReq := q }
      s.link = k ∧ s.laneFree 17 = true ∧ s.mapList.contains 17 = false ∧ s.ownReq 255 17 = false ∧ s.lnk.repair = none ∧ s.isAnswer 255 17 0 = false ∧ s.firstReq 255 17 0 = q.isEmpty
      ∧ s.isAnswer 255 17 5 = false ∧ s.firstReq 255 17 5 = true ∧ s.age.sweep = none ∧ s.isAnswer 255 17 6 = false ∧ s.firstReq 255 17 6 = true
      ∧ s.getF (AGE_LANE_STAT_VERDICT 17) ≠ 3 ∧ s.firstReq 255 17 1 = true ∧ s.laneState 17 ≠ 3 ∧ s.isAnswer 255 17 2 = false)
    ∧ (noMap k [] { Lnk.reset with eqs := [⟨1, 17, 1, ⟨0, 0, 0, 0⟩, 63⟩] }).isAnswer 1 17 2 = true
    ∧ (let p : Repair := ⟨true, 0, 17, false, false, 1, []⟩
       let s := noMap k [] { Lnk.reset with repair := some p }; s.lnk.repair = some p ∧ p.ownQual = false)
    ∧ (let s := noMap k [(LANE_STATUS_STATE 17, 2)] Lnk.reset; s.lnk.repair = none ∧ s.searchOf 17 = none ∧ s.laneState 17 = 2 ∧ s.lanes.contains (17 : Fin 18).val = true)
    ∧ (∀ e ∈ ([⟨1, 17, 1, ⟨0, 0, 0, 0⟩, 63⟩] : List LaneEqMsg), e.sends < 64) := by decide +kernel

/-! ### Witnesses: ageing, start, firewall -/

theorem witness_EpochsAndCheckpoints :
    (∀ l ∈ [[], [(START_STATUS_STAGE, 10), (AGE_CTRL_EN, 1), (AGE_STATUS_ACTIVE, 1)]], let s := st 14 ([(LINK_STATUS_STATE, 4), (⟨AGE_NEXT.off, 0, 32⟩, 1)] ++ l)
      s.clockRuns = true ∧ s.getW AGE_NEXT ≠ 0 ∧ s.epochMay = !l.isEmpty ∧ s.getB AGE_STATUS_ACTIVE = !l.isEmpty ∧ s.getB AGE_STATUS_BEHIND = false)
    ∧ (∀ k ∈ [4, 5], let s := st 14 [(LINK_STATUS_STATE, k), (START_STATUS_STAGE, 10), (AGE_CTRL_EN, 1)]
      s.reaches AGE_CTRL = true ∧ s.epochMay = true ∧ s.inService = true ∧ s.getB AGE_STATUS_ACTIVE = false ∧ s.lnk.repair = none ∧ s.age.sweep = none
      ∧ s.getB LINK_STATUS_INITIATOR = false ∧ s.castleOk = false ∧ 0 ∈ s.lanes ∧ 0 ∈ s.mapList ∧ s.getF (AGE_LANE_STAT_VERDICT 0) ≠ 3)
    ∧ (let s := noMap 4 [(START_STATUS_STAGE, 10), (AGE_CTRL_EN, 1), (LINK_STATUS_INITIATOR, 1)] Lnk.reset
       s.reaches AGE_CTRL = true ∧ s.clockRuns = true ∧ s.inService = true ∧ s.epochMay = true ∧ s.getB AGE_STATUS_ACTIVE = false ∧ s.lnk.repair = none ∧ s.age.sweep = none
       ∧ s.getB LINK_STATUS_INITIATOR = true ∧ s.epochOrder = 0 :: (List.range 17).map (· + 1) ∧ s.mapList.contains 0 = false)
    ∧ (let s := st 14 []
       s.reaches AGE_CTRL = true ∧ s.clockRuns = true ∧ (((s.age.recs.filter (fun r => !(r.isCkpt && r.sentAt.isNone))).map (fun r => recSize r.payload.length)).sum + recSize 1032
         + recSize (264 + 256 * s.lanes.length) ≤ 16384)) := by decide +kernel

theorem witness_SamplesSweepsAndSensors :
    (let s := st 14 [(LANE_STATUS_STATE 17, 3)]
     s.laneState (17 : Fin 18) = 3 ∧ (17 : Fin 18).val ∈ s.lanes ∧ s.getF (AGE_LANE_STAT_VERDICT (17 : Fin 18)) = 0
     ∧ s.projectsBelow (17 : Fin 18) (2 * s.horizon) = false ∧ (s.takeCorr (17 : Fin 18)).1 * 2 ^ s.getF AGE_FLOOR_CSRLOG ≤ 0
     ∧ (s.takeCorr (17 : Fin 18)).1 * 2 ^ s.getF AGE_FLOOR_CSRHARD ≤ 0)
    ∧ (∀ n ∈ [0, 4095], ({ bare 14 [] with age := { Age.reset with temps := n } }).age.temps = n)
    ∧ (∀ b ∈ [false, true], ∀ p ∈ [0, 286, 287], let w : Sweep := ⟨16, p, b, false, 0⟩
      let s := { st 113 [(LANE_STATUS_STATE 16, 4), (AGE_LANE_TREND_NHIST 16, 6)] with age := { Age.reset with sweep := some w } }
      s.clockRuns = true ∧ s.age.order = [] ∧ s.age.sweep = some w ∧ w.lane = (16 : Fin 18).val ∧ w.busy = b ∧ s.pointMay (16 : Fin 18) = true ∧ w.lane ∈ s.lanes ∧ s.eqPending w.lane = false
      ∧ s.sweepPoints = 288 ∧ s.strt.eyes = none ∧ s.lme.runs = [] ∧ w.quiMeasured = false ∧ s.lnk.repair = none
      ∧ s.getF (AGE_LANE_STAT_VERDICT w.lane) = 0 ∧ s.getF AGE_FLOOR_EYEMIN ≤ (0 : BitVec 16).toNat ∧ s.getF (AGE_LANE_TREND_NHIST w.lane) < 7) := by
  decide +kernel

theorem witness_RecordsEventsAndTraceLeave :
    (let r : Rec := ⟨1, 65535, [], none, none⟩
     let s := { st 14 [(LINK_STATUS_STATE, 4)] with age := { Age.reset with recs := [r] } }
     clocked s = true ∧ s.link = 4 ∧ s.age.recs.find? (fun r => r.sentAt.isNone) = some r)
    ∧ (let r : Rec := ⟨1, 65535, [], some 0, some 7⟩
       let s := { st 14 [(LINK_STATUS_STATE, 4)] with age := { Age.reset with recs := [r] } }
       clocked s = true ∧ s.link = 4 ∧ s.firstRefused = some r ∧ r.refusedAt = some 7)
    ∧ (let s := { st 14 [] with evq := [⟨2, 0x0101, 0⟩], trq := [[1]] }
       clocked s = true ∧ s.evq = [⟨2, 0x0101, 0⟩] ∧ s.trq = [[1]]) := by decide

theorem witness_StagesPassAndFail :
    (∀ d ∈ [0, 131071], let s := st 14 [(START_STATUS_STAGE, 8)]
      s.clockRuns = true ∧ s.getB TIME_STATUS_SYNCED = false ∧ s.getB TIME_CTRL_MASTER = false ∧ s.b ≤ (s.die + BitVec.ofNat 64 d).toNat
      ∧ (s.die + BitVec.ofNat 64 d).toNat < s.b + s.lenNow ∧ s.starting = true ∧ s.stage = 8 ∧ s.strt.recorded = false)
    ∧ (∀ k ∈ [0, 1, 2, 3, 7, 8], let s := st 14 [(START_STATUS_STAGE, k), (START_STATUS_VIOK, 1), (LME_STATUS_IMGOK, if k = 1 then 0 else 1),
        (DLV_STATUS_INITDONE, 1), (DLV_LOOP_VALID, 1), (TIME_STATUS_SYNCED, 1)]
      s.starting = true ∧ s.clockRuns = true ∧ s.stage = k ∧ s.getF ISL_XING_RESYNC = 0 ∧ hasRecord s.isl.linkWas = false
      ∧ s.getB LME_STATUS_IMGOK = decide (k ≠ 1) ∧ s.far = false ∧ s.getB START_STATUS_VIOK = true ∧ s.getB START_MEM_RETIRED = false ∧ s.strt.again = false
      ∧ s.getB DLV_STATUS_INITDONE = true ∧ s.getB DLV_LOOP_VALID = true ∧ s.getB TIME_STATUS_SYNCED = true)
    ∧ (∀ k ∈ [0, 1, 2], let s := st 14 [(START_STATUS_STAGE, k), (ISL_XING_RESYNC, 63)]
      s.starting = true ∧ s.clockRuns = true ∧ s.stage = k ∧ s.getF ISL_XING_RESYNC ≠ 0 ∧ s.strt.recorded = false ∧ ¬ (s.getF START_MEM_LASTFAIL = s.stage ∧ s.getF START_MEM_RUN = 2)) := by
  decide +kernel

/-- A start in T4 whose Detect has ended with every lane seen, with lanes walked. -/
def inT4 (i n : Nat) (l : List (Fld × Nat)) : State :=
  { linkIn i 1 ((START_STATUS_STAGE, 4) :: l) { Lnk.reset with seen := 0x3FFFF, peerSeen := 0x3FFFF, exchanged := true, stable := 4 } with
    strt := { Strt.reset with walk := n } }

theorem witness_ServiceDetectAndChecks :
    (let s := st 14 [(START_STATUS_STAGE, 9)]; clocked s = true ∧ s.starting = true ∧ s.stage = 9 ∧ s.strt.recorded = false ∧ s.getB LINK_STATUS_EMPTY = false)
    ∧ (let s := st 14 [(LINK_STATUS_EMPTY, 1)]; clocked s = true ∧ s.getB LINK_STATUS_EMPTY = true)
    ∧ (∀ n ∈ [0, 34], let s := inT4 14 n []
      clocked s = true ∧ s.t4Check = true ∧ s.getB START_CTRL_MFGDONE = false ∧ maskOf s.lanes &&& (0 : BitVec 24).toNat = 0 ∧ bitOf (0 : BitVec 24).toNat 18 = false
      ∧ maskOf s.lanes &&& (0x20000 : BitVec 24).toNat ≠ 0 ∧ s.strt.recorded = false ∧ s.strt.walk + 1 < s.walkSteps)
    ∧ (∀ n ∈ [0, 34], let s := inT4 14 n [(START_CTRL_MFGDONE, 1)]
      clocked s = true ∧ s.t4Check = true ∧ s.getB START_CTRL_MFGDONE = true ∧ s.far = false ∧ s.strt.walk + 1 < s.walkSteps)
    ∧ (let s := linkIn 14 2 [] { Lnk.reset with seen := 0x3FFFF, peerSeen := 0x3FFFF }
       clocked s = true ∧ s.link = 2 ∧ s.getB START_CTRL_MFGDONE = false ∧ s.lnk.passSent = false ∧ s.strt.eyes = none ∧ s.lnk.peerPass = none
       ∧ (∀ l ∈ s.lanes, l ∈ s.forward) ∧ (∀ p ∈ s.lanes.zip (List.replicate 18 0), p.2 = 0) ∧ (∃ p ∈ s.lanes.zip [1], p.1 ∈ s.forward ∧ p.2 ≠ 0)
       ∧ s.strt.recorded = false)
    ∧ (let s := linkIn 14 2 [] { Lnk.reset with seen := 0x1FFFF, peerSeen := 0x3FFFF }; clocked s = true ∧ s.link = 2 ∧ ∃ l ∈ s.lanes, l ∉ s.forward) := by
  decide +kernel

/-- Five words of an image in the RAM, checked or not. -/
def imaged (w : List Word) : State :=
  { st 14 [(LME_PTR_PTR, 32)] with lme := { Lme.reset with checking := true, ram := (List.range 5).zip w } }

theorem witness_MicrocodeAndMailbox :
    (let s := st 14 [(LME_STATUS_RUNNING, 1)]; clocked s = true ∧ s.getB LME_STATUS_RUNNING = true) ∧ (st 14 []).getB LME_STATUS_RUNNING = false
    ∧ clocked (imaged []) = true ∧ (imaged []).lme.checking = true ∧ (imaged [0]).imgWord 0 ≠ 0x4C4D4531
    ∧ (let s := imaged [0x4C4D4531, 0]; s.imgWord 0 = 0x4C4D4531 ∧ ¬ bitOf (bitsOf (s.imgWord 1) 8 8) (if s.far then 1 else 0) = true)
    ∧ (let s := imaged [0x4C4D4531, 0x100, 28]
       s.imgWord 0 = 0x4C4D4531 ∧ bitOf (bitsOf (s.imgWord 1) 8 8) (if s.far then 1 else 0) = true ∧ ¬ 32 ≤ s.imgWord 2)
    ∧ (∀ b ∈ [false, true], let s := imaged [0x4C4D4531, 0xFFFF0100, 32, 0, if b then 2028900714 else 0]
      s.imgWord 0 = 0x4C4D4531 ∧ bitOf (bitsOf (s.imgWord 1) 8 8) (if s.far then 1 else 0) = true
      ∧ (32 ≤ s.imgWord 2 ∧ s.imgWord 2 ≤ 65536 ∧ s.imgWord 2 % 4 = 0 ∧ s.imgWord 2 = s.getF LME_PTR_PTR ∧ s.imgWord 3 < s.imgWord 2)
      ∧ decide (s.imageCrc (s.imgWord 2) = s.imgWord 4) = b ∧ s.imageLost = false ∧ s.lnk.peerHeld = [] ∧ s.link ≠ 7 ∧ ¬ (s.starting = true ∧ s.stage = 2))
    ∧ (∀ k ∈ [0, 1], let s := st 14 [(MBX_STATUS_CMDFULL, k)]; clocked s = true ∧ s.getB MBX_STATUS_CMDFULL = decide (k = 1))
    ∧ (∀ n ∈ [0, 1], let s := { st 14 [] with lme := { Lme.reset with rpl := List.replicate n (wvPacket 0 128 0 14 0 0 0 []) } }
       clocked s = true ∧ s.lme.rpl.drop 1 = [])
    ∧ (let p := wvPacket 0 128 0 14 7 0 0 []
       let s := { st 14 [] with lme := { Lme.reset with rpl := [[], p] } }
       clocked s = true ∧ s.lme.rpl.drop 1 = p :: [] ∧ s.logOf .mailbox p = some ⟨0, ⟨.mailbox, 0, 7⟩, 0, 0⟩) := by decide +kernel

theorem witness_GuestFirewallIsCommanded :
    (∀ i ∈ [47, 50], clocked (st i []) = true ∧ (st i []).guestEdge = false) ∧ (∀ i ∈ [48, 49], let s := st i []
      clocked s = true ∧ s.guestEdge = true ∧ s.getB FW_CTRL_QUAR = false ∧ s.recBytes (fun _ => true) + recSize 16 ≤ 16384
      ∧ clocked (st i [(FW_CTRL_QUAR, 1)]) = true ∧ (st i [(FW_CTRL_QUAR, 1)]).guestEdge = true ∧ (st i [(FW_CTRL_QUAR, 1)]).getB FW_CTRL_QUAR = true) := by decide

/-! ### Witnesses: commands of Wilvel -/

/-- An instance whose microcode runs, with fields set. -/
def cmd (i : Nat) (l : List (Fld × Nat)) : State := st i ((LME_STATUS_RUNNING, 1) :: l)

/-- The conditions of TakesCommands as one Boolean. -/
def takes (s : State) : Bool := clocked s && s.getB LME_STATUS_RUNNING && s.lme.queue.isEmpty && s.lme.runs.isEmpty && s.tim.fwds.isEmpty

theorem takes_of (s : State) (h : takes s = true) : TakesCommands s := by
  simp only [takes, Bool.and_eq_true, List.isEmpty_iff] at h
  exact ⟨clocked_of s h.1.1.1.1, h.1.1.1.2, h.1.1.2, h.1.2, h.2⟩

theorem witness_StateAndRegistersAreReadAndWritten :
    (∀ i ∈ [0, 14, 48, 113], takes (cmd i []) = true)
    ∧ (∀ p ∈ [(0, 4), (0x7FFC, 4), (0, 0x8000), (0, 1004)], p.1 % 4 = 0 ∧ p.2 % 4 = 0 ∧ 4 ≤ p.2 ∧ p.1 + p.2 ≤ 0x8000)
    ∧ (1 : Word).toNat % 4 ≠ 0 ∧ (0x10000000 : Word).toNat % 4 = 0 ∧ 2 ^ 28 ≤ (0x10000000 : Word).toNat
    ∧ (∀ sp ∈ [0, 10], sp < 16 ∧ ((cmd 14 []).spaceSize sp).isSome = true)
    ∧ (List.replicate 250 (0 : Word)).length ≤ 250 ∧ ((0xFFFC : Word).toNat % 4 = 0 ∧ (0xFFFC : Word).toNat ≤ 0xFFFF) := by decide +kernel

/-- An instance in Up or another state on 12 of its lanes, whose microcode runs, every lane usable and every lane outside the map standing by. -/
def onLanes (k : Nat) (l : List (Fld × Nat)) (n : Lnk) : State :=
  { cmd 14 ([(LINK_STATUS_STATE, k), (⟨0x4C8, 8, 8⟩, 60), (⟨0x4C8, 16, 8⟩, 3), (⟨0x4CC, 16, 8⟩, 1), (LINK_CTRL_CASTLE_EN, 1), (LINK_STATUS_FREE, 2)]
      ++ (List.range 18).map (fun p => (LANE_STATUS_STATE p, if p < 12 then 3 else 1))
      ++ (List.range 16).map (fun p => (LINK_MAP_POS p, if p < 12 then p else 31)) ++ l) with lnk := { n with usable := 0x3FFFF } }

theorem witness_LinkAndLaneCommandsRun_link :
    (∀ k ∈ [0, 3, 4, 5, 6, 7, 8], let s := onLanes k [] Lnk.reset; takes s = true ∧ s.link = k ∧ s.run = false ∧ s.trn.load = none)
    ∧ (∀ ph ∈ [0, 3], let s := onLanes 4 [(LINK_SHIFT_PHASE, ph)] Lnk.reset
      takes s = true ∧ s.link = 4 ∧ s.getB LINK_STATUS_CASTLING = false ∧ s.lnk.commit = none ∧ s.lnk.shiftOwn = none ∧ (16 : Byte).toNat ≠ s.mapList.length
      ∧ (0 : Byte).toNat = s.getF LINK_STATUS_MODE ∧ (16 : Byte).toNat ∈ s.usedWidths ∧ bitOf (s.used 9) (0 : Byte).toNat = true
      ∧ (16 : Byte).toNat ≤ s.usableLanes.length ∧ (buildMap s.place (16 : Byte).toNat s.usableLanes s.mapList).isSome = true
      ∧ ((s.count CNT_WV_CMD).shiftEffg 7).isSome = true ∧ s.getF LINK_SHIFT_PHASE = ph) := by decide +kernel

theorem witness_LinkAndLaneCommandsRun_lanes :
    (let s := onLanes 4 [] { Lnk.reset with shiftOwn := some (shiftOf 1 12) }
     (18 : Byte).toNat ∉ s.lanes ∧ (∀ l ∈ [0, 17], l ∈ s.lanes ∧ s.getF (AGE_LANE_STAT_VERDICT l) ≠ 3) ∧ (17 : Byte).toNat ∉ s.mapList
     ∧ (0 : Byte).toNat ∈ s.mapList ∧ s.age.sweep = none ∧ s.lnk.repair = none ∧ s.link = 4 ∧ s.laneState (0 : Byte).toNat = 3 ∧ s.lnk.shiftOwn.isSome = true)
    ∧ (∀ b ∈ [0, 1], let s := onLanes 4 [(LINK_STATUS_INITIATOR, b)] Lnk.reset
      (11 : Byte).toNat ∈ s.lanes ∧ (11 : Byte).toNat ∈ s.mapList ∧ s.getB LINK_STATUS_CASTLING = false ∧ s.lnk.repair = none ∧ s.age.sweep = none
      ∧ s.castleMay = true ∧ s.standbyLanes = 12 :: [13, 14, 15, 16, 17] ∧ 12 ∉ s.lnk.qualified ∧ s.getB LINK_STATUS_INITIATOR = decide (b = 1))
    ∧ (∀ k ∈ [3, 4], let s := onLanes 4 [(LANE_STATUS_STATE 17, k)] Lnk.reset; (17 : Byte).toNat ∈ s.lanes ∧ s.laneState (17 : Byte).toNat = k ∧ s.age.sweep = none)
    ∧ (∀ k ∈ [2, 4], let s := onLanes 4 [(LANE_STATUS_STATE 17, k)] Lnk.reset; s.patMay (17 : Byte).toNat = true)
    ∧ (1 : Word).toNat = 1 ∧ (0x80000000 : Word).toNat ≤ 2 ^ 31 ∧ (onLanes 4 [(LINK_STATUS_EMPTY, 1)] Lnk.reset).getB LINK_STATUS_EMPTY = true
    ∧ (∀ k ∈ [0, 1], let r : WvRun := ⟨⟨.core, 0, 0⟩, 0x16, 17⟩
       let s := { onLanes 4 [(LANE_PAT_RUN 17, 1), (LANE_PAT_LOCK 17, k)] Lnk.reset with lme := { Lme.reset with runs := [r] } }
       s.clockRuns = true ∧ s.lme.runs = [r] ∧ r.opc = 0x16 ∧ r.arg % 32 ∈ s.lanes ∧ s.getB (LANE_PAT_RUN (r.arg % 32)) = true ∧ s.getB (LANE_PAT_LOCK (r.arg % 32)) = decide (k = 1) ∧ r.arg / 2 ^ 37 ≤ s.now) := by
  decide +kernel

theorem witness_InstanceAndScheduleCommandsRun :
    (let s := cmd 14 [(START_STATUS_STAGE, 9)]; takes s = true ∧ s.clockRuns = true ∧ s.starting = true ∧ s.stage = 9)
    ∧ (let s := cmd 14 []; takes s = true ∧ s.stage = 0 ∧ s.getB LME_STATUS_UPDATING = false ∧ s.inService = false ∧ s.run = false
      ∧ ∀ j < 8, s.getB (FOLD_XJ_CFG_GO j) = false)
    ∧ (let s := cmd 14 [(START_STATUS_STAGE, 10), (LINK_STATUS_STATE, 4), (ISL_CTRL_HOLD_EN, 1)]
       takes s = true ∧ s.getB LME_STATUS_UPDATING = false ∧ s.inService = true ∧ s.link = 4 ∧ s.run = false ∧ s.getB LINK_STATUS_CASTLING = false
       ∧ s.guestEdge = false ∧ s.getB ISL_CTRL_HOLD_EN = true ∧ s.trn.void = false ∧ s.lnk.gap = false ∧ s.dlv.tx = [] ∧ s.dlv.cur = [] ∧ s.dlv.urgent = []
       ∧ s.dlv.replay = none)
    ∧ (let s := cmd 14 [(FOLD_XJ_CFG_GO 7, 1)]; takes s = true ∧ s.getB (FOLD_XJ_CFG_GO 7) = true)
    ∧ takes (cmd 14 [(TURN_CTRL_RUN, 1)]) = true ∧ (cmd 14 [(TURN_CTRL_RUN, 1)]).run = true
    ∧ (∀ n ∈ [1, 16], let p : List Byte := List.replicate 41 0 ++ [BitVec.ofNat 8 n] ++ List.replicate 270 0xFF
      p.length = 312 ∧ 1 ≤ bytesAt p 40 2 ∧ bytesAt p 40 2 ≤ 16 ∧ bytesAt p 40 2 = n) := by decide +kernel

theorem witness_RoundsAreCommanded :
    (let s := cmd 14 [(TURN_CHECK_PASS, 1), (TIME_STATUS_SYNCED, 1)]
     takes s = true ∧ s.getB TURN_CHECK_PASS = true ∧ s.getB TIME_STATUS_SYNCED = true ∧ s.run = false ∧ s.getB LINK_STATUS_BASECAP = false)
    ∧ (cmd 14 []).getB TURN_CHECK_PASS = false ∧ (cmd 14 [(TURN_CTRL_RUN, 1)]).run = true
    ∧ (∀ n ∈ [0, 7, 8], let s := { cmd 14 [] with tim := { Tim.reset with reqs := List.replicate n ⟨0, false, 5⟩ } }
      takes s = true ∧ (16 : Byte).toNat ≤ 16 ∧ 16 < (17 : Byte).toNat ∧ s.tim.reqs.length = n ∧ (0 : BitVec 64).toNat ≤ s.tim.round)
    ∧ (cmd 113 []).far = true ∧ takes (cmd 113 []) = true ∧ (cmd 14 []).far = false
    ∧ (let s := { cmd 14 [] with trn := { Trn.reset with checking := true } }; takes s = true ∧ s.trn.checking = true)
    ∧ (let s := cmd 14 []
       s.trn.checking = false ∧ s.whatifOk 17 16 0 = false ∧ s.whatifOk 0 5 0 = false ∧ s.whatifOk 16 4 1 = true ∧ s.getF TURN_DECK_NDECK ≤ s.trn.deck.length)
    ∧ (let s := { cmd 14 [(TURN_DECK_NDECK, 1)] with trn := { Trn.reset with deck := [[]] } }
       takes s = true ∧ s.getF TURN_DECK_NDECK ≤ s.trn.deck.length) := by
  decide +kernel

theorem witness_VirtualInstancesAreCommanded :
    (let s := cmd 14 [(VI_ENT_STATE 255, 1)]
     takes s = true ∧ (254 : Byte) ≠ 0 ∧ (7 : Byte).toNat ≤ 7 ∧ s.getF (VI_ENT_STATE (254 : Byte).toNat) = 0 ∧ s.getF (VI_ENT_STATE (255 : Byte).toNat) ≠ 0
     ∧ 7 < (8 : Byte).toNat ∧ (63 : Byte).toNat < 64 ∧ s.viActive (255 : Byte).toNat = true ∧ s.getB (VI_ENT_GUEST (255 : Byte).toNat) = false
     ∧ s.getB (MOV_RING_CFG_EN (63 : Byte).toNat) = false ∧ s.viActive (254 : Byte).toNat = false ∧ s.getF (VI_ENT_STATE (255 : Byte).toNat) = 1
     ∧ s.tim.round < (1 : BitVec 64).toNat ∧ (255 : BitVec 64).toNat ≤ s.tim.round + 255 ∧ s.tim.round + 255 < (256 : BitVec 64).toNat ∧ s.run = false
     ∧ s.getB ID_SEAL_SEALED = false ∧ s.stage ≠ 2 ∧ s.far = false)
    ∧ (cmd 14 [(MOV_RING_CFG_EN 63, 1)]).getB (MOV_RING_CFG_EN (63 : Byte).toNat) = true
    ∧ (let s := cmd 14 [(TURN_CTRL_RUN, 1)]; s.run = true ∧ s.viNamed (255 : Byte).toNat = false)
    ∧ (cmd 14 [(ID_SEAL_SEALED, 1)]).getB ID_SEAL_SEALED = true ∧ (cmd 113 []).far = true := by decide +kernel

theorem witness_GuestAndAgeingCommandsAndPackets :
    (∀ i ∈ [48, 49], let s := cmd i []; takes s = true ∧ s.guestEdge = true ∧ (4095 : BitVec 16).toNat < 4096 ∧ 4096 ≤ (4096 : BitVec 16).toNat)
    ∧ (let s := cmd 47 []; takes s = true ∧ s.guestEdge = false ∧ s.epochMay = false ∧ s.far = false ∧ s.place < 256 ∧ s.lme.asm = [])
    ∧ (let s := cmd 14 []
       ((s.age.recs.filter (fun r => !(r.isCkpt && r.sentAt.isNone))).map (fun r => recSize r.payload.length)).sum + recSize 1032
         + recSize (264 + 256 * s.lanes.length) ≤ 16384)
    ∧ (let s := cmd 14 [(LINK_STATUS_STATE, 4), (START_STATUS_STAGE, 10), (AGE_CTRL_EN, 1)]
       takes s = true ∧ s.epochMay = true ∧ s.getB AGE_STATUS_ACTIVE = false ∧ s.lnk.repair = none ∧ s.age.sweep = none ∧ s.getB LINK_STATUS_INITIATOR = false
       ∧ 0 ∈ s.lanes ∧ 0 ∈ s.mapList ∧ s.getF (AGE_LANE_STAT_VERDICT 0) ≠ 3 ∧ s.castleOk = false)
    ∧ (let s := onLanes 4 [(START_STATUS_STAGE, 10), (AGE_CTRL_EN, 1)] Lnk.reset
       takes s = true ∧ s.epochMay = true ∧ s.getB AGE_STATUS_ACTIVE = false ∧ s.lnk.repair = none ∧ s.age.sweep = none ∧ s.getB LINK_STATUS_INITIATOR = false
       ∧ 0 ∈ s.lanes ∧ 0 ∈ s.mapList ∧ s.getF (AGE_LANE_STAT_VERDICT 0) ≠ 3 ∧ s.castleOk = true)
    ∧ (let s := cmd 14 [(MBX_STATUS_CMDFULL, 1), (⟨MBX_CMD 0, 0, 32⟩, 0xE00), (⟨MBX_CMD 1, 0, 32⟩, 0x70010)]
       let p := wvPacket 0 0 s.place 0 7 0 0 []
       takes s = true ∧ s.place < 256 ∧ s.lme.asm = [] ∧ s.getB MBX_STATUS_CMDFULL = true ∧ s.mbxBytes.take p.length = p)
    ∧ ([] : List Byte).length < 16 ∧ (let b : List Byte := List.replicate 16 255; 16 ≤ b.length ∧ b.length < bytesAt b 6 2)
    ∧ (let b : List Byte := [0, 0, 13, 0, 0, 0, 0, 16] ++ List.replicate 8 0
       16 ≤ b.length ∧ bytesAt b 6 2 = b.length ∧ b.length % 4 = 0 ∧ byteAt b 2 ≠ (cmd 14 []).place ∧ byteAt b 2 ≠ 0xFF ∧ (cmd 14 []).xOpen 2 = true)
    ∧ (cmd 14 []).getB MBX_STATUS_CMDFULL = false
    ∧ (let s := cmd 14 [(MBX_STATUS_CMDFULL, 1)]; s.getB MBX_STATUS_CMDFULL = true ∧ bytesAt (beBytes 4 (s.rd (MBX_CMD 1))) 2 2 < 16) := by decide +kernel

/-! ### Ill-formed commands are refused -/

/-- A Wilvel header. -/
def hdr0 : CmdHdr := ⟨.core, 0, 0⟩

theorem test_wf_refuses_messages : Instr.wf (.coreMessageOffer []) = false ∧ Instr.wf (.moverResponseReceive (List.replicate 65 0)) = false
    ∧ Instr.wf (.coreMessageOffer (List.replicate 64 0)) = true := by decide +kernel
theorem test_wf_refuses_bodies : Instr.wf (.creditInitReceive ⟨false, 0, 0, 0, [], List.replicate 6 0⟩) = false
    ∧ Instr.wf (.tallyReceive ⟨false, 0, 0, 0, List.replicate 6 0, List.replicate 7 0⟩) = false
    ∧ Instr.wf (.readyMessage ⟨0, 4, 0, List.replicate 17 0⟩) = false
    ∧ Instr.wf (.shiftReqReceive ⟨0, 0, 0, 0, 0, 0, 0, List.replicate 17 0⟩) = false
    ∧ Instr.wf (.shiftAckReceive ⟨0, 0, 0, 0, 0, 0, 0, List.replicate 17 0⟩) = false := by decide +kernel
theorem test_wf_refuses_lists : Instr.wf (.fitCheckEnd (List.replicate 17 [])) = false ∧ Instr.wf (.eqQualifyEnd (List.replicate 19 0) 0) = false
    ∧ Instr.wf (.retrainLaneCheckEnd (List.replicate 19 0)) = false ∧ Instr.wf (.mfgPrbsEnd ⟨List.replicate 19 0, 0⟩) = false
    ∧ Instr.wf (.streamRelayArrival 0 ⟨0, 0, List.replicate 241 0⟩) = false ∧ Instr.wf (.relayReceive 0 true ⟨0, List.replicate 241 0⟩) = false := by decide +kernel
theorem test_wf_refuses_commands : Instr.wf (.regRead hdr0 (List.replicate 253 0)) = false ∧ Instr.wf (.regWrite hdr0 (List.replicate 127 (0, 0))) = false
    ∧ Instr.wf (.registerWrite .coreSide 0 0) = false ∧ Instr.wf (.lowWordRead .coreSide 0) = false ∧ Instr.wf (.transmitFlit (2 ^ 32)) = false
    ∧ Instr.wf (.flitReceive (2 ^ 32) 0) = false := by decide +kernel
theorem test_wf_refuses_long_packets : Instr.wf (.wilvelPacketReceive .core (List.replicate 1025 0)) = false := by
  show decide ((List.replicate 1025 (0 : Byte)).length ≤ 1024) = false
  rw [List.length_replicate]
  decide
theorem test_wf_refuses_long_frames : Instr.wf (.sbFrameReceive false (List.replicate 65541 0) true 0 0) = false := by
  show decide ((List.replicate 65541 (0 : Byte)).length ≤ 65540) = false
  rw [List.length_replicate]
  decide
theorem test_wf_refuses_long_pages : Instr.wf (.deckFetchComplete (List.replicate 8193 0) true) = false := by
  show decide ((List.replicate 8193 (0 : Word)).length ≤ 8192) = false
  rw [List.length_replicate]
  decide

/-! ### The spec's worked examples -/

/-- Placement example of chapter 1: B5E1 and HB31. -/
theorem test_peers : peerIndex 33 = some 1 ∧ twinIndex 33 = 32 ∧ peerIndex 32 = some 0 ∧ peerIndex 43 = some 23 := by decide +kernel
/-- Register example of chapter 14: `ID_PLACE` of B3E0, and bytes 4–7 of its STREAM_LATE event. -/
theorem test_place_and_event_words : idPlace 20 = 0x16008014 ∧ evWord 20 1 0x0305 = 0x45000305 := by decide
/-- The check value of R59. -/
theorem test_crc64 : crc64 [0x31, 0x32, 0x33, 0x34, 0x35, 0x36, 0x37, 0x38, 0x39] = 0x6C40DF5F0B497347 := by decide +kernel
/-- Interleaving example of R37: flit byte 200 is wire byte 145. -/
theorem test_interleaving : (encodeFlit (List.replicate 200 0 ++ [0xAB] ++ List.replicate 55 0)).getD 145 0 = 0xAB := by decide +kernel
/-- Header and heads of the flit example of chapter 3. -/
theorem test_header_and_heads : Hdr.bits ⟨0x1A2B, 0x0F3C, 1, 18, 0, false, false, false, 5⟩ = 0x1A2B0F3C10480A00
    ∧ ((mkMsg 0 3 0x123 0 (List.replicate 8 0)).headD 0).toNat / 2 ^ 96 = 0x02030123
    ∧ ((mkMsg 0 1 0x124 0 []).headD 0).toNat / 2 ^ 96 = 0x00010124
    ∧ ((mkMsg 1 1 0x77 0 (List.replicate 8 0)).headD 0).toNat / 2 ^ 96 = 0x12010077 := by decide +kernel
/-- TALLY example of chapter 4: a REQ window of 4,009 becomes 4,027, `LASTFIX` 18. -/
theorem test_tally : (match exec (.tallyReceive ⟨false, 3, 0x0410, 0x0097, [4060], [6]⟩)
      { st 24 [(LINK_STATUS_STATE, 4), (DLV_STATUS_RXEPOCH, 3), (DLV_STATUS_CREDIT_OK, 1), (DLV_SEQ_RXSEQ, 0x97), (DLV_BANK_ACKED, 0x0410),
          (DLV_WIN_WINDOW 0, 4009), (DLV_PCAP_PCAP 0, 4096)] with
        dlv := { Dlv.reset with bank := [⟨0, [], [9]⟩, ⟨0, [], [9]⟩, ⟨0, [], [9]⟩] } } with
    | .next t => (t.window 0, t.getF DLV_TALLY_LASTFIX, t.getF DLV_TALLY_LASTCH, t.cnt CNT_TALLY_FIX)
    | _ => (0, 0, 0, 0)) = (4027, 18, 0, 1) := by decide +kernel
/-- Stamp example of R189: ring 5 on B3H0 of pod 17 at DIE. -/
theorem test_stamp : (st 22 [(ID_POD_POD, 17)]).stamp 1 5 = 0x42242C2800000000 := by decide +kernel
/-- COPY example of R178: five source lines; four destination lines, or five. -/
theorem test_lines : lineCount 0x1040 0x200 = 5 ∧ lineCount 0x8000 0x200 = 4 ∧ lineCount 0x8010 0x200 = 5 := by decide
/-- MXFP8 example of R215: the 33 bytes, with UF and NX. -/
theorem test_mx : let r := convRange 0 0x10 false false 0 0 32 (beBytes 8 0x4034000000000000 ++ beBytes 8 0x3FD3333333333333
      ++ beBytes 8 0xBFF0000000000000 ++ beBytes 8 0x3F1A36E2EB1C432D ++ List.replicate 224 0)
    r.val = [0x7B, 0x7A, 0x4A, 0xD8, 0x01] ++ List.replicate 28 0 ∧ r.flags = fUF + fNX := by decide +kernel
/-- The block of that example decoded to FP64: 20.0, 0.3125, −1.0, 2^−13. -/
theorem test_mx_decode : ((convRange 0x10 0 false false 0 0 32 ([0x7B, 0x7A, 0x4A, 0xD8, 0x01] ++ List.replicate 28 0)).val.take 32)
    = beBytes 8 0x4034000000000000 ++ beBytes 8 0x3FD4000000000000 ++ beBytes 8 0xBFF0000000000000 ++ beBytes 8 0x3F20000000000000 := by decide +kernel
/-- Command example of chapter 13: the packet of SHIFT to B4H0, its MGT head, and its reply. -/
theorem test_shift_packet : wvPacket 0x12 0 0x1C 0xFE 0x0301 0 0 [0x0C, 0, 0, 0]
      = [0x12, 0x00, 0x1C, 0xFE, 0x03, 0x01, 0x00, 0x14, 0, 0, 0, 0, 0, 0, 0, 0, 0x0C, 0, 0, 0]
    ∧ ((mkLong 5 1 (wvPacket 0x12 0 0x1C 0xFE 0x0301 0 0 [0x0C, 0, 0, 0])).headD 0).toNat / 2 ^ 96 = 0x50410000
    ∧ wvPacket 0x12 0x80 0xFE 0x1C 0x0301 0 0 [0x0C, 0, 0, 0]
      = [0x12, 0x80, 0xFE, 0x1C, 0x03, 0x01, 0x00, 0x14, 0, 0, 0, 0, 0, 0, 0, 0, 0x0C, 0, 0, 0] := by decide +kernel
/-- Merge example of R127: both spares in service, L5, L9, L13 and L2 leave, x12. -/
theorem test_merge : (({ st 28 ((List.range 16).map (fun p => (LINK_MAP_POS p, if p = 5 then 16 else if p = 13 then 17 else p))) with
      lnk := { Lnk.reset with usable := 0x3FFFF } }).mergeShifts { shiftOf 1 12 with excl := 0x2220 } { shiftOf 1 12 with excl := 0x2024 })
    = some (12, 0, 0x2224, [0, 1, 3, 4, 16, 6, 7, 8, 10, 11, 12, 17]) := by decide +kernel
/-- Ledger example of R289: a checkpoint of a Near instance takes 5,952 bytes, of a Far one 2,624. -/
theorem test_checkpoint_size : recSize 1032 + recSize (264 + 256 * (laneList 14).length) = 5952
    ∧ recSize 1032 + recSize (264 + 256 * (laneList 50).length) = 2624 := by decide
/-! ### Single steps -/

/-- R146: with no command waiting one tick passes (log entry 2). -/
theorem test_idle_tick : (match step (bare 14 []) with | .next t => t.die | _ => 0) = 1 := by decide +kernel
/-- R131: LINK_CTRL DOWN takes the link to Down. -/
theorem test_link_down : (match exec .linkCtrlDown (st 14 [(LINK_STATUS_STATE, 4)]) with | .next t => t.link | _ => 0) = 8 := by decide +kernel
/-- R9: an access that is not word aligned changes nothing and raises BAD_ACCESS, here a write at offset 2. -/
theorem test_unaligned : (match exec (.unalignedAccess .bus true 2) (bare 14 []) with | .next t => t.rd EVT_LAST | _ => 0) = 1 := by decide +kernel
/-- R203: INT32 SUM of 0x7FFFFFFF and 1 wraps and sets OF. -/
theorem test_int32_wraps : (foldInt 32 1 0x7FFFFFFF 1).val = 0x80000000 ∧ (foldInt 32 1 0x7FFFFFFF 1).flags = fOF := by decide +kernel
/-- R203: INT64 MIN takes the lower signed value. -/
theorem test_int64_min : (foldInt 64 2 (2 ^ 63) 1).val = 2 ^ 63 := by decide +kernel

end Sys2Proof.Tests
end

section
/-! SUPPORT. The state after reset, and what PACKAGE_RESET, POWER_LOSS and INSTANCE_RESET make of a state (R11, R139, R261, R293). -/

namespace Sys2Proof.Machine

/-! ### The reset state, R11 -/

theorem State.reset_link : State.reset.link = 0 ∧ State.reset.mapList = [] ∧ State.reset.getF LINK_STATUS_MODE = 3 := by decide +kernel

theorem State.reset_start : State.reset.stage = 0 ∧ State.reset.getF START_STATUS_RESULT = 15 ∧ State.reset.getB ID_SEAL_SEALED = false := by
  decide +kernel

theorem State.reset_sequence : State.reset.getF DLV_SEQ_TXSEQ = 0xFFFF ∧ State.reset.getF DLV_SEQ_RXSEQ = 0xFFFF
    ∧ State.reset.getF DLV_BANK_ACKED = 0xFFFF := by decide +kernel

theorem State.reset_nothing_runs : State.reset.getB LME_STATUS_RUNNING = false ∧ State.reset.run = false := by decide +kernel

/-- The counters of R343 and those after them read zero. -/
theorem State.reset_counters : ∀ off ∈ (List.range 133).map (fun k => 0x5000 + 4 * k), State.reset.rd off = 0 := by decide +kernel

theorem State.reset_vis : State.reset.viActive 0 = true ∧ ∀ v ∈ List.range 256, v ≠ 0 → State.reset.viActive v = false := by decide +kernel

theorem State.reset_rings : ∀ n ∈ List.range 64, State.reset.getB (MOV_RING_CFG_EN n) = false := by decide +kernel

/-! ### The resets -/

theorem State.reinit_rd (s : State) (off : Nat) : s.reinit.rd off = ((resetRegs s.place).get off).toNat := by
  simp only [State.rd, State.reinit, State.resetAt]

theorem State.rebuildRounds_rd (s : State) (off : Nat) : s.rebuildRounds.rd off = s.rd off := rfl
theorem State.rebuildRounds_getB (s : State) (f : Fld) : s.rebuildRounds.getB f = s.getB f := rfl

/-- The reset values of the instance on a die that was not reset: its counter runs on, and its clock and reset inputs stand (R139, R261). -/
def State.reinitOnDie (s : State) : State :=
  { s.reinit with die := s.die, isl := { Isl.reset with clkOn := s.isl.clkOn, inReset := s.isl.inReset } }

/-- No Round has begun since the reset: `TIME_ROUND` reads its reset value (R11). -/
def State.noRoundYet (s : State) : State := { s with tim := { s.tim with atReset := true } }

theorem State.reinitOnDie_rd (s : State) (off : Nat) : s.reinitOnDie.rd off = s.reinit.rd off := by
  simp only [State.rd, State.reinitOnDie]

theorem State.noRoundYet_rd (s : State) (off : Nat) : s.noRoundYet.rd off = s.rd off := rfl
theorem State.noRoundYet_getB (s : State) (f : Fld) : s.noRoundYet.getB f = s.getB f := rfl
theorem State.noRoundYet_shown (s : State) : s.noRoundYet.roundShown = 0 := rfl
theorem State.noRoundYet_round (s : State) : s.rebuildRounds.noRoundYet.tim.round = s.tick / max 1 s.rebuildRounds.noRoundYet.lenNow := rfl

/-- An instance reset, step by step. -/
theorem State.instReset_eq (s : State) : s.instReset =
    (s.reinitOnDie.setB TIME_STATUS_SYNCED (s.getB TIME_STATUS_SYNCED && s.getB TIME_CTRL_MASTER)).rebuildRounds.noRoundYet := by
  unfold State.instReset State.reinitOnDie State.noRoundYet
  rfl

theorem State.instReset_rd (s : State) {off : Nat} (h : off ≠ TIME_STATUS) : s.instReset.rd off = ((resetRegs s.place).get off).toNat := by
  rw [State.instReset_eq, State.noRoundYet_rd, State.rebuildRounds_rd, State.rd_setB_ne _ _ _ h, State.reinitOnDie_rd, State.reinit_rd]

theorem State.instReset_synced (s : State) :
    s.instReset.getB TIME_STATUS_SYNCED = (s.getB TIME_STATUS_SYNCED && s.getB TIME_CTRL_MASTER) := by
  rw [State.instReset_eq, State.noRoundYet_getB, State.rebuildRounds_getB, State.getB_setB _ _ (by decide) rfl]

theorem State.instReset_roundShown (s : State) : s.instReset.roundShown = 0 := by rw [State.instReset_eq, State.noRoundYet_shown]

theorem State.instReset_round (s : State) : s.instReset.tim.round = s.tick / max 1 s.instReset.lenNow := by
  rw [State.instReset_eq, State.noRoundYet_round]
  simp only [State.tick, State.setB_die, State.reinitOnDie]

/-- What an instance reset clears and keeps beside the register window and the Rounds (R11, R139, R261). -/
theorem State.instReset_rest (s : State) : s.instReset.die = s.die ∧ s.instReset.dlv = Dlv.reset ∧ s.instReset.lnk = Lnk.reset
    ∧ s.instReset.trn = Trn.reset ∧ s.instReset.mov = Mov.reset ∧ s.instReset.fold = Fold.reset ∧ s.instReset.fw = [] ∧ s.instReset.age = Age.reset
    ∧ s.instReset.lme = Lme.reset ∧ s.instReset.evq = [] ∧ s.instReset.trq = []
    ∧ s.instReset.isl = { Isl.reset with clkOn := s.isl.clkOn, inReset := s.isl.inReset }
    ∧ s.instReset.now = s.now ∧ s.instReset.out = s.out ∧ s.instReset.free = s.free ∧ s.instReset.beyond = [] := by
  rw [State.instReset_eq]
  simp only [State.noRoundYet, State.rebuildRounds, State.setB, State.setF, State.wr, State.reinitOnDie, State.reinit, State.resetAt, and_self]

/-- A package reset clears everything but the model's clock, what has left the instance, the free values taken, the place and the queue (R11, R261). -/
theorem State.reinit_done (s : State) : ∃ t, done s s.reinit = .next t ∧ t.regs = resetRegs s.place ∧ t.die = 0 ∧ t.dlv = Dlv.reset
    ∧ t.lnk = Lnk.reset ∧ t.tim = Tim.reset ∧ t.trn = Trn.reset ∧ t.mov = Mov.reset ∧ t.fold = Fold.reset ∧ t.fw = [] ∧ t.isl = Isl.reset
    ∧ t.age = Age.reset ∧ t.lme = Lme.reset ∧ t.evq = [] ∧ t.trq = [] ∧ t.now = s.now ∧ t.out = s.out ∧ t.free = s.free ∧ t.beyond = []
    ∧ t.place = s.place ∧ t.pending = s.pending := by
  refine ⟨_, rfl, ?_⟩
  simp only [State.reinit, State.resetAt, and_self]

/-! ### What `TIME_ROUND` shows, R166 -/

theorem State.readReg_timeRound (s : State) : s.readReg TIME_ROUND.off = s.roundShown % 2 ^ 32 := by
  simp [State.readReg, State.view, State.present, TIME_ROUND, ID_DIE, ID_VER, ID_PLACE, ID_TWIN, ID_CAPS, TIME_TICK]

theorem State.readReg_timeRound_high (s : State) : s.readReg (TIME_ROUND.off + 4) = s.roundShown / 2 ^ 32 % 2 ^ 32 := by
  simp [State.readReg, State.view, State.present, TIME_ROUND, ID_DIE, ID_VER, ID_PLACE, ID_TWIN, ID_CAPS, TIME_TICK]

end Sys2Proof.Machine

namespace Sys2Proof

open Machine

/-- Settles O5: the register window after reset, evaluated at the words that the statement names. -/
theorem resetLeavesTheLinkOff : Obligations.ResetLeavesTheLinkOff := by
  unfold Obligations.ResetLeavesTheLinkOff
  obtain ⟨link, map, mode⟩ := State.reset_link
  obtain ⟨stage, result, unsealed⟩ := State.reset_start
  obtain ⟨tx, rx, acked⟩ := State.reset_sequence
  obtain ⟨noMicrocode, noSchedule⟩ := State.reset_nothing_runs
  obtain ⟨vi0, otherVis⟩ := State.reset_vis
  exact ⟨link, map, mode, stage, result, rfl, tx, rx, acked, noMicrocode, State.reset_counters, unsealed, noSchedule, vi0, otherVis,
    State.reset_rings, rfl⟩

/-- Settles O6: a package reset is `State.reinit`, and an instance reset is the same on a die that runs on. -/
theorem resetsReturnTheInstance : Obligations.ResetsReturnTheInstance := by
  unfold Obligations.ResetsReturnTheInstance
  intro s
  refine ⟨fun c hc => ?_, ?_⟩
  · obtain rfl | rfl : c = .packageReset ∨ c = .powerLoss := by simpa using hc
    · exact State.reinit_done s
    · exact State.reinit_done s
  · have run : exec .instanceReset s = done s s.instReset := rfl
    have regs : ∀ off, off ≠ TIME_STATUS → s.instReset.rd off = ((resetRegs s.place).get off).toNat := fun _ => State.instReset_rd s
    have synced := State.instReset_synced s
    have round := State.instReset_round s
    have shown := State.instReset_roundShown s
    have rest := State.instReset_rest s
    rw [run]
    generalize s.instReset = t at *
    obtain ⟨die, dlv, lnk, trn, mov, fold, fw, age, lme, evq, trq, isl, now, out, free, beyond⟩ := rest
    refine ⟨_, rfl, die, synced, regs, round, ?_, ?_, dlv, lnk, trn, mov, fold, fw, age, lme, evq, trq, isl, now, out, free, beyond, rfl, rfl⟩
    · rw [State.readReg_timeRound]
      exact congrArg (· % 2 ^ 32) shown
    · rw [State.readReg_timeRound_high]
      exact congrArg (· / 2 ^ 32 % 2 ^ 32) shown

end Sys2Proof
end

section
/-! SUPPORT. What an event changes while the management clock runs, and what an access that is not aligned is answered (R9, R227, R253, R345). -/

namespace Sys2Proof.Machine

/-! ### What an event changes -/

/-- `t` differs from `s` in the register window and in the event and trace queues alone. -/
def EventOnly (s t : State) : Prop := t = { s with regs := t.regs, evq := t.evq, trq := t.trq }

theorem EventOnly.refl (s : State) : EventOnly s s := rfl

theorem EventOnly.trans {s t u : State} (h : EventOnly s t) (k : EventOnly t u) : EventOnly s u := by
  unfold EventOnly at *; rw [k, h]

theorem EventOnly.isl {s t : State} (h : EventOnly s t) : t.isl = s.isl := by rw [h]

theorem State.wr_eventOnly (s : State) (a v : Nat) : EventOnly s (s.wr a v) := rfl

theorem State.setF_eventOnly (s : State) (f : Fld) (n : Nat) : EventOnly s (s.setF f n) := State.wr_eventOnly s _ _

theorem State.putW_eventOnly (s : State) (w : Wide) (v : Nat) : EventOnly s (s.putW w v) := rfl

theorem State.trq_eventOnly (s : State) (q : List (List Byte)) : EventOnly s { s with trq := q } := rfl

theorem State.count_eventOnly {s : State} (h : s.isl.mgmtStopped = false) (c : Cnt) (n : Nat) : EventOnly s (s.count c n) := by
  unfold State.count
  simp only
  split
  · rw [State.keepOver_running (by exact h)]; rfl
  · rw [State.keepOver_running (by exact h)]; rfl

theorem State.trace_eventOnly {s : State} (h : s.isl.mgmtStopped = false) (ty : Nat) (d : List Byte) : EventOnly s (s.trace ty d) := by
  unfold State.trace State.traceIn
  split
  · exact (State.setF_eventOnly s _ _).trans (State.trq_eventOnly _ _)
  · exact (State.setF_eventOnly s _ _).trans (State.count_eventOnly (by exact h) _ _)

theorem State.evRegs_eventOnly {s : State} (h : s.isl.mgmtStopped = false) (k c d : Nat) (b : Bool) : EventOnly s (s.evRegs k c d b) :=
  ((((State.count_eventOnly h _ _).trans (State.wr_eventOnly _ _ _)).trans (State.wr_eventOnly _ _ _)).trans
    (State.putW_eventOnly _ _ _)).trans (State.setF_eventOnly _ _ _)

theorem State.evTrace_eventOnly {s : State} (h : s.isl.mgmtStopped = false) (k c : Nat) : EventOnly s (s.evTrace k c) := by
  unfold State.evTrace
  split
  · exact State.trace_eventOnly h _ _
  · exact EventOnly.refl s

theorem State.evLost_eventOnly {s : State} (h : s.isl.mgmtStopped = false) (q : List Ev) : EventOnly s (s.evLost q) :=
  have queue : EventOnly s { s with evq := q } := rfl
  (queue.trans (State.count_eventOnly (by exact h) _ _)).trans (State.wr_eventOnly _ _ _)

theorem State.evQueue_eventOnly {s : State} (h : s.isl.mgmtStopped = false) (e : Ev) : EventOnly s (s.evQueue e) := by
  unfold State.evQueue State.evFail State.evMinor
  split
  · split
    · rfl
    · exact State.evLost_eventOnly h _
  · split
    · exact EventOnly.refl s
    · split
      · rfl
      · exact State.evLost_eventOnly h _

/-- While the management clock runs an event changes registers and the two queues alone (R258, R345). -/
theorem State.raiseD_eventOnly {s : State} (h : s.isl.mgmtStopped = false) (c d : Nat) (b : Bool) : EventOnly s (s.raiseD c d b) := by
  unfold State.raiseD
  have regs := State.evRegs_eventOnly h (evClass c) c d b
  have trace := State.evTrace_eventOnly (s := s.evRegs (evClass c) c d b) (by rw [regs.isl, h]) (evClass c) c
  exact (regs.trans trace).trans (State.evQueue_eventOnly (by rw [trace.isl, regs.isl, h]) _)

/-! ### `EVT_LAST` -/

theorem State.evLost_last (s : State) (q : List Ev) : (s.evLost q).rd EVT_LAST = s.rd EVT_LAST := by
  unfold State.evLost
  rw [State.rd_setB_ne _ _ _ (by decide), State.rd_count_ne _ _ _ (by decide) (by decide)]
  rfl

theorem State.evQueue_last (s : State) (e : Ev) : (s.evQueue e).rd EVT_LAST = s.rd EVT_LAST := by
  unfold State.evQueue State.evFail State.evMinor
  split
  · split
    · rfl
    · exact State.evLost_last s _
  · split
    · rfl
    · split
      · rfl
      · exact State.evLost_last s _

theorem State.traceIn_last (s : State) (r : List Byte) : (s.traceIn r).rd EVT_LAST = s.rd EVT_LAST := by
  unfold State.traceIn
  split
  · rfl
  · exact State.rd_count_ne _ _ _ (by decide) (by decide)

theorem State.evTrace_last (s : State) (k c : Nat) : (s.evTrace k c).rd EVT_LAST = s.rd EVT_LAST := by
  unfold State.evTrace
  split
  · exact (State.traceIn_last _ _).trans (State.rd_setF_ne _ _ _ (by decide))
  · rfl

theorem evClass_le (c : Nat) : evClass c ≤ 2 := by
  unfold evClass
  split
  · exact Nat.le_refl 2
  · split
    · decide
    · decide

/-- What `EVT_LAST` reads after an event, whatever its detail (R345). -/
theorem State.raiseD_last (s : State) {c : Nat} (hc : c < 2 ^ 30) (d : Nat) (b : Bool) :
    (s.raiseD c d b).rd EVT_LAST = evClass c * 2 ^ 30 + c := by
  unfold State.raiseD State.evRegs State.evSeen
  rw [State.evQueue_last, State.evTrace_last, State.rd_setF_ne _ _ _ (by decide), State.rd_putW_ne _ _ _ (by decide) (by decide),
    State.rd_wr_ne _ _ (by decide), State.rd_wr_same]
  have := evClass_le c
  exact Nat.mod_eq_of_lt (by omega)

theorem State.badAccess_last (s : State) (off : Nat) (core : Bool) : (s.badAccess off core).rd EVT_LAST = 1 := State.raiseD_last s (by decide) off core

end Sys2Proof.Machine

namespace Sys2Proof
open Machine

/-- The management clock is seen running. -/
theorem ClocksRun.mgmtRunning {s : State} (h : ClocksRun s) : s.isl.mgmtStopped = false := by
  have seen : s.clkSeen .mgmt = true := (Bool.and_eq_true_iff.mp h.mgmt).2
  simpa [State.clkSeen] using seen

/-- No access waits at a crossing. -/
theorem ClocksRun.waitsAt {s : State} (h : ClocksRun s) (r : Requester) (off : Nat) : s.waitsAt r off = none := by
  unfold State.waitsAt
  split
  · simp [h.xings 2 (by decide), h.xings 3 (by decide)]
  · rw [if_pos (h.reaches off)]

theorem ClocksRun.accessCmd {s : State} (h : ClocksRun s) (r : Requester) (write : Bool) (vi : Option Nat) (off v : Nat) :
    s.accessCmd r write vi off v = s.access r write vi off v := by
  unfold State.accessCmd; rw [h.waitsAt]


namespace Machine

/-- The word that a read returns leaves at once. -/
theorem State.emit_read (s : State) (w : Word) : s.emit (.read w) = { s with out := .read w :: s.out } := State.emit_inner s _ rfl

/-- A read that is refused answers all ones, and a write nothing (R9). -/
def State.answerOnes (s : State) (read : Bool) : State := if read then s.emit (.read 0xFFFFFFFF) else s

theorem State.answerOnes_eq (s : State) (read : Bool) :
    s.answerOnes read = { s with out := (if read then [.read 0xFFFFFFFF] else []) ++ s.out } := by
  cases read with
  | false => rfl
  | true => exact State.emit_read s _

theorem State.answerOnes_not (s : State) (read : Bool) : (if !read then s else s.emit (.read 0xFFFFFFFF)) = s.answerOnes read := by
  cases read with
  | false => exact (if_pos rfl).trans (if_neg Bool.false_ne_true).symm
  | true => exact (if_neg Bool.false_ne_true).trans (if_pos rfl).symm

theorem EventOnly.exists_eq {s t : State} (h : EventOnly s t) : ∃ r e q, t = { s with regs := r, evq := e, trq := q } := ⟨_, _, _, h⟩

theorem State.accessWrite_unaligned (s : State) (r : Requester) {off : Nat} (v : Nat) (ho : off % 4 ≠ 0) :
    s.accessWrite r off v = s.badAccess off (r == .coreSide) := if_neg ho

theorem State.accessRead_unaligned (s : State) (r : Requester) {off : Nat} (ho : off % 4 ≠ 0) :
    s.accessRead r off = (s.badAccess off (r == .coreSide)).emit (.read 0xFFFFFFFF) := if_neg ho

theorem State.access_management (s : State) {r : Requester} (hr : r ≠ .coreSide) (write : Bool) (vi : Option Nat) (off v : Nat) :
    s.access r write vi off v = if write then s.accessWrite r off v else s.accessRead r off := if_neg hr

theorem State.coreAccess_unaligned (s : State) (write : Bool) (n : Nat) {off : Nat} (v : Nat) (ho : off % 4 ≠ 0) :
    s.coreAccess write (some n) off v = if write then s.accessWrite .coreSide off v else s.accessRead .coreSide off := by
  simp [State.coreAccess, ho]

/-- An access that is not aligned is refused, whoever makes it, where the core side names a VI (R9, R227). -/
theorem State.access_unaligned (s : State) (r : Requester) (read : Bool) (vi : Option Nat) {off : Nat} (v : Nat) (hvi : r = .coreSide → vi.isSome)
    (ho : off % 4 ≠ 0) : s.access r (!read) vi off v = (s.badAccess off (r == .coreSide)).answerOnes read := by
  have made : s.access r (!read) vi off v = if !read then s.accessWrite r off v else s.accessRead r off := by
    by_cases hr : r = .coreSide
    · subst hr
      obtain ⟨n, rfl⟩ := Option.isSome_iff_exists.1 (hvi rfl)
      exact (if_pos rfl).trans (State.coreAccess_unaligned s _ n v ho)
    · exact State.access_management s hr _ _ _ _
  rw [made, State.accessWrite_unaligned s r v ho, State.accessRead_unaligned s r ho, State.answerOnes_not]

end Machine

theorem ClocksRun.badCmd {s : State} (h : ClocksRun s) (r : Requester) (read : Bool) (off : Nat) :
    s.badCmd r (!read) off = (s.badAccess off (r == .coreSide)).answerOnes read := by
  unfold State.badCmd
  rw [h.waitsAt]
  exact State.answerOnes_not _ read

/-- A refused access raises BAD_ACCESS, and a read returns all ones; nothing else changes (R9). -/
theorem ClocksRun.badAccess_answered {s : State} (h : ClocksRun s) (read : Bool) (off : Nat) (core : Bool) :
    ∃ t, done s ((s.badAccess off core).answerOnes read) = .next t ∧ t.rd EVT_LAST = 1
      ∧ t.out = (if read then [.read 0xFFFFFFFF] else []) ++ s.out ∧ PlainKept [] s t
      ∧ t = { s with regs := t.regs, evq := t.evq, trq := t.trq, out := t.out } := by
  have only : EventOnly s (s.badAccess off core) := State.raiseD_eventOnly h.mgmtRunning _ _ _
  have last := s.badAccess_last off core
  have kept : PlainKept [] s (s.badAccess off core) := fun o ho _ => State.rd_raiseD s _ _ _ ho
  rw [State.answerOnes_eq]
  obtain ⟨r, e, q, eq⟩ := only.exists_eq
  rw [eq] at last kept ⊢
  exact ⟨_, rfl, last, rfl, kept, rfl⟩

theorem Machine.State.badCmd_waits {s : State} (hm : s.mgmtRuns = false) (hw : s.isl.wait = []) {r : Requester} (hr : r ≠ .coreSide) (write : Bool) (off : Nat) :
    s.badCmd r write off = { s with isl := { s.isl with wait := [(xOf off, .bad r write off)] } } := by
  have waits : s.waitsAt r off = some (xOf off) := by
    unfold State.waitsAt State.reaches
    rw [if_neg hr, hm]; rfl
  have room : 0 < xDepth (xOf off) := by
    unfold xOf
    split <;> decide
  unfold State.badCmd State.offerAt State.hold
  rw [waits, hw]
  exact if_pos room

/-- Settles O16: every such access is answered by `State.badAccess`, whose event changes counters, event and trace registers and the two queues alone. -/
theorem unalignedAccessChangesNothing : Obligations.UnalignedAccessChangesNothing := by
  unfold Obligations.UnalignedAccessChangesNothing
  intro s c read
  refine ⟨fun h hc => ?_, fun hm hw r off hr hc => ?_⟩
  · rcases hc with ⟨r, off, rfl⟩ | ⟨r, off, v, rfl, hr, ho, rfl⟩ | ⟨r, off, rfl, hr, ho, rfl⟩ | ⟨vi, off, v, rfl, ho⟩
    · have run : exec (.unalignedAccess r (!read) off) s = done s (s.badCmd r (!read) off.toNat) := rfl
      rw [run, h.badCmd]
      exact h.badAccess_answered read _ _
    · have run : exec (.registerWrite r off v) s = done s (s.accessCmd r (!false) none off.toNat v.toNat) := rfl
      rw [run, h.accessCmd, State.access_unaligned s r false none _ (fun e => absurd e hr) ho]
      exact h.badAccess_answered false _ _
    · have run : exec (.lowWordRead r off) s = done s (s.accessCmd r (!true) none off.toNat 0) := rfl
      rw [run, h.accessCmd, State.access_unaligned s r true none _ (fun e => absurd e hr) ho]
      exact h.badAccess_answered true _ _
    · have run : exec (.coreSideAccess (!read) vi off v) s = done s (s.accessCmd .coreSide (!read) (some vi.toNat) off.toNat v.toNat) := rfl
      rw [run, h.accessCmd, State.access_unaligned s .coreSide read (some vi.toNat) _ (fun _ => rfl) ho]
      exact h.badAccess_answered read _ _
  · subst hc
    have run : exec (.unalignedAccess r (!read) off) s = done s (s.badCmd r (!read) off.toNat) := rfl
    rw [run, State.badCmd_waits hm hw hr]
    rfl

end Sys2Proof
end

section
/-! SUPPORT. Reads and writes of aligned registers by their access codes (R7, R8, R10), and a read by Doubles (R260). -/

namespace Sys2Proof.Machine

/-! ### One write -/

theorem State.fieldsWrite_acc (s : State) {off : Nat} {a : Acc} (h : accOf off = some a) (v : Nat) :
    s.fieldsWrite off v =
      (let m := a.rw ||| (if s.sealed_ then 0 else a.rwl)
       s.wr off (((s.rd off &&& (0xFFFFFFFF ^^^ m)) ||| (v &&& m)) &&& (0xFFFFFFFF ^^^ (v &&& a.w1c)))) := by
  unfold State.fieldsWrite; rw [h]

theorem State.fieldsWrite_readOnly (s : State) {off : Nat} (h : accOf off = none) (v : Nat) : s.fieldsWrite off v = s := by
  unfold State.fieldsWrite; rw [h]

/-- A write that is not dropped, of a register that is no 64-bit one. -/
theorem State.writeReg_word (s : State) (r : Requester) {off v : Nat} (here : s.present off = true) (kept : s.dropsWrite off v = false)
    (low : wideLow off = false) (high : wideHigh off = false) : s.writeReg r off v = s.wordWrite off v (r == .coreSide) := by
  simp [State.writeReg, here, kept, low, high]

/-- A write that is dropped is counted, and what it changes beside the locked fields is written (R8). -/
theorem State.writeReg_dropped (s : State) (r : Requester) {off v : Nat} (here : s.present off = true) (drop : s.dropsWrite off v = true)
    (low : wideLow off = false) (high : wideHigh off = false) :
    s.writeReg r off v = (s.bump ID_SEAL_DROPS).wordWrite off v (r == .coreSide) := by
  simp [State.writeReg, here, drop, low, high]

theorem State.dropsWrite_readOnly (s : State) {off : Nat} (h : accOf off = none) (v : Nat) : s.dropsWrite off v = false := by
  simp [State.dropsWrite, h]

theorem State.dropsWrite_unlocked (s : State) {off : Nat} {a : Acc} (h : accOf off = some a) (unlocked : a.rwl = 0) (v : Nat) :
    s.dropsWrite off v = false := by
  simp [State.dropsWrite, h, unlocked]

theorem State.dropsWrite_unsealed (s : State) (h : s.getB ID_SEAL_SEALED = false) (off v : Nat) : s.dropsWrite off v = false := by
  simp [State.dropsWrite, State.sealed_, h]

/-! ### The places of single registers -/

theorem accOf_DLV_ARB : accOf DLV_ARB = some ⟨0x1040, 4, 1, 0xFFFFFFFF, 0, 0⟩ := by decide
theorem accOf_ID_PLACE : accOf ID_PLACE = none := by decide
theorem accOf_ID_POD : accOf ID_POD = some ⟨0x10, 4, 1, 0, 0x1FF, 0⟩ := by decide

theorem accOf_TURN_START : accOf TURN_START.off = some ⟨0x1870, 4, 1, 0xFFFFFFFF, 0, 0⟩ := by decide
theorem accOf_TURN_START_high : accOf (TURN_START.off + 4) = some ⟨0x1874, 4, 1, 0xFFFFFFFF, 0, 0⟩ := by decide

theorem State.present_outside (s : State) {off : Nat} (h : off < 0x800 ∨ 0xCC0 ≤ off ∧ off < 0x4900) : s.present off = true := by
  unfold State.present
  rw [if_neg (by omega), if_neg (by omega), if_neg (by omega), if_neg (by omega), if_neg (by omega)]

/-- The write of these registers does what their access codes say and no more. -/
theorem State.wordWrite_codes (s : State) (v : Nat) (core : Bool) :
    ∀ off ∈ [ID_PLACE, ID_POD, DLV_ARB], s.wordWrite off v core = s.fieldsWrite off v := by
  simp [State.wordWrite, ID_PLACE, ID_POD, DLV_ARB, LINK_CTRL, TIME_CTRL, TURN_CTRL, TURN_LEN, TURN_ASSUME, TURN_FLOOD, TURN_DECK, TURN_LAG, FOLD_CTRL,
    ISL_CTRL, AGE_CTRL, START_CTRL, START_MEM, LME_CTRL, LME_LOAD, MBX_CTRL, FW_CTRL, FW_CHAN, FW_WIN_SEL]

theorem State.wideWrite_TURN_START (s : State) (v : Nat) (core : Bool) : s.wideWrite TURN_START.off v core = s.putW TURN_START v := by
  simp [State.wideWrite, rowOf, TURN_START, TURN_DECK_BASE, ISL_VOID_END]

/-! ### The bits of a write -/

theorem and_allOnes {n : Nat} (h : n < 2 ^ 32) : n &&& 0xFFFFFFFF = n := by
  rw [show (0xFFFFFFFF : Nat) = 2 ^ 32 - 1 from rfl, Nat.and_two_pow_sub_one_eq_mod, Nat.mod_eq_of_lt h]

/-- A word that is one RW field takes what is written. -/
theorem State.fieldsWrite_DLV_ARB (s : State) {v : Nat} (hv : v < 2 ^ 32) : s.fieldsWrite DLV_ARB v = s.wr DLV_ARB v := by
  rw [State.fieldsWrite_acc s accOf_DLV_ARB]
  simp [and_allOnes hv]

/-- The low nine bits of a word in which they are replaced. -/
theorem lowNine_replaced (w v : Nat) : (((w &&& 0xFFFFFE00) ||| (v &&& 0x1FF)) &&& 0xFFFFFFFF) % 2 ^ 9 = v % 512 := by
  have nine : v % 2 ^ 9 < 2 ^ 9 := Nat.mod_lt _ (by decide)
  have high : (0xFFFFFE00 : Nat) % 2 ^ 9 = 0 := by decide
  have low : (0x1FF : Nat) % 2 ^ 9 = 2 ^ 9 - 1 := by decide
  have all : (0xFFFFFFFF : Nat) % 2 ^ 9 = 2 ^ 9 - 1 := by decide
  rw [show (512 : Nat) = 2 ^ 9 from rfl, Nat.and_mod_two_pow, Nat.or_mod_two_pow, Nat.and_mod_two_pow (a := w), Nat.and_mod_two_pow (a := v), high, low, all, Nat.and_zero, Nat.zero_or,
    Nat.and_two_pow_sub_one_of_lt_two_pow nine, Nat.and_two_pow_sub_one_of_lt_two_pow nine]

/-- `ID_POD` takes the low nine bits until sealing. -/
theorem State.fieldsWrite_ID_POD_unsealed (s : State) (h : s.getB ID_SEAL_SEALED = false) (v : Nat) :
    (s.fieldsWrite ID_POD v).getF ID_POD_POD = v % 512 ∧ ∃ n, s.fieldsWrite ID_POD v = s.wr ID_POD n := by
  rw [State.fieldsWrite_acc s accOf_ID_POD]
  refine ⟨?_, _, rfl⟩
  have field : ∀ n, (s.wr ID_POD n).getF ID_POD_POD = n % 2 ^ 9 := fun n => by
    unfold State.getF bitsOf
    rw [show ID_POD_POD.off = ID_POD from rfl, State.rd_wr_same]
    simp only [ID_POD_POD]
    omega
  rw [field, ← lowNine_replaced (s.rd ID_POD) v]
  simp [State.sealed_, h]

/-- A sealed instance keeps `ID_POD`. -/
theorem State.fieldsWrite_ID_POD_sealed (s : State) (h : s.getB ID_SEAL_SEALED = true) (v : Nat) :
    s.fieldsWrite ID_POD v = s.wr ID_POD (s.rd ID_POD) := by
  rw [State.fieldsWrite_acc s accOf_ID_POD]
  simp [State.sealed_, h, and_allOnes (s.rd_lt ID_POD)]

/-- On a sealed instance a write that would change `POD` is dropped (R8). -/
theorem State.dropsWrite_ID_POD (s : State) (h : s.getB ID_SEAL_SEALED = true) {v : Nat} (hv : v % 512 ≠ s.getF ID_POD_POD) :
    s.dropsWrite ID_POD v = true := by
  have field : s.getF ID_POD_POD = s.rd ID_POD % 2 ^ 9 := by
    simp [State.getF, bitsOf, ID_POD_POD, ID_POD]
  have differ : (s.rd ID_POD ^^^ v) &&& 0x1FF ≠ 0 := by
    rw [show (0x1FF : Nat) = 2 ^ 9 - 1 from rfl, Nat.and_two_pow_sub_one_eq_mod, Nat.xor_mod_two_pow, ← field]
    exact fun e => hv (Nat.xor_eq_zero_iff.1 e).symm
  simp [State.dropsWrite, State.sealed_, h, accOf_ID_POD, differ, s.present_outside (off := ID_POD) (by decide)]

/-! ### 64-bit registers, R10 -/

/-- The low word that a requester has written is held until its high word comes. -/
def State.holdLow (s : State) (r : Requester) (off : Nat) (v : Word) : State :=
  { s with held := s.held.filter (fun (p : (Requester × Nat) × Word) => p.1 != (r, off)) ++ [((r, off), v)] }

theorem State.holdLow_heldLow (s : State) (r : Requester) (off : Nat) (v : Word) : (s.holdLow r off v).heldLow r off = v.toNat := by
  have none_left : (s.held.filter (fun (p : (Requester × Nat) × Word) => p.1 != (r, off))).find? (fun p => p.1 == (r, off)) = none := by
    rw [List.find?_eq_none]
    intro p hp
    simpa using (List.mem_filter.1 hp).2
  unfold State.heldLow State.holdLow
  simp only [List.find?_append, none_left, Option.none_or, List.find?_cons, beq_self_eq_true]

theorem State.writeReg_low (s : State) (r : Requester) (v : Word) :
    s.writeReg r TURN_START.off v.toNat = s.holdLow r TURN_START.off v := by
  have low : wideLow TURN_START.off = true := by decide
  have kept := s.dropsWrite_unlocked accOf_TURN_START rfl v.toNat
  simp [State.writeReg, State.holdLow, s.present_outside (off := TURN_START.off) (by decide), kept, low, accOf_TURN_START]

theorem State.writeReg_high (s : State) (r : Requester) (v : Nat) :
    s.writeReg r (TURN_START.off + 4) v = s.putW TURN_START (s.heldLow r TURN_START.off + 2 ^ 32 * v) := by
  have low : wideLow (TURN_START.off + 4) = false := by decide
  have high : wideHigh (TURN_START.off + 4) = true := by decide
  have kept := s.dropsWrite_unlocked accOf_TURN_START_high rfl v
  simp [State.writeReg, s.present_outside (off := TURN_START.off + 4) (by decide), kept, low, high, accOf_TURN_START_high, State.wideWrite_TURN_START]

/-! ### A read by Doubles, R260 -/

/-- Two samples of the tick counter always differ: eight disagreements and one freeze. -/
def State.tickDoubles (s : State) : State := (s.takeFree.count CNT_DOUBLES_RETRY 8).count CNT_DOUBLES_FALLBACK

theorem State.doubles_tick (s : State) (h : s.clockRuns = true) : s.doubles TIME_TICK.off = s.tickDoubles := by
  have moving : s.mayChange TIME_TICK.off = true := by simp [State.mayChange, h]
  simp [State.doubles, moving, State.tickDoubles]

theorem State.readReg_tick (s : State) : s.readReg TIME_TICK.off = s.tick % 2 ^ 32 := by
  simp [State.readReg, State.view, State.present, TIME_TICK, ID_DIE, ID_VER, ID_PLACE, ID_TWIN, ID_CAPS]

theorem State.readReg_tick_high (s : State) : s.readReg (TIME_TICK.off + 4) = s.tick / 2 ^ 32 := by
  simp [State.readReg, State.view, State.present, TIME_TICK, ID_DIE, ID_VER, ID_PLACE, ID_TWIN, ID_CAPS]

/-- The low word of the tick counter is read, and its high word kept for the requester. -/
theorem State.readBy_tick (s : State) (r : Requester) (h : s.clockRuns = true) (none_held : s.shadow = []) :
    s.readBy r TIME_TICK.off = (s.tick % 2 ^ 32, { s.tickDoubles with shadow := [((r, TIME_TICK.off + 4), BitVec.ofNat 32 (s.tick / 2 ^ 32))] }) := by
  have low : wideLow TIME_TICK.off = true := by decide
  simp only [State.readBy, none_held, List.find?_nil, State.doubles_tick s h, low, if_true, State.readReg_tick, State.readReg_tick_high, List.filter_nil,
    List.nil_append]

/-- A word kept for a requester is returned once. -/
theorem State.readBy_shadow (s : State) (r : Requester) (off : Nat) (w : Word) (kept : s.shadow = [((r, off), w)]) :
    s.readBy r off = (w.toNat, { s with shadow := [] }) := by
  simp [State.readBy, kept]

/-- A word that is not the one of a 32-bit counter reads as before. -/
theorem State.rd_count_narrow (s : State) (c : Cnt) (n : Nat) (hc : c.w = 32) {off : Nat} (ho : off ≠ c.off) : (s.count c n).rd off = s.rd off := by
  unfold State.count
  simp only
  rw [State.rd_keepOver, if_neg (by omega), State.rd_wr_ne _ _ ho]

/-- The counts of a read by Doubles change two counters, and no word beside. -/
theorem State.tickDoubles_rd (s : State) {off : Nat} (h : off ≠ CNT_DOUBLES_RETRY.off) (h' : off ≠ CNT_DOUBLES_FALLBACK.off) :
    s.tickDoubles.rd off = s.rd off :=
  (State.rd_count_narrow _ _ _ rfl h').trans (State.rd_count_narrow _ _ _ rfl h)

theorem State.tickDoubles_retry (s : State) : s.tickDoubles.cnt CNT_DOUBLES_RETRY = min (2 ^ 32 - 1) (s.cnt CNT_DOUBLES_RETRY + 8) :=
  (State.rd_count_narrow (s.takeFree.count CNT_DOUBLES_RETRY 8) CNT_DOUBLES_FALLBACK 1 rfl (by decide)).trans (State.cnt_count s.takeFree CNT_DOUBLES_RETRY 8 rfl)

theorem State.tickDoubles_fallback (s : State) : s.tickDoubles.cnt CNT_DOUBLES_FALLBACK = min (2 ^ 32 - 1) (s.cnt CNT_DOUBLES_FALLBACK + 1) := by
  have other : (s.takeFree.count CNT_DOUBLES_RETRY 8).cnt CNT_DOUBLES_FALLBACK = s.cnt CNT_DOUBLES_FALLBACK :=
    State.rd_count_narrow s.takeFree CNT_DOUBLES_RETRY 8 rfl (by decide)
  unfold State.tickDoubles
  rw [State.cnt_count _ _ _ rfl, other]

end Sys2Proof.Machine

namespace Sys2Proof

open Machine

/-- A write of an aligned register from the management side. -/
theorem ClocksRun.registerWrite {s : State} (h : ClocksRun s) {r : Requester} (hr : r ≠ .coreSide) (off : BitVec 16) (v : Word)
    (ho : off.toNat % 4 = 0) : exec (.registerWrite r off v) s = done s (s.writeReg r off.toNat v.toNat) := by
  have run : exec (.registerWrite r off v) s = done s (s.accessCmd r true none off.toNat v.toNat) := rfl
  have write : s.accessWrite r off.toNat v.toNat = s.writeReg r off.toNat v.toNat := if_pos ho
  rw [run, h.accessCmd, State.access_management s hr, if_pos rfl, write]

/-- A read of an aligned register from the management side. -/
theorem ClocksRun.lowWordRead {s : State} (h : ClocksRun s) {r : Requester} (hr : r ≠ .coreSide) (off : BitVec 16) (ho : off.toNat % 4 = 0) {n : Nat}
    {u : State} (reads : s.readBy r off.toNat = (n, u)) :
    exec (.lowWordRead r off) s = done s { u with out := .read (BitVec.ofNat 32 n) :: u.out } := by
  have run : exec (.lowWordRead r off) s = done s (s.accessCmd r false none off.toNat 0) := rfl
  have read : s.accessRead r off.toNat = (s.readBy r off.toNat).2.emit (.read (BitVec.ofNat 32 (s.readBy r off.toNat).1)) := if_pos ho
  rw [run, h.accessCmd, State.access_management s hr, if_neg Bool.false_ne_true, read, reads, State.emit_read]

/-- Words that tell whether clocks are seen running decide it with the islands. -/
theorem ClocksRun.of_status {s t : State} (h : ClocksRun s) (isl : t.isl = s.isl) (status : t.rd ISL_STATUS = s.rd ISL_STATUS) : ClocksRun t := by
  refine h.of_eq (by rw [isl]) (fun c => ?_)
  cases c with
  | linkCore => exact State.getB_of_rd _ status
  | arith => exact State.getB_of_rd _ status
  | core => exact State.getB_of_rd _ status
  | mgmt => unfold State.clkSeen; rw [isl]

theorem onlyRegs_wr (s : State) (a v : Nat) : OnlyRegs [a] s (s.wr a v) :=
  ⟨rfl, fun _ ho => State.rd_wr_ne s v (by simpa using ho), fun _ => rfl⟩

/-- `DLV_ARB` takes what is written. -/
theorem ClocksRun.write_DLV_ARB {s : State} (h : ClocksRun s) {r : Requester} (hr : r ≠ .coreSide) (v : Word) :
    exec (.registerWrite r 0x1040 v) s = .next (s.wr DLV_ARB v.toNat) := by
  have kept := s.dropsWrite_unlocked accOf_DLV_ARB rfl v.toNat
  rw [h.registerWrite hr _ _ (by decide)]
  change done s (s.writeReg r DLV_ARB v.toNat) = _
  rw [s.writeReg_word r (s.present_outside (by decide)) kept (by decide) (by decide), s.wordWrite_codes _ _ _ (by simp), s.fieldsWrite_DLV_ARB v.isLt]
  rfl

/-- `ID_PLACE` is read-only. -/
theorem ClocksRun.write_ID_PLACE {s : State} (h : ClocksRun s) {r : Requester} (hr : r ≠ .coreSide) (v : Word) :
    exec (.registerWrite r 0x0008 v) s = .next s := by
  have kept := s.dropsWrite_readOnly accOf_ID_PLACE v.toNat
  rw [h.registerWrite hr _ _ (by decide)]
  change done s (s.writeReg r ID_PLACE v.toNat) = _
  rw [s.writeReg_word r (s.present_outside (by decide)) kept (by decide) (by decide), s.wordWrite_codes _ _ _ (by simp),
    s.fieldsWrite_readOnly accOf_ID_PLACE]
  rfl

/-- `ID_POD` may be written until sealing. -/
theorem ClocksRun.write_ID_POD_unsealed {s : State} (h : ClocksRun s) {r : Requester} (hr : r ≠ .coreSide) (v : Word)
    (hs : s.getB ID_SEAL_SEALED = false) :
    ∃ t, exec (.registerWrite r 0x0010 v) s = .next t ∧ t.getF ID_POD_POD = v.toNat % 512 ∧ OnlyRegs [ID_POD] s t := by
  have kept := s.dropsWrite_unsealed hs ID_POD v.toNat
  obtain ⟨field, n, word⟩ := s.fieldsWrite_ID_POD_unsealed hs v.toNat
  rw [h.registerWrite hr _ _ (by decide)]
  change ∃ t, done s (s.writeReg r ID_POD v.toNat) = _ ∧ _
  rw [s.writeReg_word r (s.present_outside (by decide)) kept (by decide) (by decide), s.wordWrite_codes _ _ _ (by simp)]
  rw [word] at field ⊢
  exact ⟨_, rfl, field, onlyRegs_wr s ID_POD n⟩

/-- On a sealed instance a write that would change `POD` is counted and nothing else (R8). -/
theorem ClocksRun.write_ID_POD_sealed {s : State} (h : ClocksRun s) {r : Requester} (hr : r ≠ .coreSide) (v : Word)
    (hs : s.getB ID_SEAL_SEALED = true) (hv : v.toNat % 512 ≠ s.getF ID_POD_POD) :
    ∃ t, exec (.registerWrite r 0x0010 v) s = .next t ∧ t.rd ID_POD = s.rd ID_POD ∧ t.getF ID_SEAL_DROPS = min 0xFFFF (s.getF ID_SEAL_DROPS + 1)
      ∧ t.getB ID_SEAL_SEALED = true ∧ OnlyRegs [ID_SEAL] s t := by
  have drop := s.dropsWrite_ID_POD hs hv
  have sealed : (s.bump ID_SEAL_DROPS).getB ID_SEAL_SEALED = true := by
    rw [← hs]
    unfold State.getB State.bump
    rw [State.getF_setF_ne _ _ _ (by decide) _ (.inr (.inr (by decide)))]
  have drops : (s.bump ID_SEAL_DROPS).getF ID_SEAL_DROPS = min 0xFFFF (s.getF ID_SEAL_DROPS + 1) := by
    unfold State.bump
    rw [State.getF_setF _ _ (by decide)]
    exact Nat.mod_eq_of_lt (by simp only [ID_SEAL_DROPS]; omega)
  have pod : ∀ off, ((s.bump ID_SEAL_DROPS).wr ID_POD ((s.bump ID_SEAL_DROPS).rd ID_POD)).rd off = (s.bump ID_SEAL_DROPS).rd off := fun off => by
    rw [State.rd_wr]
    split
    · next e => rw [e]; exact Nat.mod_eq_of_lt (State.rd_lt _ _)
    · rfl
  rw [h.registerWrite hr _ _ (by decide)]
  change ∃ t, done s (s.writeReg r ID_POD v.toNat) = _ ∧ _
  rw [s.writeReg_dropped r (s.present_outside (by decide)) drop (by decide) (by decide), State.wordWrite_codes _ _ _ _ (by simp),
    State.fieldsWrite_ID_POD_sealed _ sealed]
  refine ⟨_, rfl, (pod ID_POD).trans (State.rd_setF_ne s _ _ (by decide)), ?_, ?_, rfl, fun off ho => ?_, fun _ => rfl⟩
  · exact (State.getF_of_rd _ (pod _)).trans drops
  · exact (State.getB_of_rd _ (pod _)).trans sealed
  · exact (pod off).trans (State.rd_setF_ne s _ _ (by simpa [ID_SEAL_DROPS, ID_SEAL] using ho))

/-- A 64-bit register takes both halves with the write of its high word (R10). -/
theorem ClocksRun.write_TURN_START {s : State} (h : ClocksRun s) {r : Requester} (hr : r ≠ .coreSide) (v u : Word) :
    ∃ t t', exec (.registerWrite r 0x1870 v) s = .next t ∧ t.regs = s.regs ∧ exec (.registerWrite r 0x1874 u) t = .next t'
      ∧ t'.getW TURN_START = v.toNat + 2 ^ 32 * u.toNat ∧ WordsKept [0x1870, 0x1874] s t' := by
  let t := s.holdLow r TURN_START.off v
  have first : exec (.registerWrite r 0x1870 v) s = .next t := by
    rw [h.registerWrite hr _ _ (by decide)]
    exact congrArg (done s) (s.writeReg_low r v)
  have clocks : ClocksRun t := h.of_status rfl rfl
  have second : exec (.registerWrite r 0x1874 u) t = .next (t.putW TURN_START (v.toNat + 2 ^ 32 * u.toNat)) := by
    rw [clocks.registerWrite hr _ _ (by decide), ← s.holdLow_heldLow r TURN_START.off v]
    exact congrArg (done t) (t.writeReg_high r u.toNat)
  refine ⟨t, _, first, rfl, second, ?_, fun off ho => ?_⟩
  · have := v.isLt
    have := u.isLt
    rw [State.getW_putW]
    exact Nat.mod_eq_of_lt (by omega)
  · obtain ⟨low, high⟩ : off ≠ 0x1870 ∧ off ≠ 0x1874 := by simpa using ho
    exact State.rd_putW_ne t _ _ low high

/-- The tick counter is read by Doubles, its high word from the shadow that the read of the low word left (R10, R260). -/
theorem ClocksRun.read_TIME_TICK {s : State} (h : ClocksRun s) {r : Requester} (hr : r ≠ .coreSide) (none_held : s.shadow = []) :
    ∃ t t', exec (.lowWordRead r 0x1808) s = .next t ∧ t.out = .read (BitVec.ofNat 32 s.die.toNat) :: s.out
      ∧ counted CNT_DOUBLES_RETRY 8 s t ∧ counted CNT_DOUBLES_FALLBACK 1 s t
      ∧ WordsKept [CNT_DOUBLES_RETRY.off, CNT_DOUBLES_FALLBACK.off] s t ∧ exec (.lowWordRead r 0x180C) t = .next t'
      ∧ t'.out = .read (BitVec.ofNat 32 (s.die.toNat / 2 ^ 32)) :: t.out ∧ t'.shadow = [] ∧ t'.regs = t.regs := by
  have first := h.lowWordRead hr 0x1808 (by decide) (s.readBy_tick r h.clockRuns none_held)
  have words : ∀ off, off ≠ CNT_DOUBLES_RETRY.off → off ≠ CNT_DOUBLES_FALLBACK.off → s.tickDoubles.rd off = s.rd off := fun _ => s.tickDoubles_rd
  have retry := s.tickDoubles_retry
  have fallback := s.tickDoubles_fallback
  have isl : s.tickDoubles.isl = s.isl := by simp [State.tickDoubles]
  have out : s.tickDoubles.out = s.out := by simp [State.tickDoubles]
  generalize s.tickDoubles = d at *
  let high : Word := BitVec.ofNat 32 (s.tick / 2 ^ 32)
  let t : State := { d with shadow := [((r, TIME_TICK.off + 4), high)], out := .read (BitVec.ofNat 32 (s.tick % 2 ^ 32)) :: d.out,
                            pending := s.pending, place := s.place }
  have clocks : ClocksRun t := h.of_status isl (words _ (by decide) (by decide))
  have second := clocks.lowWordRead hr 0x180C (by decide) (t.readBy_shadow r _ high rfl)
  have low : BitVec.ofNat 32 (s.tick % 2 ^ 32) = BitVec.ofNat 32 s.die.toNat := BitVec.eq_of_toNat_eq (by simp [State.tick])
  refine ⟨t, _, first, ?_, retry, fallback, fun off ho => ?_, second, ?_, rfl, rfl⟩
  · rw [← low, ← out]
  · obtain ⟨ho, ho'⟩ : off ≠ CNT_DOUBLES_RETRY.off ∧ off ≠ CNT_DOUBLES_FALLBACK.off := by simpa using ho
    exact words off ho ho'
  · exact congrArg (fun w => Out.read w :: t.out) (by simp : BitVec.ofNat 32 high.toNat = high)

/-- Settles O17: one register of each kind, by the rule of `State.writeReg` or `State.readBy` that it falls under. -/
theorem registerAccessesFollowTheirCodes : Obligations.RegisterAccessesFollowTheirCodes := by
  unfold Obligations.RegisterAccessesFollowTheirCodes
  intro s r v u h hr
  exact ⟨⟨_, h.write_DLV_ARB hr v, (s.rd_wr_same _ _).trans (Nat.mod_eq_of_lt v.isLt), onlyRegs_wr s DLV_ARB _⟩, h.write_ID_PLACE hr v,
    h.write_ID_POD_unsealed hr v, h.write_ID_POD_sealed hr v, h.write_TURN_START hr v u, h.read_TIME_TICK hr⟩

end Sys2Proof
end

section
/-! SUPPORT. THE REFUTATION OF O52: A FAILED INTERCONNECT CHECK WHILE A STRAY WINDOW WRITE WAITS.
The start ends in Down with a cause that the host chooses (`Config.freeWord`, which does not compute). The run is cut where
LINK_FAIL takes that cause: the rest of the way to Down (`State.downBy`) never reads the word. -/

namespace Sys2Proof.Machine

/-- A field written into a word that stays nonzero puts that word, whatever it is. -/
theorem State.setF_eq_put {s : State} {f : Fld} {n : Nat} (h : BitVec.ofNat 32 (f.put (s.rd f.off) n) ≠ 0) :
    s.setF f n = { s with regs := Sparse.put s.regs f.off (BitVec.ofNat 32 (f.put (s.rd f.off) n)) } :=
  congrArg (fun m => { s with regs := m }) (if_neg h)

theorem getF_of_done {s t u : State} (h : done s t = .next u) (f : Fld) : u.getF f = t.getF f := by
  obtain rfl := Host.Outcome.next.inj h
  rfl

/-- What a step of the walking ones notes once its time has passed, with `fails` the lanes that failed. -/
def State.walkNoted (s : State) (fails : Nat) : State :=
  let s := s.setF START_T4FAIL_LANES (s.getF START_T4FAIL_LANES ||| fails)
  { s with strt := { s.strt with walk := s.strt.walk + 1 } }

/-- A start of the manufacturing test ended by `code`, before the link goes Down. -/
def State.scrapped (s : State) (code : Nat) : State :=
  (((s.stageOut s.stage 2).setF START_STATUS_FCODE code).endStart 3 0).raise 0x0802

/-- The rest of the entry to Down from the state `old`, once LINK_FAIL holds the cause. -/
def State.downBy (s : State) (old reason : Nat) : State :=
  let s := if 1 ≤ old ∧ old ≤ 3 then s.count CNT_TRAIN_FAIL else s
  let s := if old = 7 then s.holdEnds false else s
  let s := s.abandonSweep.cancelShift.cancelRepair
  let s := ({ s with age := { s.age with order := [] } }).setFs [(AGE_STATUS_ACTIVE, 0), (AGE_STATUS_LEFT, 0)]
  let s := s.dropDelivery
  let s := { s with lnk := { s.lnk with rxMap := [], rxMode := 3, wait := [] } }
  let s := (s.setMap []).setF LINK_STATUS_MODE 3
  let s := (s.setLanes s.lanes 1).refree
  let s := s.setLink 8 reason
  let s := if s.run then (s.voidPositions true).emptyBuffer else s
  let s := if 4 ≤ old then s.parentLost else s
  let s := s.failLinkTags
  let s := s.setFs [(ID_TWIN_TWINLESS, 0), (ID_TWIN_PEERPOD_VALID, 0), (ID_TWIN_PEERPOD, 0), (ID_TWIN_PEERPORT, 0)]
  ((s.runEnds 0x10 0x0D []).runEnds 0x16 0x0D []).runEnds 0x13 0 [0, 0, 0, 0]

theorem State.walkingOnesStep_fails {s e : State} {bad : BitVec 24} (check : s.t4Check = true) (mfg : s.getB START_CTRL_MFGDONE = false)
    (elapsed : s.elapse 4096 = e) (more : (e.strt.walk + 1 == s.walkSteps) = false) (fails : (bad.toNat &&& maskOf e.lanes != 0) = true) :
    exec (.walkingOnesStep bad) s = done s ((e.walkNoted (bad.toNat &&& maskOf e.lanes)).startScrap 0x86) := by
  refine congrArg (done s) ?_
  rw [check, mfg]
  refine (if_neg Bool.false_ne_true).trans ?_
  extract_lets n fwd timed toggled failed noted walked
  have htimed : timed = e := elapsed
  have htoggled : toggled = e := (if_neg (by simp [htimed, n, more])).trans htimed
  clear_value toggled
  subst htoggled
  exact if_pos (by simp only [failed]; simp [fails])

theorem State.startScrap_eq (s : State) (code : Nat) :
    s.startScrap code = (s.scrapped code).takeFree.enterDown (bitsOf (s.scrapped code).freeNow.toNat 0 8) := rfl

theorem State.enterDown_eq {s : State} (abort : s.canAbort = false) (reason : Nat) :
    s.enterDown reason = (((s.hush).setF LINK_FAIL_FSTATE s.link).setF LINK_FAIL_REASON reason).downBy s.link reason := by
  unfold State.enterDown
  rw [abort]
  rfl

/-- An instance in T4 of the manufacturing test that holds, for the peer, an access of a write of window number 416 whose 256
bytes have still to come. No such window exists (they are 0 to 31), and no run reaches this state; the PROD of window 416 would
lie on START_OUT. -/
def strayWrite : State :=
  { State.resetAt 14 with
    regs := [(0x404, 0x10000000), (0x4000, 0xE0000000), (0x6004, 0x4F000000)]
    lnk := { Lnk.reset with exchanged := true, stable := 4, seen := 1, peerSeen := 1 }
    mov := { Mov.reset with tags := [⟨0x8000, 9, 416, 64, 0, 0, 0, 0, 0, true, false, false⟩] }
    trn := { Trn.reset with ahead := [⟨0x30000 + 416, 0x8000, 0, 256, 0, 0, none⟩] } }

/-- `strayWrite` once lane 0 failed and the start ended with code 0x86. -/
def strayScrapped : State :=
  ((strayWrite.elapse 4096).walkNoted ((1 : BitVec 24).toNat &&& maskOf (strayWrite.elapse 4096).lanes)).scrapped 0x86

/-- The cause of Down that the host chooses for it. -/
def strayReason : Nat := bitsOf strayScrapped.freeNow.toNat 0 8

/-- `strayScrapped` on its way to Down, with the state that failed noted. -/
def strayFailing : State := strayScrapped.takeFree.hush.setF LINK_FAIL_FSTATE 1

/-- `strayFailing` with the cause noted too. -/
def strayCaused : State :=
  { strayFailing with regs := Sparse.put strayFailing.regs 0x408 (BitVec.ofNat 32 (LINK_FAIL_REASON.put 0x10000000 strayReason)) }

theorem strayReason_lt : strayReason < 256 := Nat.mod_lt _ (by decide)

theorem strayWrite_step : exec (.walkingOnesStep 1) strayWrite = done strayWrite (strayScrapped.takeFree.enterDown strayReason) := by
  unfold strayReason strayScrapped
  rw [← State.startScrap_eq]
  exact State.walkingOnesStep_fails (by decide +kernel) (by decide +kernel) rfl (by decide +kernel) (by decide +kernel)

theorem strayScrapped_down : strayScrapped.takeFree.enterDown strayReason = (strayFailing.setF LINK_FAIL_REASON strayReason).downBy 1 strayReason := by
  have link : strayScrapped.takeFree.link = 1 := by decide +kernel
  rw [State.enterDown_eq (by decide +kernel), link]
  rfl

theorem failWord_ne_zero : ∀ r < 256, BitVec.ofNat 32 (LINK_FAIL_REASON.put 0x10000000 r) ≠ 0 := by decide +kernel

theorem strayFailing_setF : strayFailing.setF LINK_FAIL_REASON strayReason = strayCaused := by
  have word : strayFailing.rd LINK_FAIL_REASON.off = 0x10000000 := by decide +kernel
  rw [State.setF_eq_put (by rw [word]; exact failWord_ne_zero _ strayReason_lt), word]
  rfl

/-- START_OUT reads 3 for T4: the scrap wrote 2 and the 256 bytes of the stray write then count into the same word. -/
theorem strayCaused_down_out : (strayCaused.downBy 1 strayReason).getF (START_OUT_OUT 4) = 3 := by decide +kernel

theorem strayWrite_clocksRun : ClocksRun strayWrite := ⟨by decide +kernel, by decide +kernel⟩

end Sys2Proof.Machine

namespace Sys2Proof
open Machine

/-- Refutes O52: a failed walking ones of the manufacturing test need not leave outcome 2 of T4. In `strayWrite` the entry to
Down answers an access of a write of window 416, and the PROD written for it lies on START_OUT, which then reads 3. The
statement does not ask that a window write held for the peer be of one of the 32 windows. -/
theorem not_serviceDetectAndChecks : ¬ Obligations.ServiceDetectAndChecks := by
  intro h
  obtain ⟨-, -, -, checks, -⟩ := h strayWrite strayWrite_clocksRun
  obtain ⟨t, step, -, failing, -⟩ := checks 1 (by decide +kernel)
  obtain ⟨-, -, -, out⟩ := failing (by decide +kernel) (by decide +kernel) (by decide +kernel)
  rw [strayWrite_step, strayScrapped_down, strayFailing_setF] at step
  rw [getF_of_done step, strayCaused_down_out] at out
  exact absurd out (by decide)

end Sys2Proof
end

section
/-! SUPPORT. What shows an instance's place, and that no step moves it (R15, R16, R339). -/

namespace Sys2Proof.Machine

/-! ### What a command can do: it answers a next state, with the queue and the place as they were -/

/-- Every command completes with `done`. -/
theorem exec_eq_done (c : Instr) (s : State) : ∃ t, exec c s = done s t := by
  cases c <;> exact ⟨_, rfl⟩

/-- A state that keeps queue and place is itself what `done` answers. -/
theorem done_eq_next {s t : State} (pending : t.pending = s.pending) (place : t.place = s.place) : done s t = .next t := by
  unfold done; rw [← pending, ← place]

/-- A step answers a next state with the place as it was and the rest of the queue: by `done` for a command, and by what time leaves as it was
on an empty queue. -/
theorem step_next (s : State) : ∃ t, step s = .next t ∧ t.place = s.place ∧ t.pending = s.pending.tail := by
  unfold step
  split
  next empty =>
    have only := State.elapse_only s 1
    refine ⟨_, rfl, ?_, ?_⟩
    · rw [only]
    · rw [only, empty]; rfl
  next c rest queue =>
    obtain ⟨t, answer⟩ := exec_eq_done c { s with pending := rest }
    exact ⟨_, answer, rfl, by rw [queue]; rfl⟩

/-! ### The identity registers show the place -/

theorem State.readReg_idPlace (s : State) : s.readReg ID_PLACE = idPlace s.place := by
  simp [State.readReg, State.view, s.present_outside, ID_PLACE, ID_DIE, ID_VER]

theorem State.readReg_idTwin (s : State) : s.readReg ID_TWIN = s.rd ID_TWIN / 256 * 256 + twinIndex s.place := by
  simp [State.readReg, State.view, s.present_outside, ID_TWIN, ID_DIE, ID_VER, ID_PLACE]

theorem State.readReg_idCaps (s : State) : s.readReg ID_CAPS = idCaps s.place := by
  simp [State.readReg, State.view, s.present_outside, ID_CAPS, ID_DIE, ID_VER, ID_PLACE, ID_TWIN]

theorem twinIndex_lt {i : Nat} (h : i < 114) : twinIndex i < 256 := by
  unfold twinIndex; split <;> omega

end Sys2Proof.Machine

namespace Sys2Proof

open Machine

/-- An instance at one of the 114 places of R15 shows it, whatever else its state is. -/
theorem identityOf_place {s : State} (h : s.place < 114) : IdentityOf s.place s := by
  refine ⟨rfl, s.readReg_idPlace, ?_, s.readReg_idCaps⟩
  have := twinIndex_lt h
  rw [s.readReg_idTwin]
  omega

/-- Settles O3: the identity registers follow the place (`identityOf_place`), and no step changes it (`step_next`). -/
theorem identityNeverChanges : Obligations.IdentityNeverChanges := by
  unfold Obligations.IdentityNeverChanges
  intro i s hi identity
  obtain ⟨t, answer, place, queue⟩ := step_next s
  obtain rfl : t.place = i := place.trans identity.place
  exact ⟨t, answer, identityOf_place hi, queue⟩

/-- Settles O4: the state after reset stands at place 14. -/
theorem resetHasItsIdentity : Obligations.ResetHasItsIdentity := identityOf_place (s := State.reset) (by decide)

end Sys2Proof
end

section
/-! SUPPORT. Loss of signal on a lane outside the map, a dip of the supply, and what the pair partner learned (R18, R50, R271, R277). -/

namespace Sys2Proof.Machine

/-! ### What noting a verdict leaves as it was -/

/-- `t` keeps the place, the link's state and the plain words outside `l` of `s`. -/
structure NotedOnly (l : List Nat) (s t : State) : Prop where
  rd : PlainKept l s t
  lnk : t.lnk = s.lnk
  place : t.place = s.place

theorem NotedOnly.refl (l : List Nat) (s : State) : NotedOnly l s s := ⟨fun _ _ _ => rfl, rfl, rfl⟩

theorem NotedOnly.trans {l : List Nat} {s t u : State} (h : NotedOnly l s t) (k : NotedOnly l t u) : NotedOnly l s u :=
  ⟨fun off plain out => (k.rd off plain out).trans (h.rd off plain out), k.lnk.trans h.lnk, k.place.trans h.place⟩

theorem State.setF_notedOnly (s : State) {l : List Nat} {f : Fld} (h : f.off ∈ l) (n : Nat) : NotedOnly l s (s.setF f n) :=
  ⟨fun _ _ out => State.rd_setF_ne s f n (fun e => out (e ▸ h)), rfl, rfl⟩

theorem State.count_notedOnly (s : State) (l : List Nat) {c : Cnt} (hc : 0x5000 ≤ c.off ∧ c.off < 0x57FC) (n : Nat) : NotedOnly l s (s.count c n) :=
  ⟨fun _ plain _ => State.rd_count s c n hc plain, s.count_lnk c n, s.count_place c n⟩

theorem State.raise_notedOnly (s : State) (l : List Nat) (code : Nat) : NotedOnly l s (s.raise code) :=
  ⟨fun _ plain _ => State.rd_raise s code plain, s.raise_lnk code, s.raise_place code⟩

/-- The record queue and what an epoch counts are neither registers nor the link's. -/
theorem State.age_notedOnly (s : State) (l : List Nat) (a : Age) : NotedOnly l s { s with age := a } := ⟨fun _ _ _ => rfl, rfl, rfl⟩

/-- A record that finds no room marks `AGE_LQ` (R290). -/
theorem State.queueRecord_notedOnly (s : State) {l : List Nat} (h : AGE_LQ ∈ l) (ty : Nat) (d : List Byte) : NotedOnly l s (s.queueRecord ty d) := by
  unfold State.queueRecord
  dsimp only
  split
  · exact State.age_notedOnly s l _
  · have full := State.setF_notedOnly (s.takeIseq.count CNT_LQ_LOST) (f := AGE_LQ_FULL) h 1
    exact ((s.age_notedOnly l _).trans (State.count_notedOnly _ l (by decide) 1)).trans (full.trans (State.raise_notedOnly _ l _))

/-- A verdict is counted (R277). -/
def State.countVerdict (s : State) (new : Nat) : State := if new = 3 then s.count CNT_LANE_RETIRE else if new = 2 then s.count CNT_PROBATION else s

/-- The epoch in progress counts a change of verdict. -/
def State.epochVerdict (s : State) : State :=
  if s.getB AGE_STATUS_ACTIVE then { s with age := { s.age with nVerdict := s.age.nVerdict + 1 } } else s

theorem State.countVerdict_notedOnly (s : State) (l : List Nat) (new : Nat) : NotedOnly l s (s.countVerdict new) := by
  unfold State.countVerdict
  split
  · exact s.count_notedOnly l (by decide) 1
  · split
    · exact s.count_notedOnly l (by decide) 1
    · exact NotedOnly.refl l s

theorem State.epochVerdict_notedOnly (s : State) (l : List Nat) : NotedOnly l s s.epochVerdict := by
  unfold State.epochVerdict
  split
  · exact s.age_notedOnly l _
  · exact NotedOnly.refl l s

/-- A new verdict of a lane: it is written, counted and recorded (R277). -/
theorem State.setVerdict_new (s : State) {l new : Nat} (why : Nat) (other : s.getF (AGE_LANE_STAT_VERDICT l) ≠ new) (has : s.lanes.contains l = true) :
    s.setVerdict l new why = (((s.setF (AGE_LANE_STAT_VERDICT l) new).setF (AGE_LANE_STAT_WHY l) why).countVerdict new).epochVerdict.recLane l
      (s.getF (AGE_LANE_STAT_VERDICT l)) new why := by
  unfold State.setVerdict
  rw [if_neg (by simpa [other] using has)]
  rfl

/-- What follows the write of a new verdict marks, of the plain words, `AGE_LQ` at most. -/
theorem State.recordVerdict_notedOnly (s : State) {ws : List Nat} (h : AGE_LQ ∈ ws) (l old new why : Nat) :
    NotedOnly ws s ((s.countVerdict new).epochVerdict.recLane l old new why) :=
  ((s.countVerdict_notedOnly _ new).trans (State.epochVerdict_notedOnly _ _)).trans (State.queueRecord_notedOnly _ h _ _)

/-- A new verdict changes, of the plain words, the lane's and `AGE_LQ` alone. -/
theorem State.setVerdict_notedOnly (s : State) {l new : Nat} (why : Nat) (other : s.getF (AGE_LANE_STAT_VERDICT l) ≠ new)
    (has : s.lanes.contains l = true) : NotedOnly [AGE_LANE_STAT l, AGE_LQ] s (s.setVerdict l new why) := by
  rw [s.setVerdict_new why other has]
  have verdict := s.setF_notedOnly (l := [AGE_LANE_STAT l, AGE_LQ]) (f := AGE_LANE_STAT_VERDICT l) (by simp [AGE_LANE_STAT, AGE_LANE_STAT_VERDICT]) new
  have why := State.setF_notedOnly (s.setF (AGE_LANE_STAT_VERDICT l) new) (l := [AGE_LANE_STAT l, AGE_LQ]) (f := AGE_LANE_STAT_WHY l)
    (by simp [AGE_LANE_STAT, AGE_LANE_STAT_WHY]) why
  exact (verdict.trans why).trans (State.recordVerdict_notedOnly _ (by simp) l _ new _)

theorem State.setVerdict_verdict (s : State) {l new : Nat} (why : Nat) (other : s.getF (AGE_LANE_STAT_VERDICT l) ≠ new) (has : s.lanes.contains l = true)
    (low : l < 18) (fits : new < 16) : (s.setVerdict l new why).getF (AGE_LANE_STAT_VERDICT l) = new := by
  rw [s.setVerdict_new why other has, State.getF_of_rd (s := (s.setF (AGE_LANE_STAT_VERDICT l) new).setF (AGE_LANE_STAT_WHY l) why)]
  · rw [State.getF_setF_ne _ _ _ (by simp [AGE_LANE_STAT_WHY]) _ (by simp [AGE_LANE_STAT_WHY, AGE_LANE_STAT_VERDICT]),
      State.getF_setF _ _ (by simp [AGE_LANE_STAT_VERDICT])]
    exact Nat.mod_eq_of_lt fits
  · refine (State.recordVerdict_notedOnly _ (List.mem_singleton_self AGE_LQ) l _ new why).rd _ (.inl ?_) ?_
    · simp only [AGE_LANE_STAT_VERDICT]; omega
    · simp only [AGE_LANE_STAT_VERDICT, AGE_LQ, List.mem_singleton]; omega

/-! ### Exclusion, R121 -/

theorem State.exclude_words (s : State) (mask : Nat) : WordsKept [LINK_EXCL, LINK_STATUS] s (s.exclude mask) := by
  intro off out
  obtain ⟨excl, status⟩ : off ≠ LINK_EXCL ∧ off ≠ LINK_STATUS := by simpa using out
  exact (State.rd_setF_ne _ _ _ status).trans (State.rd_setF_ne s _ _ excl)

theorem State.exclude_excl (s : State) (mask : Nat) : (s.exclude mask).excl = (s.excl ||| mask) % 2 ^ 18 := by
  unfold State.exclude State.excl State.refree
  rw [State.getF_setF_ne _ _ _ (by decide) _ (.inl (by decide)), State.getF_setF _ _ (by decide)]
  rfl

/-- The exclusion of lanes changes, in the word of the link's state, `FREE` alone. -/
theorem State.exclude_status (s : State) (mask : Nat) {f : Fld} (word : f.off = LINK_STATUS)
    (apart : f.lo + f.w ≤ LINK_STATUS_FREE.lo ∨ LINK_STATUS_FREE.lo + LINK_STATUS_FREE.w ≤ f.lo) : (s.exclude mask).getF f = s.getF f := by
  unfold State.exclude State.refree
  rw [State.getF_setF_ne _ _ _ (by decide) _ (.inr apart), State.getF_setF_ne _ _ _ (by decide) _ (.inl (by rw [word]; decide))]

/-- The map follows its three words. -/
theorem State.mapList_of_rd {s t : State} (h : ∀ off ∈ [0x410, 0x414, 0x418], t.rd off = s.rd off) : t.mapList = s.mapList := by
  unfold State.mapList
  congr 1
  refine List.map_congr_left (fun p hp => State.getF_of_rd _ (h _ ?_))
  have := List.mem_range.1 hp
  simp only [LINK_MAP_POS, List.mem_cons, List.not_mem_nil, or_false]
  omega

/-! ### Probation of a lane outside the map, R277 -/

/-- A lane outside the map goes to Probation while nothing is in preparation and no sweep runs: its verdict is noted, and it is excluded. -/
theorem State.probation_idle (s : State) {l : Nat} (why : Nat) (good : s.getF (AGE_LANE_STAT_VERDICT l) < 2) (has : s.lanes.contains l = true)
    (out : s.mapList.contains l = false) (still : s.age.sweep = none) (idle : s.lnk.repair = none) :
    s.probation l why = (s.setVerdict l 2 why).exclude (2 ^ l) := by
  have noted := s.setVerdict_notedOnly (l := l) (new := 2) why (by omega) has
  have map : (s.setVerdict l 2 why).mapList = s.mapList := State.mapList_of_rd (fun off ho => noted.rd off (.inl ?_) ?_)
  · unfold State.probation
    rw [if_neg (by omega), still]
    simp only [Option.map_none, reduceCtorEq, beq_iff_eq, ↓reduceIte, map, out, Bool.false_eq_true]
    unfold State.loseLane
    rw [noted.lnk, idle]
  · simp only [List.mem_cons, List.not_mem_nil, or_false] at ho; omega
  · simp only [List.mem_cons, List.not_mem_nil, or_false, AGE_LANE_STAT, AGE_LQ] at ho ⊢; omega

/-- A lane that has lost its place already is left as it is. -/
theorem State.probation_bad (s : State) {l : Nat} (why : Nat) (bad : 2 ≤ s.getF (AGE_LANE_STAT_VERDICT l)) : s.probation l why = s := if_pos bad

theorem bitOf_eq_testBit (v i : Nat) : bitOf v i = v.testBit i := by
  rw [Nat.testBit_eq_decide_div_mod_eq]; rfl

/-- The excluded lane stands in the exclusion set. -/
theorem State.exclude_bit (s : State) {l : Nat} (low : l < 18) : bitOf (s.exclude (2 ^ l)).excl l = true := by
  rw [s.exclude_excl, bitOf_eq_testBit, Nat.testBit_mod_two_pow, Nat.testBit_or, Nat.testBit_two_pow_self]
  simp [low]

/-- A lane's way to Probation changes, of the plain words, those of its verdict, of the exclusions and of the link's state, and `AGE_LQ`. -/
theorem State.probation_idle_words (s : State) {l : Nat} (why : Nat) (good : s.getF (AGE_LANE_STAT_VERDICT l) < 2) (has : s.lanes.contains l = true)
    (out : s.mapList.contains l = false) (still : s.age.sweep = none) (idle : s.lnk.repair = none) :
    PlainKept [AGE_LANE_STAT l, AGE_LQ, LINK_EXCL, LINK_STATUS] s (s.probation l why) := by
  intro off plain other
  obtain ⟨verdict, queue, excl, status⟩ : off ≠ AGE_LANE_STAT l ∧ off ≠ AGE_LQ ∧ off ≠ LINK_EXCL ∧ off ≠ LINK_STATUS := by simpa using other
  rw [s.probation_idle why good has out still idle, State.exclude_words _ _ off (by simp [excl, status])]
  exact (s.setVerdict_notedOnly why (by omega) has).rd off plain (by simp [verdict, queue])

theorem State.probation_idle_verdict (s : State) {l : Nat} (why : Nat) (good : s.getF (AGE_LANE_STAT_VERDICT l) < 2) (has : s.lanes.contains l = true)
    (out : s.mapList.contains l = false) (still : s.age.sweep = none) (idle : s.lnk.repair = none) (low : l < 18) :
    (s.probation l why).getF (AGE_LANE_STAT_VERDICT l) = 2 := by
  rw [s.probation_idle why good has out still idle]
  refine (State.getF_of_rd _ (State.exclude_words _ _ _ ?_)).trans (s.setVerdict_verdict why (by omega) has low (by decide))
  simp only [AGE_LANE_STAT_VERDICT, LINK_EXCL, LINK_STATUS, List.mem_cons, List.not_mem_nil, or_false]
  omega

theorem State.probation_idle_link (s : State) {l : Nat} (why : Nat) (good : s.getF (AGE_LANE_STAT_VERDICT l) < 2) (has : s.lanes.contains l = true)
    (out : s.mapList.contains l = false) (still : s.age.sweep = none) (idle : s.lnk.repair = none) : (s.probation l why).link = s.link := by
  rw [s.probation_idle why good has out still idle]
  refine (State.exclude_status _ _ rfl (.inr (by decide))).trans (State.getF_of_rd _ ((s.setVerdict_notedOnly why (by omega) has).rd _ (.inl (by decide)) ?_))
  simp only [LINK_STATUS_STATE, AGE_LANE_STAT, AGE_LQ, List.mem_cons, List.not_mem_nil, or_false]
  omega

/-! ### Loss of signal, R50 -/

/-- The words of a lane lie below those of its verdict and beside those of the link. -/
theorem laneStatus_apart {l : Nat} (low : l < 18) : LANE_STATUS l < 0x1000 ∧ LINK_STATUS < LANE_STATUS l ∧ 0x418 < LANE_STATUS l := by
  simp only [LANE_STATUS, LINK_STATUS]; omega

theorem State.setLos_words (s : State) (l : Nat) (lost : Bool) : WordsKept [LANE_STATUS l] s (s.setB (LANE_STATUS_LOS l) lost) :=
  fun _ out => State.rd_setB_ne s _ _ (by simpa [LANE_STATUS, LANE_STATUS_LOS] using out)

theorem State.setLos_shows (s : State) (l : Nat) (lost : Bool) : (s.setB (LANE_STATUS_LOS l) lost).getB (LANE_STATUS_LOS l) = lost :=
  State.getB_setB s _ (by simp [LANE_STATUS_LOS]) rfl lost

theorem State.setLos_laneState (s : State) (l : Nat) (lost : Bool) : (s.setB (LANE_STATUS_LOS l) lost).laneState l = s.laneState l :=
  State.getF_setF_ne s _ _ (by simp [LANE_STATUS_LOS]) _ (.inr (.inl (by simp [LANE_STATUS_STATE, LANE_STATUS_LOS])))

theorem State.setLos_verdict (s : State) {l : Nat} (low : l < 18) (lost : Bool) :
    (s.setB (LANE_STATUS_LOS l) lost).getF (AGE_LANE_STAT_VERDICT l) = s.getF (AGE_LANE_STAT_VERDICT l) := by
  refine State.getF_of_rd _ (s.setLos_words l lost _ ?_)
  have := laneStatus_apart low
  simp only [AGE_LANE_STAT_VERDICT, List.mem_singleton]
  omega

theorem execLossOfSignal_seen (s : State) (l : Fin 18) (lost : Bool) (far : s.far = true) (has : s.lanes.contains l.val = true) :
    exec (.lossOfSignal l lost) s =
      done s (if lost then (s.setB (LANE_STATUS_LOS l) lost).probation l 5 else s.setB (LANE_STATUS_LOS l) lost) := by
  refine congrArg (done s) (if_neg ?_)
  simp [far, -List.contains_eq_mem, has]

end Sys2Proof.Machine

namespace Sys2Proof

open Machine

/-- The end of a loss, and a loss on a lane that has lost its place already, are shown and do nothing else. -/
theorem lossOfSignal_shown (s : State) (l : Fin 18) (lost : Bool) (far : s.far = true) (has : s.lanes.contains l.val = true)
    (ends : lost = false ∨ 2 ≤ s.getF (AGE_LANE_STAT_VERDICT l)) :
    exec (.lossOfSignal l lost) s = .next (s.setB (LANE_STATUS_LOS l) lost) := by
  have shown : (if lost then (s.setB (LANE_STATUS_LOS l) lost).probation l 5 else s.setB (LANE_STATUS_LOS l) lost) = s.setB (LANE_STATUS_LOS l) lost := by
    split
    next loss =>
      exact State.probation_bad _ 5 ((s.setLos_verdict l.isLt lost).symm ▸ ends.resolve_left (by simp [loss]))
    next => rfl
  rw [execLossOfSignal_seen s l lost far has, shown]
  exact done_eq_next rfl rfl

/-- A loss on a good lane outside the map brings it to Probation. -/
theorem lossOfSignal_probation (s : State) (l : Fin 18) (far : s.far = true) (has : s.lanes.contains l.val = true)
    (good : s.getF (AGE_LANE_STAT_VERDICT l) < 2) (out : s.mapList.contains l.val = false) (still : s.age.sweep = none) (idle : s.lnk.repair = none) :
    ∃ t, exec (.lossOfSignal l true) s = .next t ∧ t.getB (LANE_STATUS_LOS l) = true ∧ t.getF (AGE_LANE_STAT_VERDICT l) = 2
      ∧ bitOf t.excl l = true ∧ t.link = s.link ∧ t.mapList = s.mapList := by
  have apart := laneStatus_apart l.isLt
  have words := s.setLos_words l true
  have shows := s.setLos_shows l true
  have verdict := s.setLos_verdict l.isLt true
  have map : (s.setB (LANE_STATUS_LOS l) true).mapList = s.mapList := State.mapList_of_rd (fun off ho => words off (by
    simp only [List.mem_cons, List.not_mem_nil, or_false] at ho ⊢; omega))
  have link : (s.setB (LANE_STATUS_LOS l) true).link = s.link := State.getF_of_rd _ (words _ (List.mem_singleton.not.2 apart.2.1.ne))
  rw [execLossOfSignal_seen s l true far has, if_pos rfl]
  change ∃ t, done s ((s.setB (LANE_STATUS_LOS l) true).probation l 5) = .next t ∧ _
  have has' : (s.setB (LANE_STATUS_LOS l) true).lanes.contains l.val = true := has
  have still' : (s.setB (LANE_STATUS_LOS l) true).age.sweep = none := still
  have idle' : (s.setB (LANE_STATUS_LOS l) true).lnk.repair = none := idle
  generalize s.setB (LANE_STATUS_LOS l) true = u at *
  rw [← verdict] at good
  rw [← map] at out
  have kept := u.probation_idle_words 5 good has' out still' idle'
  refine ⟨_, rfl, ?_, u.probation_idle_verdict 5 good has' out still' idle' l.isLt, ?_, ?_, ?_⟩
  · refine (State.getB_of_rd _ (kept _ (.inl ?_) ?_)).trans shows
    all_goals
      simp only [LANE_STATUS_LOS, LANE_STATUS, AGE_LANE_STAT, AGE_LQ, LINK_EXCL, LINK_STATUS, List.mem_cons, List.not_mem_nil, or_false] at apart ⊢
      omega
  · rw [u.probation_idle 5 good has' out still' idle']
    exact u.setVerdict l 2 5 |>.exclude_bit l.isLt
  · exact (u.probation_idle_link 5 good has' out still' idle').trans link
  · refine (State.mapList_of_rd (fun off ho => kept off (.inl ?_) ?_)).trans map
    all_goals
      simp only [AGE_LANE_STAT, AGE_LQ, LINK_EXCL, LINK_STATUS, List.mem_cons, List.not_mem_nil, or_false] at ho ⊢
      omega

/-- A rise of a counter changes its word, and what its source keeps while the management clock stands. -/
theorem onlyRegs_count (s : State) (c : Cnt) (n : Nat) (narrow : c.w = 32) : OnlyRegs [c.off] s (s.count c n) := by
  refine ⟨?_, fun off out => State.rd_count_narrow s c n narrow (by simpa using out), fun runs => ?_⟩
  · unfold State.count State.keepOver
    dsimp only
    split <;> split <;> rfl
  · rw [State.count_eventOnly runs c n]

theorem supplyDroop_counted (s : State) : ∃ t, exec .supplyDroop s = .next t ∧ counted CNT_DROOP 1 s t ∧ OnlyRegs [CNT_DROOP.off] s t :=
  ⟨_, done_eq_next (s.count_pending _ _) (s.count_place _ _), State.cnt_count s CNT_DROOP 1 rfl, onlyRegs_count s CNT_DROOP 1 rfl⟩

/-- Outside Up, Shift, Retrain and Hold what the pair partner learned is kept, and nothing is tested with it (R18). -/
theorem pairPartnerUpdate_kept (s : State) (pod : BitVec 9) (port : BitVec 6) (passed : Bool) (far : s.far = true) (outside : ¬(4 ≤ s.link ∧ s.link ≤ 7)) :
    exec (.pairPartnerUpdate pod port passed) s = .next { s with lnk := { s.lnk with partner := some (pod.toNat, port.toNat, passed) } } := by
  change _ = done s { s with lnk := { s.lnk with partner := some (pod.toNat, port.toNat, passed) } }
  exact congrArg (done s) ((if_neg (by simp [far])).trans (if_neg (fun up => outside (of_decide_eq_true up))))

/-- Settles O15: a rise of one counter, `State.probation` on a lane that has lost its place already or that nothing holds, and one field of the link. -/
theorem sensorsAndPartners : Obligations.SensorsAndPartners := by
  unfold Obligations.SensorsAndPartners
  intro s
  refine ⟨supplyDroop_counted s, fun far l lost has => ⟨fun ends => ?_, fun loss good out still idle => ?_⟩,
    fun far pod port passed outside => pairPartnerUpdate_kept s pod port passed far outside⟩
  · exact ⟨_, lossOfSignal_shown s l lost far has ends, s.setLos_shows l lost, s.setLos_laneState l lost, rfl, s.setLos_words l lost, fun _ => rfl⟩
  · subst loss
    exact lossOfSignal_probation s l far has good out still idle

end Sys2Proof
end

section
/-! SUPPORT. THE REFUTATION OF O45: A REPEAT AT AN EMPTY SITE THAT HOLDS A LANE IT DOES NOT HAVE.
An empty site looks at no lanes any more (R19), so that `Lnk.seen` stays as it was, whatever it was. -/

namespace Sys2Proof.Machine

/-- With no message without an answer nothing is sent again. -/
theorem State.resend_none {s : State} (noMsgs : s.lnk.msgs = []) : s.resend = s := by
  unfold State.resend
  simp only [noMsgs, List.map_nil, List.foldl_nil]
  rw [← noMsgs]

/-- A repeat at an empty site with no message without an answer changes nothing (R19, R112). -/
theorem trainingRepeat_emptySite {s : State} (noMsgs : s.lnk.msgs = []) (empty : s.getB LINK_STATUS_EMPTY = true) :
    exec .trainingRepeat s = .next s := by
  change _ = done s s
  refine congrArg (done s) ((if_neg (by simp [noMsgs])).trans ?_)
  rw [if_neg (by simp [empty]), State.resend_none noMsgs]

/-- Instance B2E0 in Detect at a site found empty, with no message to repeat, that holds lane 18 as seen. No run reaches this state: what an instance
sees is kept within its lanes, here 0 to 17. -/
def emptySiteLane18 : State :=
  let s := (State.resetAt 14).setFs [(LINK_STATUS_STATE, 1), (LINK_STATUS_EMPTY, 1)]
  { s with lnk := { s.lnk with seen := 2 ^ 18 } }

theorem emptySiteLane18_detects : emptySiteLane18.link = 1 ∧ emptySiteLane18.detected = false ∧ emptySiteLane18.getB LINK_STATUS_EMPTY = true := by
  decide +kernel

theorem emptySiteLane18_masked : emptySiteLane18.lnk.seen &&& maskOf emptySiteLane18.lanes = 0 := by decide +kernel

end Sys2Proof.Machine

namespace Sys2Proof

open Machine

/-- Refutes O45: after a repeat in Detect the lanes seen need not be lanes of the instance. In `emptySiteLane18` the site is empty, so that the repeat
looks at no lanes, and `Lnk.seen` still holds a lane that the instance does not have. The statement asks neither that the site be not empty nor that
the lanes seen be lanes of the instance. -/
theorem not_linksAreNegotiated : ¬ Obligations.LinksAreNegotiated := by
  intro h
  obtain ⟨-, -, -, repeats, -⟩ := h emptySiteLane18
  obtain ⟨link, searching, empty⟩ := emptySiteLane18_detects
  obtain ⟨-, looks⟩ := repeats (fun _ message => absurd message List.not_mem_nil)
  obtain ⟨t, step, within, -⟩ := looks link searching
  rw [trainingRepeat_emptySite rfl empty] at step
  obtain rfl := Host.Outcome.next.inj step
  rw [emptySiteLane18_masked] at within
  exact absurd within (by decide)

end Sys2Proof
end

section
/-! SUPPORT. Fields of a word written one after another, and the lemmas of lanes' equalisation and patterns (R43, R44, R52, R341). -/

namespace Sys2Proof.Machine

/-! ### Fields written one after another -/

/-- A field beside the one written, in the same word or not, reads as before. -/
theorem State.getF_setF_beside (s : State) {f g : Fld} (n : Nat) (fits : f.lo + f.w ≤ 32) (beside : g.lo + g.w ≤ f.lo ∨ f.lo + f.w ≤ g.lo) :
    (s.setF f n).getF g = s.getF g := State.getF_setF_ne s f g fits n (.inr beside)

/-- A flag beside the field written reads as before. -/
theorem State.getB_setF_beside (s : State) {f g : Fld} (n : Nat) (fits : f.lo + f.w ≤ 32) (beside : g.lo + g.w ≤ f.lo ∨ f.lo + f.w ≤ g.lo) :
    (s.setF f n).getB g = s.getB g := congrArg (· != 0) (s.getF_setF_beside n fits beside)

/-- A field beside the flag written reads as before. -/
theorem State.getF_setB_beside (s : State) {f g : Fld} (b : Bool) (fits : f.lo + f.w ≤ 32) (beside : g.lo + g.w ≤ f.lo ∨ f.lo + f.w ≤ g.lo) :
    (s.setB f b).getF g = s.getF g := s.getF_setF_beside _ fits beside

/-- A flag beside the flag written reads as before. -/
theorem State.getB_setB_beside (s : State) {f g : Fld} (b : Bool) (fits : f.lo + f.w ≤ 32) (beside : g.lo + g.w ≤ f.lo ∨ f.lo + f.w ≤ g.lo) :
    (s.setB f b).getB g = s.getB g := s.getB_setF_beside _ fits beside

/-- A field of another word reads as before. -/
theorem State.getF_setF_apart (s : State) {f g : Fld} (n : Nat) (apart : g.off ≠ f.off) : (s.setF f n).getF g = s.getF g :=
  State.getF_of_rd g (State.rd_setF_ne s f n apart)

/-- A flag of another word reads as before. -/
theorem State.getB_setF_apart (s : State) {f g : Fld} (n : Nat) (apart : g.off ≠ f.off) : (s.setF f n).getB g = s.getB g :=
  State.getB_of_rd g (State.rd_setF_ne s f n apart)

/-- A field that counts goes up by what is counted, and holds at all ones. -/
theorem State.getF_bump (s : State) {f : Fld} (n : Nat) (fits : f.lo + f.w ≤ 32) : (s.bump f n).getF f = min (2 ^ f.w - 1) (s.getF f + n) := by
  have := Nat.one_le_two_pow (n := f.w)
  exact (State.getF_setF s f fits _).trans (Nat.mod_eq_of_lt (by omega))

theorem bitsOf_mod (v lo w : Nat) : bitsOf v lo w % 2 ^ w = bitsOf v lo w := Nat.mod_mod _ _

end Sys2Proof.Machine

namespace Sys2Proof

open Machine

theorem OnlyRegs.refl (l : List Nat) (s : State) : OnlyRegs l s s := ⟨rfl, fun _ _ => rfl, fun _ => rfl⟩

theorem OnlyRegs.trans {l : List Nat} {s t u : State} (h : OnlyRegs l s t) (k : OnlyRegs l t u) : OnlyRegs l s u := by
  obtain ⟨hs, hw, hb⟩ := h
  obtain ⟨ks, kw, kb⟩ := k
  have isl : t.isl = s.isl := by rw [hs]
  exact ⟨by rw [ks, hs], fun off out => (kw off out).trans (hw off out), fun runs => (kb (by rw [isl, runs])).trans (hb runs)⟩

theorem OnlyRegs.mono {l m : List Nat} {s t : State} (h : OnlyRegs l s t) (sub : l ⊆ m) : OnlyRegs m s t :=
  ⟨h.1, fun off out => h.2.1 off (fun i => out (sub i)), h.2.2⟩

theorem onlyRegs_setF (s : State) {f : Fld} {l : List Nat} (h : f.off ∈ l) (n : Nat) : OnlyRegs l s (s.setF f n) :=
  ⟨rfl, fun _ out => State.rd_setF_ne s f n (fun e => out (e ▸ h)), fun _ => rfl⟩

theorem onlyRegs_setFs (s : State) (fs : List (Fld × Nat)) {l : List Nat} (h : ∀ p ∈ fs, p.1.off ∈ l) : OnlyRegs l s (s.setFs fs) := by
  induction fs generalizing s with
  | nil => exact OnlyRegs.refl l s
  | cons p fs ih =>
    exact (onlyRegs_setF s (h p List.mem_cons_self) p.2).trans (ih (s.setF p.1 p.2) (fun q hq => h q (List.mem_cons_of_mem _ hq)))

/-- What changes registers alone leaves queue and place, so that a command that does so ends in that state. -/
theorem OnlyRegs.done {l : List Nat} {s t : State} (h : OnlyRegs l s t) : done s t = .next t :=
  done_eq_next (by rw [h.1]) (by rw [h.1])

/-! ### Transmit and receive values, R43 -/

theorem onlyRegs_applyTx (s : State) (l v : Nat) : OnlyRegs [LANE_TXEQ l] s (s.applyTx l v) :=
  onlyRegs_setFs s _ (by simp [LANE_TXEQ, LANE_TXEQ_SWING, LANE_TXEQ_PRE2, LANE_TXEQ_PRE1, LANE_TXEQ_POST1, LANE_TXEQ_MAIN])

theorem onlyRegs_applyRx (s : State) (l v : Nat) : OnlyRegs [LANE_RXEQ l] s (s.applyRx l v) :=
  onlyRegs_setFs s _ (by simp [LANE_RXEQ, LANE_RXEQ_VGA, LANE_RXEQ_CTLE])

end Sys2Proof

namespace Sys2Proof.Machine

/-- The transmit codes of a lane's word are its four fields. -/
theorem State.txCodes_eq (s : State) (l : Nat) : eqOfWord (s.rd (LANE_TXEQ l)) =
    (s.getF (LANE_TXEQ_SWING l), s.getF (LANE_TXEQ_PRE2 l), s.getF (LANE_TXEQ_PRE1 l), s.getF (LANE_TXEQ_POST1 l)) := rfl

/-- The transmit codes of a lane are those applied last. -/
theorem State.applyTx_codes (s : State) (l v : Nat) : eqOfWord ((s.applyTx l v).rd (LANE_TXEQ l)) = eqOfWord v := by
  rw [State.txCodes_eq]
  simp (disch := exact of_decide_eq_true rfl) only [State.applyTx, State.setFs, List.foldl_cons, List.foldl_nil, State.getF_setF, State.getF_setF_beside]
  simp only [eqOfWord, LANE_TXEQ_SWING, LANE_TXEQ_PRE2, LANE_TXEQ_PRE1, LANE_TXEQ_POST1, bitsOf_mod]

/-- The main cursor is what the three taps leave. -/
theorem State.applyTx_main (s : State) (l v : Nat) : (s.applyTx l v).getF (LANE_TXEQ_MAIN l)
    = mainCursor (eqOfWord v).2.1 (eqOfWord v).2.2.1 (eqOfWord v).2.2.2 := by
  simp (disch := exact of_decide_eq_true rfl) only [State.applyTx, State.setFs, List.foldl_cons, List.foldl_nil, State.getF_setF]
  refine Nat.mod_eq_of_lt ?_
  simp only [mainCursor, LANE_TXEQ_MAIN]
  omega

theorem State.applyRx_ctle (s : State) (l v : Nat) : (s.applyRx l v).getF (LANE_RXEQ_CTLE l) = v % 16 := by
  simp (disch := exact of_decide_eq_true rfl) only [State.applyRx, State.setFs, List.foldl_cons, List.foldl_nil, State.getF_setF]
  simp [LANE_RXEQ_CTLE, bitsOf]

theorem State.applyRx_vga (s : State) (l v : Nat) : (s.applyRx l v).getF (LANE_RXEQ_VGA l) = v / 256 % 32 := by
  simp (disch := exact of_decide_eq_true rfl) only [State.applyRx, State.setFs, List.foldl_cons, List.foldl_nil, State.getF_setF, State.getF_setF_beside]
  simp [LANE_RXEQ_VGA, bitsOf]

@[simp] theorem State.applyTx_pending (s : State) (l v : Nat) : (s.applyTx l v).pending = s.pending := State.setFs_pending s _
@[simp] theorem State.applyTx_place (s : State) (l v : Nat) : (s.applyTx l v).place = s.place := State.setFs_place s _
@[simp] theorem State.applyTx_age (s : State) (l v : Nat) : (s.applyTx l v).age = s.age := State.setFs_age s _
@[simp] theorem State.applyRx_age (s : State) (l v : Nat) : (s.applyRx l v).age = s.age := State.setFs_age s _

/-! ### When written values take effect, R43 and R44 -/

theorem State.sweepBusy_still {s : State} (still : s.age.sweep = none) (l : Nat) : s.sweepBusy l = false := by
  unfold State.sweepBusy; rw [still]

theorem State.sweepRestart_still {s : State} (still : s.age.sweep = none) (l : Nat) : s.sweepRestart l = s := by
  unfold State.sweepRestart; rw [still]

/-- While no sweep runs, values wait on an Active lane alone. -/
theorem State.eqWaits_still {s : State} (still : s.age.sweep = none) (l : Nat) : s.eqWaits l = (s.laneState l == 3) := by
  unfold State.eqWaits; rw [State.sweepBusy_still still, Bool.or_false]; rfl

/-- On an Active lane values wait. -/
theorem State.eqWaits_active {s : State} {l : Nat} (active : s.laneState l = 3) : s.eqWaits l = true := by
  unfold State.eqWaits
  rw [show s.getF (LANE_STATUS_STATE l) = 3 from active]
  rfl

/-- The transmit codes of a word are ones that R43 allows. -/
def codesAllowed (v : Nat) : Bool :=
  eqAllowed (eqOfWord v).1 (eqOfWord v).2.1 (eqOfWord v).2.2.1 (eqOfWord v).2.2.2

theorem State.writeTx_forbidden {s : State} {l v : Nat}
    (bad : codesAllowed v = false) : s.writeTx l v = s.refused (LANE_TXEQ l) := by
  exact if_pos (congrArg not bad)

/-- Transmit values wait for a lane. -/
def State.addTx (t : State) (l v : Nat) : State :=
  { t with age := { t.age with pendTx := t.age.pendTx.filter (fun p => p.1 != l) ++ [(l, BitVec.ofNat 32 v)] } }

/-- Receive values wait for a lane. -/
def State.addRx (t : State) (l v : Nat) : State :=
  { t with age := { t.age with pendRx := t.age.pendRx.filter (fun p => p.1 != l) ++ [(l, BitVec.ofNat 32 v)] } }

@[simp] theorem State.addTx_pending (t : State) (l v : Nat) : (t.addTx l v).pending = t.pending := rfl
@[simp] theorem State.addTx_place (t : State) (l v : Nat) : (t.addTx l v).place = t.place := rfl
@[simp] theorem State.addRx_pending (t : State) (l v : Nat) : (t.addRx l v).pending = t.pending := rfl
@[simp] theorem State.addRx_place (t : State) (l v : Nat) : (t.addRx l v).place = t.place := rfl

theorem State.rd_addTx (t : State) (l v off : Nat) : (t.addTx l v).rd off = t.rd off := rfl

theorem State.rd_addRx (t : State) (l v off : Nat) : (t.addRx l v).rd off = t.rd off := rfl

theorem State.addTx_last (t : State) (l : Nat) (v : Word) : (t.addTx l v.toNat).age.pendTx.getLast? = some (l, v) := by
  simp [State.addTx]

theorem State.addRx_last (t : State) (l : Nat) (v : Word) : (t.addRx l v.toNat).age.pendRx.getLast? = some (l, v) := by
  simp [State.addRx]

theorem State.writeTx_active {s : State} {l v : Nat} (active : s.laneState l = 3)
    (ok : codesAllowed v = true) : s.writeTx l v = (s.setB (LANE_STATUS_TXEQ_PEND l) true).addTx l v := by
  rw [State.writeTx]
  exact (if_neg (ne_true_of_eq_false (congrArg not ok))).trans (if_pos (State.eqWaits_active active))

theorem State.writeTx_idle {s : State} {l v : Nat} (still : s.age.sweep = none) (idle : s.laneState l ≠ 3)
    (ok : codesAllowed v = true) : s.writeTx l v = s.applyTx l v := by
  have waits : s.eqWaits l = false := by rw [State.eqWaits_still still]; simpa using idle
  exact (if_neg (ne_true_of_eq_false (congrArg not ok))).trans ((if_neg (ne_true_of_eq_false waits)).trans
    (State.sweepRestart_still ((congrArg Age.sweep (s.applyTx_age l v)).trans still) l))

theorem State.writeRx_active {s : State} {l v : Nat} (active : s.laneState l = 3) : s.writeRx l v = (s.setB (LANE_RXEQ_RXEQ_PEND l) true).addRx l v :=
  if_pos (State.eqWaits_active active)

theorem State.writeRx_idle {s : State} {l v : Nat} (still : s.age.sweep = none) (idle : s.laneState l ≠ 3) : s.writeRx l v = s.applyRx l v := by
  have waits : s.eqWaits l = false := by rw [State.eqWaits_still still]; simpa using idle
  unfold State.writeRx
  simp only [waits, Bool.false_eq_true, ↓reduceIte]
  exact State.sweepRestart_still ((congrArg Age.sweep (s.applyRx_age l v)).trans still) l

/-! ### A value that waits takes effect, R44 -/

/-- The values that waited on a lane wait no longer. -/
def State.dropPending (s : State) (l : Nat) : State :=
  { s with age := { s.age with pendTx := s.age.pendTx.filter (fun p => p.1 != l), pendRx := s.age.pendRx.filter (fun p => p.1 != l) } }

@[simp] theorem State.dropPending_pending (s : State) (l : Nat) : (s.dropPending l).pending = s.pending := rfl
@[simp] theorem State.dropPending_place (s : State) (l : Nat) : (s.dropPending l).place = s.place := rfl
@[simp] theorem State.dropPending_sweep (s : State) (l : Nat) : (s.dropPending l).age.sweep = s.age.sweep := rfl

/-- The state in which the one value waiting on a lane, for its transmitter, has taken effect. -/
def State.tookTx (s : State) (l : Nat) (v : Word) : State := ((s.applyTx l v.toNat).setB (LANE_STATUS_TXEQ_PEND l) false).dropPending l

theorem State.applyPending_tx {s : State} {l : Nat} {v : Word} (tx : s.age.pendTx = [(l, v)]) (rx : s.age.pendRx = []) :
    s.applyPending l = s.tookTx l v := by
  have waits : s.age.pendTx.find? (fun p => p.1 == l) = some (l, v) := by simp [tx]
  have none_waits : ((s.applyTx l v.toNat).setB (LANE_STATUS_TXEQ_PEND l) false).age.pendRx.find? (fun p => p.1 == l) = none := by
    rw [State.setB_age, State.applyTx_age, rx]; rfl
  unfold State.applyPending State.tookTx
  rw [waits]
  dsimp only
  generalize (s.applyTx l v.toNat).setB (LANE_STATUS_TXEQ_PEND l) false = t at none_waits ⊢
  rw [none_waits]
  rfl

theorem State.rd_dropPending (s : State) (l off : Nat) : (s.dropPending l).rd off = s.rd off := rfl

theorem State.tookTx_pending (s : State) (l : Nat) (v : Word) : (s.tookTx l v).pending = s.pending := by
  rw [State.tookTx, State.dropPending_pending, State.setB_pending, State.applyTx_pending]

theorem State.tookTx_place (s : State) (l : Nat) (v : Word) : (s.tookTx l v).place = s.place := by
  rw [State.tookTx, State.dropPending_place, State.setB_place, State.applyTx_place]

theorem State.tookTx_sweep (s : State) (l : Nat) (v : Word) : (s.tookTx l v).age.sweep = s.age.sweep := by
  rw [State.tookTx, State.dropPending_sweep, State.setB_age, State.applyTx_age]

theorem State.tookTx_words (s : State) (l : Nat) (v : Word) : WordsKept [LANE_STATUS l, LANE_TXEQ l] s (s.tookTx l v) := by
  intro off out
  simp only [List.mem_cons, List.not_mem_nil, or_false, not_or] at out
  obtain ⟨status, txeq⟩ := out
  unfold State.tookTx
  rw [State.rd_dropPending, State.rd_setB_ne _ _ _ status]
  exact (onlyRegs_applyTx s l v.toNat).2.1 off (by simpa using txeq)

theorem State.tookTx_codes (s : State) (l : Nat) (v : Word) : eqOfWord ((s.tookTx l v).rd (LANE_TXEQ l)) = eqOfWord v.toNat := by
  unfold State.tookTx
  rw [State.rd_dropPending, State.rd_setB_ne _ _ _ (by simp only [LANE_TXEQ, LANE_STATUS_TXEQ_PEND]; omega), State.applyTx_codes]

theorem State.tookTx_shown (s : State) (l : Nat) (v : Word) : (s.tookTx l v).getB (LANE_STATUS_TXEQ_PEND l) = false := by
  unfold State.tookTx
  rw [State.getB_of_rd _ (State.rd_dropPending _ l _), State.getB_setB _ _ (of_decide_eq_true rfl) rfl]

theorem State.tookTx_none {s : State} {l : Nat} {v : Word} (tx : s.age.pendTx = [(l, v)]) : (s.tookTx l v).age.pendTx = [] := by
  have kept : ((s.applyTx l v.toNat).setB (LANE_STATUS_TXEQ_PEND l) false).age.pendTx = [(l, v)] := by
    rw [State.setB_age, State.applyTx_age, tx]
  unfold State.tookTx
  generalize (s.applyTx l v.toNat).setB (LANE_STATUS_TXEQ_PEND l) false = t at kept ⊢
  simp [State.dropPending, kept]

end Sys2Proof.Machine
end

section
namespace Sys2Proof.Machine

/-! ### The commands that write equalisation -/

theorem exec_laneTxeqWrite {s : State} (clocks : ClocksRun s) {l : Fin 18} (has : s.lanes.contains l.val = true) (v : Word) :
    exec (.laneTxeqWrite l v) s = done s (s.writeTx l v.toNat) :=
  congrArg (done s) ((if_pos has).trans (clocks.regCmd _ _ _))

theorem exec_laneRxeqWrite {s : State} (clocks : ClocksRun s) {l : Fin 18} (has : s.lanes.contains l.val = true) (v : Word) :
    exec (.laneRxeqWrite l v) s = done s (s.writeRx l v.toNat) :=
  congrArg (done s) ((if_pos has).trans (clocks.regCmd _ _ _))

/-- On an Active lane a value that waits does not take effect outside a QUI window or between group boundaries. -/
theorem exec_eqPendingApply_active {s : State} {l : Fin 18} (active : s.laneState l = 3) (closed : s.quiLeft s.tick = none ∨ s.lnk.fTx ≠ 0) :
    exec (.eqPendingApply l) s = .next s := by
  have waits : (!s.eqPending l || s.sweepBusy l || (s.laneState l == 3 && ((s.quiLeft s.tick).isNone || s.lnk.fTx != 0))) = true := by
    rcases closed with closed | closed <;> simp [active, closed]
  exact (congrArg (done s) (if_pos waits)).trans (done_eq_next rfl rfl)

/-- Elsewhere it takes effect. -/
theorem exec_eqPendingApply_takes {s : State} {l : Fin 18} (still : s.age.sweep = none) (pending : s.eqPending l = true)
    (opened : s.laneState l ≠ 3 ∨ ((s.quiLeft s.tick).isSome = true ∧ s.lnk.fTx = 0)) :
    exec (.eqPendingApply l) s = done s ((s.applyPending l).sweepRestart l) := by
  refine congrArg (done s) (if_neg ?_)
  rcases opened with idle | ⟨quiet, boundary⟩
  · simp [pending, State.sweepBusy_still still, idle]
  · simp [pending, State.sweepBusy_still still, Option.isSome_iff_ne_none.mp quiet, boundary]

theorem State.refused_kept (s : State) (off : Nat) : PlainKept [] s (s.refused off) := fun _ plain _ => State.rd_raiseD s 2 off false plain

theorem State.refused_last (s : State) (off : Nat) : (s.refused off).rd EVT_LAST = 2 := State.raiseD_last s (by decide) off false

theorem State.refused_done (s : State) (off : Nat) : done s (s.refused off) = .next (s.refused off) :=
  done_eq_next (State.raiseD_pending s 2 off false) (State.raiseD_place s 2 off false)

/-- On a lane that is not Active, what R43 allows is in force at once. -/
theorem laneTxeqWrite_idle {s : State} {l : Fin 18} {v : Word} (clocks : ClocksRun s) (has : s.lanes.contains l.val = true)
    (still : s.age.sweep = none) (ok : codesAllowed v.toNat = true)
    (idle : s.laneState l ≠ 3) : exec (.laneTxeqWrite l v) s = .next (s.applyTx l v.toNat) := by
  rw [exec_laneTxeqWrite clocks has, State.writeTx_idle still idle ok]
  exact (onlyRegs_applyTx s l v.toNat).done

/-- On an Active lane it waits. -/
theorem laneTxeqWrite_active {s : State} {l : Fin 18} {v : Word} (clocks : ClocksRun s) (has : s.lanes.contains l.val = true)
    (ok : codesAllowed v.toNat = true)
    (active : s.laneState l = 3) :
    exec (.laneTxeqWrite l v) s = .next ((s.setB (LANE_STATUS_TXEQ_PEND l) true).addTx l v.toNat) := by
  rw [exec_laneTxeqWrite clocks has, State.writeTx_active active ok]
  exact done_eq_next (by simp) (by simp)

theorem laneTxeqWrite_forbidden {s : State} {l : Fin 18} {v : Word} (clocks : ClocksRun s) (has : s.lanes.contains l.val = true)
    (bad : codesAllowed v.toNat = false) :
    exec (.laneTxeqWrite l v) s = .next (s.refused (LANE_TXEQ l)) := by
  rw [exec_laneTxeqWrite clocks has, State.writeTx_forbidden bad]
  exact State.refused_done s _

theorem laneRxeqWrite_idle {s : State} {l : Fin 18} {v : Word} (clocks : ClocksRun s) (has : s.lanes.contains l.val = true)
    (still : s.age.sweep = none) (idle : s.laneState l ≠ 3) : exec (.laneRxeqWrite l v) s = .next (s.applyRx l v.toNat) := by
  rw [exec_laneRxeqWrite clocks has, State.writeRx_idle still idle]
  exact (onlyRegs_applyRx s l v.toNat).done

theorem laneRxeqWrite_active {s : State} {l : Fin 18} {v : Word} (clocks : ClocksRun s) (has : s.lanes.contains l.val = true)
    (active : s.laneState l = 3) :
    exec (.laneRxeqWrite l v) s = .next ((s.setB (LANE_RXEQ_RXEQ_PEND l) true).addRx l v.toNat) := by
  rw [exec_laneRxeqWrite clocks has, State.writeRx_active active]
  exact done_eq_next (by rw [State.addRx_pending, State.setB_pending]) (by rw [State.addRx_place, State.setB_place])

/-- Transmit codes that R43 allows leave the main cursor the rest of 64. -/
theorem mainCursor_allowed {swing pre2 pre1 post1 : Nat} (ok : eqAllowed swing pre2 pre1 post1 = true) :
    mainCursor pre2 pre1 post1 + pre2 + pre1 + post1 = 64 := by
  obtain ⟨-, -, -, -, cursor⟩ := of_decide_eq_true ok
  unfold mainCursor
  omega

theorem eqPendingApply_tx {s : State} {l : Fin 18} {v : Word} (still : s.age.sweep = none)
    (opened : s.laneState l ≠ 3 ∨ ((s.quiLeft s.tick).isSome = true ∧ s.lnk.fTx = 0))
    (tx : s.age.pendTx = [(l.val, v)]) (rx : s.age.pendRx = []) : exec (.eqPendingApply l) s = .next (s.tookTx l v) := by
  have pending : s.eqPending l = true := by simp [State.eqPending, tx]
  rw [exec_eqPendingApply_takes still pending opened, State.applyPending_tx tx rx,
    State.sweepRestart_still ((s.tookTx_sweep l v).trans still)]
  exact done_eq_next (s.tookTx_pending l v) (s.tookTx_place l v)

end Sys2Proof.Machine

namespace Sys2Proof

open Machine

/-- Settles O19: R43 decides whether transmit codes are taken, and the lane's state whether values wait or are in force at once. -/
theorem laneEqualisationWrites : Obligations.LaneEqualisationWrites := by
  unfold Obligations.LaneEqualisationWrites
  intro s l v clocks has still
  refine ⟨⟨fun ok idle => ?_, fun ok active => ?_, fun bad => ?_⟩, fun idle => ?_, fun active => ?_, exec_eqPendingApply_active,
    fun opened tx rx => ?_⟩
  · have codes := s.applyTx_codes l v.toNat
    rw [State.txCodes_eq, Prod.ext_iff, Prod.ext_iff, Prod.ext_iff] at codes
    obtain ⟨swing, pre2, pre1, post1⟩ := codes
    refine ⟨_, laneTxeqWrite_idle clocks has still ok idle, swing, pre2, pre1, post1, ?_, onlyRegs_applyTx s l v.toNat⟩
    rw [State.applyTx_main]
    exact mainCursor_allowed ok
  · refine ⟨_, laneTxeqWrite_active clocks has ok active, ?_, ?_, State.addTx_last _ l v⟩
    · rw [State.getB_of_rd _ (State.rd_addTx _ l _ _), State.getB_setB _ _ (of_decide_eq_true rfl) rfl]
    · rw [State.rd_addTx, State.rd_setB_ne _ _ _ (by simp only [LANE_TXEQ, LANE_STATUS_TXEQ_PEND]; omega)]
  · exact ⟨_, laneTxeqWrite_forbidden clocks has bad, s.refused_kept _, s.refused_last _⟩
  · exact ⟨_, laneRxeqWrite_idle clocks has still idle, s.applyRx_ctle l _, s.applyRx_vga l _, onlyRegs_applyRx s l v.toNat⟩
  · refine ⟨_, laneRxeqWrite_active clocks has active, ?_, ?_, State.addRx_last _ l v⟩
    · rw [State.getB_of_rd _ (State.rd_addRx _ l _ _), State.getB_setB _ _ (of_decide_eq_true rfl) rfl]
    · rw [State.getF_of_rd _ (State.rd_addRx _ l _ _)]
      exact State.getF_setF_beside s _ (of_decide_eq_true rfl) (of_decide_eq_true rfl)
  · have codes := s.tookTx_codes l v
    rw [State.txCodes_eq, Prod.ext_iff, Prod.ext_iff, Prod.ext_iff] at codes
    obtain ⟨swing, -, -, post1⟩ := codes
    refine ⟨_, eqPendingApply_tx still opened tx rx, swing.trans ?_, post1.trans ?_, s.tookTx_shown l v, State.tookTx_none tx, s.tookTx_words l v⟩
    · simp [eqOfWord, bitsOf]
    · simp [eqOfWord, bitsOf]

end Sys2Proof
end

section
/-! SUPPORT. Patterns of lanes (R52, R341). -/

namespace Sys2Proof.Machine

/-- Taking the low `k` bits of a word anew keeps its other bits. -/
theorem maskLow_eq {x : Nat} (hx : x < 2 ^ 32) (v : Nat) {k : Nat} :
    (x &&& (0xFFFFFFFF ^^^ (2 ^ k - 1))) ||| (v &&& (2 ^ k - 1)) = 2 ^ k * (x / 2 ^ k) + v % 2 ^ k := by
  rw [Nat.two_pow_add_eq_or_of_lt (Nat.mod_lt _ (by positivity))]
  refine Nat.eq_of_testBit_eq fun i => ?_
  have high : x.testBit i = true → i < 32 := fun b => by
    by_contra out
    rw [Nat.testBit_lt_two_pow (hx.trans_le (Nat.pow_le_pow_right (by decide) (Nat.le_of_not_lt out)))] at b
    exact absurd b (by decide)
  rw [show (0xFFFFFFFF : Nat) = 2 ^ 32 - 1 from rfl]
  simp only [Nat.testBit_or, Nat.testBit_and, Nat.testBit_xor, Nat.testBit_two_pow_sub_one, Nat.testBit_two_pow_mul, Nat.testBit_div_two_pow,
    Nat.testBit_mod_two_pow]
  by_cases low : i < k
  · by_cases i < 32 <;> simp_all
  · simp only [low, show i - k + k = i by omega, show k ≤ i by omega]
    cases hb : x.testBit i <;> simp_all

theorem accOf_lanePat : ∀ l : Fin 18, accOf (LANE_PAT l) = some ⟨0x818, 0x40, 19, 0x3, 0x0, 0x0⟩ := by decide

theorem lanePatPattern_put (l x v : Nat) : (LANE_PAT_PATTERN l).put x v = 2 ^ 2 * (x / 2 ^ 2) + v % 2 ^ 2 := by
  simp only [Fld.put, LANE_PAT_PATTERN]
  omega

/-- Of a write to `LANE_PAT`, `PATTERN` is what its fields take. -/
theorem State.fieldsWrite_lanePat (s : State) (l : Fin 18) (v : Nat) : s.fieldsWrite (LANE_PAT l) v = s.setF (LANE_PAT_PATTERN l) v := by
  have word : s.rd (LANE_PAT l) < 2 ^ 32 := BitVec.isLt _
  have mask := maskLow_eq word v (k := 2)
  rw [State.fieldsWrite_acc s (accOf_lanePat l)]
  simp only [ite_self, Nat.or_zero, Nat.and_zero, Nat.xor_zero]
  rw [show (3 : Nat) = 2 ^ 2 - 1 from rfl, mask, show (0xFFFFFFFF : Nat) = 2 ^ 32 - 1 from rfl, Nat.and_two_pow_sub_one_eq_mod,
    Nat.mod_eq_of_lt (by omega)]
  exact congrArg (s.wr (LANE_PAT l)) (lanePatPattern_put l _ v).symm

/-- The word that starts a pattern: `START` and the pattern. -/
theorem patStart_word (pat : BitVec 2) : bitOf (2 ^ 30 + pat.toNat) 30 = true ∧ bitOf (2 ^ 30 + pat.toNat) 29 = false
    ∧ (2 ^ 30 + pat.toNat) % 2 ^ 2 = pat.toNat := by
  have := pat.isLt
  refine ⟨beq_iff_eq.mpr ?_, beq_eq_false_iff_ne.mpr ?_, ?_⟩ <;> omega

theorem exec_lanePatStart {s : State} (clocks : ClocksRun s) {l : Fin 18} (has : s.lanes.contains l.val = true) (pat : BitVec 2) (came : List Bool) :
    exec (.lanePatStart l ⟨pat, came⟩) s = done s (s.patWrite l (2 ^ 30 + pat.toNat) (some came)) :=
  congrArg (done s) ((if_pos has).trans (clocks.regCmd _ _ _))

theorem exec_lanePatStop {s : State} (clocks : ClocksRun s) {l : Fin 18} (has : s.lanes.contains l.val = true) (errs : Word) :
    exec (.lanePatStop l errs) s = done s (s.patStop l errs.toNat) :=
  congrArg (done s) ((if_pos has).trans (clocks.regCmd _ _ _))

/-- A pattern that may start has its checker's result of the bits that came. -/
def State.patRuns (s : State) (l : Nat) (came : List Bool) : State :=
  (((s.setB (LANE_PAT_RUN l) true).setB (LANE_PAT_LOCK l) false).setB (LANE_PAT_LOCK l) (checkBits came).1).bump (LANE_PRBS_ERR_COUNT l) (checkBits came).2.2

/-- A running pattern stopped: with its checker locked, what it found in error counts. -/
def State.patHalts (s : State) (l errs : Nat) : State :=
  ((if s.getB (LANE_PAT_LOCK l) then s.bump (LANE_PRBS_ERR_COUNT l) errs else s).setB (LANE_PAT_RUN l) false).setB (LANE_PAT_LOCK l) false

theorem lanePat_apart (l : Nat) : LANE_PAT l ≠ LANE_PRBS_ERR l := by simp only [LANE_PAT, LANE_PRBS_ERR]; omega

theorem State.patRuns_run (s : State) (l : Nat) (came : List Bool) : (s.patRuns l came).getB (LANE_PAT_RUN l) = true := by
  unfold State.patRuns State.bump
  rw [State.getB_setF_apart _ _ (lanePat_apart l), State.getB_setB_beside _ _ (of_decide_eq_true rfl) (of_decide_eq_true rfl),
    State.getB_setB_beside _ _ (of_decide_eq_true rfl) (of_decide_eq_true rfl), State.getB_setB _ _ (of_decide_eq_true rfl) rfl]

theorem State.patRuns_lock (s : State) (l : Nat) (came : List Bool) : (s.patRuns l came).getB (LANE_PAT_LOCK l) = (checkBits came).1 := by
  unfold State.patRuns State.bump
  rw [State.getB_setF_apart _ _ (lanePat_apart l), State.getB_setB _ _ (of_decide_eq_true rfl) rfl]

theorem State.patRuns_pattern (s : State) (l : Nat) (came : List Bool) : (s.patRuns l came).getF (LANE_PAT_PATTERN l) = s.getF (LANE_PAT_PATTERN l) := by
  unfold State.patRuns State.bump
  rw [State.getF_setF_apart _ _ (lanePat_apart l), State.getF_setB_beside _ _ (of_decide_eq_true rfl) (of_decide_eq_true rfl),
    State.getF_setB_beside _ _ (of_decide_eq_true rfl) (of_decide_eq_true rfl), State.getF_setB_beside _ _ (of_decide_eq_true rfl) (of_decide_eq_true rfl)]

theorem State.patRuns_errors (s : State) (l : Nat) (came : List Bool) : (s.patRuns l came).getF (LANE_PRBS_ERR_COUNT l)
    = min (2 ^ 32 - 1) (s.getF (LANE_PRBS_ERR_COUNT l) + (checkBits came).2.2) := by
  unfold State.patRuns
  rw [State.getF_bump _ _ (of_decide_eq_true rfl)]
  unfold State.setB
  rw [State.getF_setF_apart _ _ (lanePat_apart l).symm, State.getF_setF_apart _ _ (lanePat_apart l).symm, State.getF_setF_apart _ _ (lanePat_apart l).symm]
  rfl

theorem State.patHalts_run (s : State) (l errs : Nat) : (s.patHalts l errs).getB (LANE_PAT_RUN l) = false := by
  unfold State.patHalts
  rw [State.getB_setB_beside _ _ (of_decide_eq_true rfl) (of_decide_eq_true rfl), State.getB_setB _ _ (of_decide_eq_true rfl) rfl]

theorem State.patHalts_lock (s : State) (l errs : Nat) : (s.patHalts l errs).getB (LANE_PAT_LOCK l) = false :=
  State.getB_setB _ _ (of_decide_eq_true rfl) rfl false

theorem State.patHalts_errors (s : State) (l errs : Nat) : (s.patHalts l errs).getF (LANE_PRBS_ERR_COUNT l)
    = if s.getB (LANE_PAT_LOCK l) then min (2 ^ 32 - 1) (s.getF (LANE_PRBS_ERR_COUNT l) + errs) else s.getF (LANE_PRBS_ERR_COUNT l) := by
  unfold State.patHalts State.setB
  rw [State.getF_setF_apart _ _ (lanePat_apart l).symm, State.getF_setF_apart _ _ (lanePat_apart l).symm]
  split
  · exact s.getF_bump errs (of_decide_eq_true rfl)
  · rfl

theorem State.patStart_may {s : State} {l : Nat} (may : s.patMay l = true) (came : List Bool) : s.patStart l (some came) = s.patRuns l came :=
  if_neg (ne_true_of_eq_false (congrArg not may))

theorem State.patStop_running {s : State} {l : Nat} (running : s.getB (LANE_PAT_RUN l) = true) (errs : Nat) : s.patStop l errs = s.patHalts l errs :=
  if_neg (ne_true_of_eq_false (congrArg not running))

/-- Writing `PATTERN` does not decide whether a pattern may start. -/
theorem State.patMay_pattern (s : State) (l v : Nat) : (s.setF (LANE_PAT_PATTERN l) v).patMay l = s.patMay l := by
  unfold State.patMay State.laneState
  rw [State.getB_setF_beside s v (of_decide_eq_true rfl) (of_decide_eq_true rfl),
    State.getF_of_rd _ (State.rd_setF_ne s _ v (by simp only [LANE_STATUS_STATE, LANE_PAT_PATTERN]; omega))]

theorem State.patWrite_may {s : State} {l : Fin 18} (may : s.patMay l = true) (pat : BitVec 2) (came : List Bool) :
    s.patWrite l (2 ^ 30 + pat.toNat) (some came) = (s.setF (LANE_PAT_PATTERN l) (2 ^ 30 + pat.toNat)).patRuns l came := by
  obtain ⟨start, no_stop, -⟩ := patStart_word pat
  have may' := (s.patMay_pattern l (2 ^ 30 + pat.toNat)).trans may
  rw [State.patWrite, start, no_stop, may]
  refine Eq.trans ?_ (State.patStart_may may' came)
  exact congrArg (State.patStart · l (some came)) (s.fieldsWrite_lanePat l _)

theorem State.patWrite_refused {s : State} {l : Fin 18} (may : s.patMay l = false) (pat : BitVec 2) (came : List Bool) :
    s.patWrite l (2 ^ 30 + pat.toNat) (some came) = s.refused (LANE_PAT l) := by
  obtain ⟨start, no_stop, -⟩ := patStart_word pat
  rw [State.patWrite, start, no_stop, may]
  exact if_pos (congrArg not may)

end Sys2Proof.Machine

namespace Sys2Proof

open Machine

theorem onlyRegs_pattern (s : State) (l v : Nat) : OnlyRegs [LANE_PAT l, LANE_PRBS_ERR l] s (s.setF (LANE_PAT_PATTERN l) v) :=
  onlyRegs_setF s (f := LANE_PAT_PATTERN l) List.mem_cons_self v

theorem onlyRegs_patRuns (s : State) (l : Nat) (came : List Bool) : OnlyRegs [LANE_PAT l, LANE_PRBS_ERR l] s (s.patRuns l came) :=
  (((onlyRegs_setF s (f := LANE_PAT_RUN l) List.mem_cons_self _).trans (onlyRegs_setF _ (f := LANE_PAT_LOCK l) List.mem_cons_self _)).trans
    (onlyRegs_setF _ (f := LANE_PAT_LOCK l) List.mem_cons_self _)).trans
    (onlyRegs_setF _ (f := LANE_PRBS_ERR_COUNT l) (List.mem_cons_of_mem _ List.mem_cons_self) _)

theorem onlyRegs_patHalts (s : State) (l errs : Nat) : OnlyRegs [LANE_PAT l, LANE_PRBS_ERR l] s (s.patHalts l errs) := by
  have counts : OnlyRegs [LANE_PAT l, LANE_PRBS_ERR l] s (if s.getB (LANE_PAT_LOCK l) then s.bump (LANE_PRBS_ERR_COUNT l) errs else s) := by
    split
    · exact onlyRegs_setF s (f := LANE_PRBS_ERR_COUNT l) (List.mem_cons_of_mem _ List.mem_cons_self) _
    · exact OnlyRegs.refl _ s
  exact (counts.trans (onlyRegs_setF _ (f := LANE_PAT_RUN l) List.mem_cons_self _)).trans
    (onlyRegs_setF _ (f := LANE_PAT_LOCK l) List.mem_cons_self _)

theorem lanePatStart_runs {s : State} (clocks : ClocksRun s) {l : Fin 18} (has : s.lanes.contains l.val = true) (may : s.patMay l = true)
    (pat : BitVec 2) (came : List Bool) :
    exec (.lanePatStart l ⟨pat, came⟩) s = .next ((s.setF (LANE_PAT_PATTERN l) (2 ^ 30 + pat.toNat)).patRuns l came) := by
  rw [exec_lanePatStart clocks has, State.patWrite_may may]
  exact ((onlyRegs_pattern s l _).trans (onlyRegs_patRuns _ l came)).done

theorem lanePatStart_refused {s : State} (clocks : ClocksRun s) {l : Fin 18} (has : s.lanes.contains l.val = true) (may : s.patMay l = false)
    (pat : BitVec 2) (came : List Bool) : exec (.lanePatStart l ⟨pat, came⟩) s = .next (s.refused (LANE_PAT l)) := by
  rw [exec_lanePatStart clocks has, State.patWrite_refused may]
  exact s.refused_done _

theorem lanePatStop_running {s : State} (clocks : ClocksRun s) {l : Fin 18} (has : s.lanes.contains l.val = true)
    (running : s.getB (LANE_PAT_RUN l) = true) (errs : Word) : exec (.lanePatStop l errs) s = .next (s.patHalts l errs.toNat) := by
  rw [exec_lanePatStop clocks has, State.patStop_running running]
  exact (onlyRegs_patHalts s l _).done

/-- Settles O20: a pattern starts where `patMay` allows it, and its checker's count goes to `LANE_PRBS_ERR`. -/
theorem lanePatternsStartAndStop : Obligations.LanePatternsStartAndStop := by
  unfold Obligations.LanePatternsStartAndStop
  intro s l clocks has
  refine ⟨fun pat came training rests => ?_, fun pat came no_training no_measure => ?_, fun errs running => ?_⟩
  · have may : s.patMay l = true := by simp [State.patMay, training, rests]
    refine ⟨_, lanePatStart_runs clocks has may pat came, State.patRuns_run _ l came, ?_, State.patRuns_lock _ l came, ?_,
      (onlyRegs_pattern s l _).trans (onlyRegs_patRuns _ l came)⟩
    · rw [State.patRuns_pattern, State.getF_setF _ _ (of_decide_eq_true rfl)]
      exact (patStart_word pat).2.2
    · rw [State.patRuns_errors, State.getF_setF_apart _ _ (lanePat_apart l).symm]
  · have may : s.patMay l = false := by simp [State.patMay, no_training, no_measure]
    have kept : (s.refused (LANE_PAT l)).rd (LANE_PAT l) = s.rd (LANE_PAT l) :=
      s.refused_kept _ _ (.inl (by have := l.isLt; simp only [LANE_PAT]; omega)) List.not_mem_nil
    exact ⟨_, lanePatStart_refused clocks has may pat came, State.getB_of_rd _ kept, State.getF_of_rd _ kept, s.refused_last _⟩
  · exact ⟨_, lanePatStop_running clocks has running errs, s.patHalts_run l _, s.patHalts_lock l _, s.patHalts_errors l _, onlyRegs_patHalts s l _⟩

end Sys2Proof
end

section
/-! SUPPORT. Numbers as bytes, and the codewords of a flit: the field of R36 is linear over the bits of its bytes, so that a message with its parity has
zero syndromes (R36, R37, R39); the scrambler undoes itself (R35, R38). -/

namespace Sys2Proof.Machine

/-! ### Numbers as bytes -/

theorem ofBytes_append_singleton (l : List Byte) (b : Byte) : ofBytes (l ++ [b]) = 256 * ofBytes l + b.toNat := by
  simp [ofBytes]

theorem ofBytes_lt (l : List Byte) : ofBytes l < 2 ^ (8 * l.length) := by
  induction l using List.reverseRecOn with
  | nil => simp [ofBytes]
  | append_singleton l b ih =>
    have := b.isLt
    rw [ofBytes_append_singleton, List.length_append, List.length_singleton, Nat.mul_add, Nat.pow_add]
    omega

/-- The last byte of a number is its remainder. -/
theorem beBytes_succ (n v : Nat) : beBytes (n + 1) v = beBytes n (v / 256) ++ [BitVec.ofNat 8 v] := by
  unfold beBytes
  rw [List.range_succ, List.map_append, List.map_singleton]
  congr 1
  · refine List.map_congr_left fun i hi => ?_
    have := List.mem_range.mp hi
    rw [Nat.div_div_eq_div_mul, ← Nat.pow_succ', show n + 1 - 1 - i = n - 1 - i + 1 by omega]
  · simp

@[simp] theorem beBytes_length (n v : Nat) : (beBytes n v).length = n := by simp [beBytes]

/-- The bytes that a number spells are those it was read from. -/
theorem beBytes_ofBytes (l : List Byte) : beBytes l.length (ofBytes l) = l := by
  induction l using List.reverseRecOn with
  | nil => rfl
  | append_singleton l b ih =>
    have last : BitVec.ofNat 8 (256 * ofBytes l + b.toNat) = b := by
      apply BitVec.eq_of_toNat_eq
      have := b.isLt
      rw [BitVec.toNat_ofNat]
      omega
    rw [List.length_append, List.length_singleton, beBytes_succ, ofBytes_append_singleton, last,
      show (256 * ofBytes l + b.toNat) / 256 = ofBytes l by have := b.isLt; omega, ih]

/-- The wire carries 272 bytes as they are. -/
theorem wireBytes_wireOf {l : List Byte} (hl : l.length = 272) : wireBytes (wireOf l) = l := by
  have small : ofBytes l < 2 ^ 2176 := lt_of_lt_of_eq (ofBytes_lt l) (by rw [hl])
  unfold wireBytes wireOf
  rw [BitVec.toNat_ofNat, Nat.mod_eq_of_lt small, ← hl, beBytes_ofBytes]

/-! ### The scrambler -/

theorem scramMask_length (map : List Nat) (g f : Nat) : (scramMask map g f).length = 272 := by simp [scramMask]

theorem scramble_length {l : List Byte} (map : List Nat) (g f : Nat) (hl : l.length = 272) : (scramble map g f l).length = 272 := by
  simp [scramble, scramMask_length, hl]

/-- Scrambling twice gives the bytes back. -/
theorem scramble_scramble {l : List Byte} (map : List Nat) (g f : Nat) (hl : l.length = 272) : scramble map g f (scramble map g f l) = l := by
  unfold scramble
  apply List.ext_getElem (by simp [scramMask_length, hl])
  intro i _ _
  simp

/-! ### Linear maps of bytes -/

/-- A map of bytes that keeps their sums. -/
structure ByteLinear (f : Nat → Nat) : Prop where
  lt : ∀ {a}, a < 256 → f a < 256
  xor : ∀ {a b}, a < 256 → b < 256 → f (a ^^^ b) = f a ^^^ f b

theorem byteXor_lt {a b : Nat} (ha : a < 256) (hb : b < 256) : a ^^^ b < 256 := Nat.xor_lt_two_pow (n := 8) ha hb

theorem ByteLinear.zero {f : Nat → Nat} (h : ByteLinear f) : f 0 = 0 := by
  have := h.xor (a := 0) (b := 0) (by decide) (by decide)
  rwa [Nat.xor_self, Nat.xor_self] at this

theorem ByteLinear.id : ByteLinear id := ⟨fun h => h, fun _ _ => rfl⟩

theorem ByteLinear.comp {f g : Nat → Nat} (hf : ByteLinear f) (hg : ByteLinear g) : ByteLinear (f ∘ g) :=
  ⟨fun h => hf.lt (hg.lt h), fun ha hb => by simp only [Function.comp_apply, hg.xor ha hb, hf.xor (hg.lt ha) (hg.lt hb)]⟩

theorem ByteLinear.iterate {f : Nat → Nat} (h : ByteLinear f) (n : Nat) : ByteLinear f^[n] := by
  induction n with
  | zero => exact ByteLinear.id
  | succ n ih => exact ih.comp h

theorem ByteLinear.add {f g : Nat → Nat} (hf : ByteLinear f) (hg : ByteLinear g) : ByteLinear (fun a => f a ^^^ g a) :=
  ⟨fun h => byteXor_lt (hf.lt h) (hg.lt h), fun ha hb => by simp only [hf.xor ha hb, hg.xor ha hb]; ac_rfl⟩

/-- A bit above a number adds to it as a sum of bits. -/
theorem two_pow_xor_eq_add {n b : Nat} (hb : b < 2 ^ n) : 2 ^ n ^^^ b = 2 ^ n + b := by
  have whole := Nat.two_pow_add_eq_or_of_lt hb 1
  rw [Nat.mul_one] at whole
  rw [whole]
  refine Nat.eq_of_testBit_eq fun i => ?_
  rw [Nat.testBit_xor, Nat.testBit_or, Nat.testBit_two_pow]
  by_cases here : n = i
  · subst here
    simp [Nat.testBit_lt_two_pow hb]
  · simp [here]

/-- Linear maps that agree on the eight bits agree on every byte. -/
theorem ByteLinear.ext {f g : Nat → Nat} (hf : ByteLinear f) (hg : ByteLinear g) (bits : ∀ k < 8, f (2 ^ k) = g (2 ^ k)) {a : Nat} (ha : a < 256) :
    f a = g a := by
  have upTo : ∀ n ≤ 8, ∀ a < 2 ^ n, f a = g a := by
    intro n
    induction n with
    | zero =>
      intro _ a ha
      rw [show a = 0 by omega, hf.zero, hg.zero]
    | succ n ih =>
      intro hn a ha
      have below : 2 ^ n < 256 := Nat.pow_lt_pow_right (m := n) (n := 8) (by decide) (by omega)
      rcases Nat.lt_or_ge a (2 ^ n) with low | high
      · exact ih (by omega) a low
      · have rest : a - 2 ^ n < 2 ^ n := by rw [Nat.pow_succ] at ha; omega
        have parts : a = 2 ^ n ^^^ (a - 2 ^ n) := by rw [two_pow_xor_eq_add rest]; omega
        rw [parts, hf.xor below (by omega), hg.xor below (by omega), bits n (by omega), ih (by omega) _ rest]
  exact upTo 8 (le_refl 8) a ha

theorem gfDouble_eq {a : Nat} (ha : a < 256) : gfDouble a = 2 * a ^^^ (if a.testBit 7 then 0x11D else 0) := by
  have top : a.testBit 7 = decide (128 ≤ a) := by
    rw [Nat.testBit_eq_decide_div_mod_eq]
    exact decide_eq_decide.mpr (by omega)
  rw [top, gfDouble]
  by_cases h : 128 ≤ a <;> simp [h]

theorem gfDouble_linear : ByteLinear gfDouble where
  lt {a} ha := by
    rw [gfDouble]
    split
    · have parts : 2 * a = 2 ^ 8 ^^^ (2 * a - 256) := by rw [two_pow_xor_eq_add (by omega)]; omega
      have folded : 2 * a ^^^ 0x11D = (2 * a - 256) ^^^ 0x1D :=
        calc 2 * a ^^^ 0x11D = (2 ^ 8 ^^^ (2 * a - 256)) ^^^ (2 ^ 8 ^^^ 0x1D) := congrArg (· ^^^ 0x11D) parts
          _ = (2 * a - 256) ^^^ 0x1D := by rw [Nat.xor_comm (2 ^ 8) (2 * a - 256), Nat.xor_assoc, ← Nat.xor_assoc (2 ^ 8),
            Nat.xor_self, Nat.zero_xor]
      rw [folded]
      exact byteXor_lt (by omega) (by decide)
    · omega
  xor {a b} ha hb := by
    have twice : 2 * (a ^^^ b) = 2 * a ^^^ 2 * b := by
      simpa only [Nat.shiftLeft_eq, Nat.pow_one, Nat.mul_comm] using Nat.shiftLeft_xor_distrib (a := a) (b := b) (i := 1)
    rw [gfDouble_eq ha, gfDouble_eq hb, gfDouble_eq (byteXor_lt ha hb), twice, Nat.testBit_xor]
    cases a.testBit 7 <;> cases b.testBit 7 <;> simp [Nat.xor_comm, Nat.xor_left_comm, Nat.xor_assoc]

/-- A step of the product by bit `i` of `b`: the first factor doubled, and the sum so far. -/
def gfStep (b : Nat) (p : Nat × Nat) (i : Nat) : Nat × Nat := (gfDouble p.1, if bitOf b i then p.2 ^^^ p.1 else p.2)

theorem gfMul_eq (a b : Nat) : gfMul a b = ((List.range 8).foldl (gfStep b) (a, 0)).2 := rfl

/-- The steps of a product keep sums of bytes. -/
theorem gfSteps_linear (b : Nat) (l : List Nat) {f g : Nat → Nat} (hf : ByteLinear f) (hg : ByteLinear g) :
    ByteLinear (fun a => (l.foldl (gfStep b) (f a, g a)).2) := by
  induction l generalizing f g with
  | nil => exact hg
  | cons i l ih =>
    have step (a : Nat) : gfStep b (f a, g a) i = ((gfDouble ∘ f) a, (fun a => if bitOf b i then g a ^^^ f a else g a) a) := rfl
    simp only [List.foldl_cons, step]
    refine ih (gfDouble_linear.comp hf) ?_
    cases bitOf b i
    · exact hg
    · exact hg.add hf

/-- A product is linear in its first factor. -/
theorem gfMul_linear (b : Nat) : ByteLinear (fun a => gfMul a b) :=
  gfSteps_linear b (List.range 8) ByteLinear.id ⟨fun _ => by decide, fun _ _ => rfl⟩

/-! ### Symbols evaluated at a point -/

/-- The value of symbols at a point, whose product is `f`; the symbol of the highest degree comes first. -/
def horner (f : Nat → Nat) (l : List Nat) (acc : Nat) : Nat := l.foldl (fun acc x => f acc ^^^ x) acc

@[simp] theorem horner_nil (f : Nat → Nat) (acc : Nat) : horner f [] acc = acc := rfl
@[simp] theorem horner_cons (f : Nat → Nat) (x : Nat) (l : List Nat) (acc : Nat) : horner f (x :: l) acc = horner f l (f acc ^^^ x) := rfl

theorem horner_append (f : Nat → Nat) (l k : List Nat) (acc : Nat) : horner f (l ++ k) acc = horner f k (horner f l acc) := by
  simp [horner]

section

variable {f : Nat → Nat} (hf : ByteLinear f)
include hf

theorem horner_lt {l : List Nat} {acc : Nat} (hl : ∀ x ∈ l, x < 256) (ha : acc < 256) : horner f l acc < 256 := by
  induction l generalizing acc with
  | nil => exact ha
  | cons x l ih => exact ih (fun y hy => hl y (List.mem_cons_of_mem _ hy)) (byteXor_lt (hf.lt ha) (hl x List.mem_cons_self))

/-- The value of a sum is the sum of the values. -/
theorem horner_zipWith {l k : List Nat} (len : l.length = k.length) {a b : Nat} (hl : ∀ x ∈ l, x < 256) (hk : ∀ x ∈ k, x < 256)
    (ha : a < 256) (hb : b < 256) : horner f (List.zipWith (· ^^^ ·) l k) (a ^^^ b) = horner f l a ^^^ horner f k b := by
  induction l generalizing k a b with
  | nil =>
    obtain rfl := List.length_eq_zero_iff.mp len.symm
    rfl
  | cons x l ih =>
    cases k with
    | nil => cases len
    | cons y k =>
      have hx := hl x List.mem_cons_self
      have hy := hk y List.mem_cons_self
      have sum : f (a ^^^ b) ^^^ (x ^^^ y) = (f a ^^^ x) ^^^ (f b ^^^ y) := by rw [hf.xor ha hb]; ac_rfl
      rw [List.zipWith_cons_cons, horner_cons, sum]
      exact ih (Nat.succ.inj len) (fun z hz => hl z (List.mem_cons_of_mem _ hz)) (fun z hz => hk z (List.mem_cons_of_mem _ hz))
        (byteXor_lt (hf.lt ha) hx) (byteXor_lt (hf.lt hb) hy)

/-- What stands before symbols is multiplied once for each of them. -/
theorem horner_acc {l : List Nat} {acc : Nat} (hl : ∀ x ∈ l, x < 256) (ha : acc < 256) :
    horner f l acc = f^[l.length] acc ^^^ horner f l 0 := by
  induction l generalizing acc with
  | nil => simp
  | cons x l ih =>
    have hx := hl x List.mem_cons_self
    have rest := fun y hy => hl y (List.mem_cons_of_mem _ hy)
    rw [horner_cons, horner_cons, ih rest (byteXor_lt (hf.lt ha) hx), hf.zero, Nat.zero_xor, ih rest hx, (hf.iterate _).xor (hf.lt ha) hx,
      Nat.xor_assoc, List.length_cons, Function.iterate_succ_apply]

end

/-! ### Parity, R36 -/

/-- The parity's step by one symbol of the message. -/
def parityStep (p : List Nat) (m : Nat) : List Nat := List.zipWith (· ^^^ ·) (p.drop 1 ++ [0]) (rsGen.map (gfMul (m ^^^ p.headD 0)))

theorem rsParity_eq (msg : List Nat) : rsParity msg = msg.foldl parityStep (List.replicate 8 0) := rfl

theorem rsGen_length : rsGen.length = 8 := by decide +kernel

/-- The product by α^i. -/
def timesAlpha (i a : Nat) : Nat := gfMul a (gfAlpha i)

theorem timesAlpha_linear (i : Nat) : ByteLinear (timesAlpha i) := gfMul_linear (gfAlpha i)

/-- The generator's multiple by a symbol. -/
def genRow (a : Nat) : List Nat := rsGen.map (gfMul a)

@[simp] theorem genRow_length (a : Nat) : (genRow a).length = 8 := by rw [genRow, List.length_map, rsGen_length]

theorem genRow_lt {a : Nat} (ha : a < 256) : ∀ x ∈ genRow a, x < 256 := by
  intro x hx
  obtain ⟨g, -, rfl⟩ := List.mem_map.mp hx
  exact (gfMul_linear g).lt ha

theorem genRow_xor {a b : Nat} (ha : a < 256) (hb : b < 256) : genRow (a ^^^ b) = List.zipWith (· ^^^ ·) (genRow a) (genRow b) := by
  unfold genRow
  rw [List.zipWith_map, List.zipWith_self]
  exact List.map_congr_left fun g _ => (gfMul_linear g).xor ha hb

theorem genRow_bits : ∀ i < 8, ∀ k < 8, horner (timesAlpha i) (genRow (2 ^ k)) 0 = (timesAlpha i)^[8] (2 ^ k) := by decide +kernel

/-- α^i is a root of the generator: below its leading term it has the value of x^8 there. -/
theorem genRow_value {i : Nat} (hi : i < 8) {a : Nat} (ha : a < 256) : horner (timesAlpha i) (genRow a) 0 = (timesAlpha i)^[8] a := by
  have linear : ByteLinear (fun a => horner (timesAlpha i) (genRow a) 0) :=
    { lt := fun ha => horner_lt (timesAlpha_linear i) (genRow_lt ha) (by decide)
      xor := fun {a b} ha hb => by
        have := horner_zipWith (timesAlpha_linear i) ((genRow_length a).trans (genRow_length b).symm) (genRow_lt ha) (genRow_lt hb)
          (a := 0) (b := 0) (by decide) (by decide)
        rwa [Nat.xor_self, ← genRow_xor ha hb] at this }
  exact linear.ext ((timesAlpha_linear i).iterate 8) (genRow_bits i hi) ha

/-- Eight symbols, each a byte. -/
def EightBytes (p : List Nat) : Prop := p.length = 8 ∧ ∀ x ∈ p, x < 256

theorem parityStep_cons (x : Nat) (q : List Nat) (m : Nat) :
    parityStep (x :: q) m = List.zipWith (· ^^^ ·) (q ++ [0]) (genRow (m ^^^ x)) := rfl

theorem bytes_snoc_zero {q : List Nat} (hq : ∀ x ∈ q, x < 256) : ∀ x ∈ q ++ [0], x < 256 := by
  intro x hx
  rcases List.mem_append.mp hx with hx | hx
  · exact hq x hx
  · rw [List.mem_singleton.mp hx]; decide

theorem zipWith_xor_lt {l k : List Nat} (hl : ∀ x ∈ l, x < 256) (hk : ∀ x ∈ k, x < 256) : ∀ x ∈ List.zipWith (· ^^^ ·) l k, x < 256 := by
  intro x hx
  obtain ⟨i, hi, rfl⟩ := List.getElem_of_mem hx
  rw [List.getElem_zipWith]
  exact byteXor_lt (hl _ (List.getElem_mem _)) (hk _ (List.getElem_mem _))

theorem EightBytes.cons {p : List Nat} (hp : EightBytes p) : ∃ x q, p = x :: q ∧ q.length = 7 ∧ x < 256 ∧ ∀ y ∈ q, y < 256 := by
  obtain ⟨len, bytes⟩ := hp
  cases p with
  | nil => cases len
  | cons x q => exact ⟨x, q, rfl, Nat.succ.inj len, bytes x List.mem_cons_self, fun y hy => bytes y (List.mem_cons_of_mem _ hy)⟩

theorem parityStep_bytes {p : List Nat} (hp : EightBytes p) {m : Nat} (hm : m < 256) : EightBytes (parityStep p m) := by
  obtain ⟨x, q, rfl, len, hx, hq⟩ := hp.cons
  exact ⟨by simp [parityStep_cons, len], zipWith_xor_lt (bytes_snoc_zero hq) (genRow_lt (byteXor_lt hm hx))⟩

/-- The parity's value at a root of the generator follows the message's. -/
theorem parityStep_value {i : Nat} (hi : i < 8) {p : List Nat} (hp : EightBytes p) {m acc : Nat} (hm : m < 256) (ha : acc < 256)
    (value : horner (timesAlpha i) p 0 = (timesAlpha i)^[8] acc) :
    horner (timesAlpha i) (parityStep p m) 0 = (timesAlpha i)^[8] (timesAlpha i acc ^^^ m) := by
  obtain ⟨x, q, rfl, len, hx, hq⟩ := hp.cons
  have linear := timesAlpha_linear i
  have powers := linear.iterate 8
  have shifted : horner (timesAlpha i) (q ++ [0]) 0 = timesAlpha i (horner (timesAlpha i) q 0) := by
    rw [horner_append, horner_cons, horner_nil, Nat.xor_zero]
  have rest : horner (timesAlpha i) q 0 = (timesAlpha i)^[8] acc ^^^ (timesAlpha i)^[7] x := by
    rw [← value, horner_cons, linear.zero, Nat.zero_xor, horner_acc linear hq hx, len, Nat.xor_comm, ← Nat.xor_assoc, Nat.xor_self, Nat.zero_xor]
  have sum := horner_zipWith linear (l := q ++ [0]) (k := genRow (m ^^^ x)) (a := 0) (b := 0) (by simp [len]) (bytes_snoc_zero hq)
    (genRow_lt (byteXor_lt hm hx)) (by decide) (by decide)
  rw [Nat.xor_self] at sum
  rw [parityStep_cons, sum, shifted, rest, genRow_value hi (byteXor_lt hm hx), linear.xor (powers.lt ha) ((linear.iterate 7).lt hx),
    powers.xor hm hx, powers.xor (linear.lt ha) hm, ← Function.iterate_succ_apply' (timesAlpha i) 8 acc, ← Function.iterate_succ_apply' (timesAlpha i) 7 x,
    Function.iterate_succ_apply (timesAlpha i) 8 acc]
  calc (timesAlpha i)^[8] (timesAlpha i acc) ^^^ (timesAlpha i)^[8] x ^^^ ((timesAlpha i)^[8] m ^^^ (timesAlpha i)^[8] x)
      = (timesAlpha i)^[8] (timesAlpha i acc) ^^^ (timesAlpha i)^[8] m ^^^ ((timesAlpha i)^[8] x ^^^ (timesAlpha i)^[8] x) := by ac_rfl
    _ = _ := by rw [Nat.xor_self, Nat.xor_zero]

/-- A message's parity: eight bytes with the value of the message at every root of the generator, eight places up. -/
theorem parity_value {i : Nat} (hi : i < 8) {msg p : List Nat} (hm : ∀ x ∈ msg, x < 256) (hp : EightBytes p) {acc : Nat} (ha : acc < 256)
    (value : horner (timesAlpha i) p 0 = (timesAlpha i)^[8] acc) :
    horner (timesAlpha i) (msg.foldl parityStep p) 0 = (timesAlpha i)^[8] (horner (timesAlpha i) msg acc) := by
  induction msg generalizing p acc with
  | nil => exact value
  | cons m msg ih =>
    have first := hm m List.mem_cons_self
    exact ih (fun x hx => hm x (List.mem_cons_of_mem _ hx)) (parityStep_bytes hp first)
      (byteXor_lt ((timesAlpha_linear i).lt ha) first) (parityStep_value hi hp first ha value)

theorem parity_bytes {msg p : List Nat} (hm : ∀ x ∈ msg, x < 256) (hp : EightBytes p) : EightBytes (msg.foldl parityStep p) := by
  induction msg generalizing p with
  | nil => exact hp
  | cons m msg ih => exact ih (fun x hx => hm x (List.mem_cons_of_mem _ hx)) (parityStep_bytes hp (hm m List.mem_cons_self))

theorem noParity_bytes : EightBytes (List.replicate 8 0) := ⟨rfl, by decide⟩

theorem rsParity_bytes {msg : List Nat} (hm : ∀ x ∈ msg, x < 256) : EightBytes (rsParity msg) := parity_bytes hm noParity_bytes

/-- A message with its parity has the value 0 at every root of the generator. -/
theorem codeword_value {i : Nat} (hi : i < 8) {msg : List Nat} (hm : ∀ x ∈ msg, x < 256) : horner (timesAlpha i) (msg ++ rsParity msg) 0 = 0 := by
  have linear := timesAlpha_linear i
  obtain ⟨len, bytes⟩ := rsParity_bytes hm
  have start : horner (timesAlpha i) (List.replicate 8 0) 0 = (timesAlpha i)^[8] 0 := by
    rw [(linear.iterate 8).zero]
    simp [List.replicate, linear.zero]
  rw [horner_append, horner_acc linear bytes (horner_lt linear hm (by decide)), len, rsParity_eq,
    parity_value hi hm noParity_bytes (by decide) start, Nat.xor_self]

/-- No error is found in a message with its parity. -/
theorem rsErrors_codeword {msg : List Nat} (hm : ∀ x ∈ msg, x < 256) : rsErrors (msg ++ rsParity msg) = some [] := by
  refine if_pos (List.all_eq_true.mpr fun x hx => ?_)
  obtain ⟨i, hi, rfl⟩ := List.mem_map.mp hx
  exact beq_iff_eq.mpr (codeword_value (List.mem_range.mp hi) hm)

/-! ### The flit, R37 and R39 -/

/-- The codeword of 128 flit bytes. -/
def codewordOf (l : List Byte) : List Nat := l.map (·.toNat) ++ rsParity (l.map (·.toNat))

theorem map_toNat_lt (l : List Byte) : ∀ x ∈ l.map (·.toNat), x < 256 := by
  intro x hx
  obtain ⟨b, -, rfl⟩ := List.mem_map.mp hx
  exact b.isLt

theorem codewordOf_bytes (l : List Byte) : ∀ x ∈ codewordOf l, x < 256 := by
  intro x hx
  rcases List.mem_append.mp hx with hx | hx
  · exact map_toNat_lt l x hx
  · exact (rsParity_bytes (map_toNat_lt l)).2 x hx

theorem codewordOf_length {l : List Byte} (hl : l.length = 128) : (codewordOf l).length = 136 := by
  rw [codewordOf, List.length_append, List.length_map, hl, (rsParity_bytes (map_toNat_lt l)).1]

theorem encodeFlit_eq (l : List Byte) : encodeFlit l = (List.range 272).map (fun i => BitVec.ofNat 8
    ((if i % 2 = 0 then codewordOf (l.take 128) else codewordOf ((l.drop 128).take 128)).getD (i / 2) 0)) := by
  simp only [encodeFlit, codewordOf, List.map_take, List.map_drop]

theorem encodeFlit_length (l : List Byte) : (encodeFlit l).length = 272 := by simp [encodeFlit]

theorem getD_of_bytes {c : List Nat} (hc : ∀ x ∈ c, x < 256) (i : Nat) : c.getD i 0 < 256 := by
  rcases Nat.lt_or_ge i c.length with inside | outside
  · rw [List.getD_eq_getElem _ _ inside]
    exact hc _ (List.getElem_mem inside)
  · rw [List.getD_eq_default _ _ outside]
    decide

theorem range_map_getD {c : List Nat} {n : Nat} (len : c.length = n) : (List.range n).map (fun i => c.getD i 0) = c := by
  apply List.ext_getElem (by simp [len])
  intro i _ hi
  rw [List.getElem_map, List.getElem_range, List.getD_eq_getElem _ _ hi]

/-- The even bytes on the wire are the first codeword, the odd ones the second. -/
theorem codeword_encodeFlit {l : List Byte} (hl : l.length = 256) :
    codeword 0 (encodeFlit l) = codewordOf (l.take 128) ∧ codeword 1 (encodeFlit l) = codewordOf ((l.drop 128).take 128) := by
  have symbol (p : Nat) (hp : p < 2) (i : Nat) (hi : i < 136) : ((encodeFlit l).getD (2 * i + p) 0).toNat
      = (if p = 0 then codewordOf (l.take 128) else codewordOf ((l.drop 128).take 128)).getD i 0 := by
    rw [encodeFlit_eq, List.getD_eq_getElem _ _ (by simp; omega), List.getElem_map, List.getElem_range, BitVec.toNat_ofNat,
      show (2 * i + p) / 2 = i by omega, show (2 * i + p) % 2 = p by omega]
    refine Nat.mod_eq_of_lt (getD_of_bytes ?_ i)
    split
    · exact codewordOf_bytes _
    · exact codewordOf_bytes _
  have first : (codewordOf (l.take 128)).length = 136 := codewordOf_length (by simp [hl])
  have second : (codewordOf ((l.drop 128).take 128)).length = 136 := codewordOf_length (by simp [hl])
  constructor
  · exact (List.map_congr_left fun i hi => symbol 0 (by decide) i (List.mem_range.mp hi)).trans (range_map_getD first)
  · exact (List.map_congr_left fun i hi => symbol 1 (by decide) i (List.mem_range.mp hi)).trans (range_map_getD second)

/-- The message symbols of a codeword are its bytes. -/
theorem codewordOf_data {l : List Byte} (hl : l.length = 128) : ((codewordOf l).take 128).map (BitVec.ofNat 8) = l := by
  have bytes : l.map (BitVec.ofNat 8 ∘ BitVec.toNat) = l := by
    refine (List.map_congr_left fun b _ => ?_).trans (List.map_id l)
    simp
  rw [codewordOf, List.take_left' (by simp [hl]), List.map_map, bytes]

/-- A flit encoded decodes to itself, with nothing corrected. -/
theorem decodeFlit_encodeFlit {l : List Byte} (hl : l.length = 256) : decodeFlit (encodeFlit l) = ⟨[], [0, 0], 0, some l⟩ := by
  obtain ⟨first, second⟩ := codeword_encodeFlit hl
  have a := codewordOf_data (l := l.take 128) (by simp [hl])
  have b := codewordOf_data (l := (l.drop 128).take 128) (by simp [hl])
  have none_a : rsErrors (codewordOf (l.take 128)) = some [] := rsErrors_codeword (map_toNat_lt _)
  have none_b : rsErrors (codewordOf ((l.drop 128).take 128)) = some [] := rsErrors_codeword (map_toNat_lt _)
  have whole : l.take 128 ++ (l.drop 128).take 128 = l := by
    rw [List.take_of_length_le (l := l.drop 128) (by simp [hl]), List.take_append_drop]
  simp only [decodeFlit, first, second, none_a, none_b, Option.map_some, List.foldl_nil, a, b, Option.bind_some, whole]
  rfl

end Sys2Proof.Machine

namespace Sys2Proof

open Machine

/-- Settles O36: scrambling twice changes nothing (`scramble_scramble`), and a message with its parity is a codeword (`codeword_value`). -/
theorem wireFlitsRoundTrip : Obligations.WireFlitsRoundTrip := by
  unfold Obligations.WireFlitsRoundTrip
  intro l map g f hl _ _ _ _
  have len := encodeFlit_length l
  rw [wireBytes_wireOf (scramble_length map g f len), scramble_scramble map g f len]
  exact decodeFlit_encodeFlit hl

end Sys2Proof
end

section
/-! SUPPORT. Frames and blocks that carry training messages (R31, R32, R110). -/

namespace Sys2Proof.Machine

/-! ### CRC-16 and bytes -/

theorem crcBit16_lt {c : Nat} (hc : c < 2 ^ 16) : crcBit 16 0x1021 c < 2 ^ 16 := by
  unfold crcBit
  split
  · exact Nat.xor_lt_two_pow (by omega) (by decide)
  · omega

theorem crcByte16_lt {c : Nat} (hc : c < 2 ^ 16) (b : Byte) : crcByte 16 0x1021 c b < 2 ^ 16 := by
  have bits : ∀ (l : List Nat) (c : Nat), c < 2 ^ 16 → l.foldl (fun c _ => crcBit 16 0x1021 c) c < 2 ^ 16 := by
    intro l
    induction l with
    | nil => exact fun _ hc => hc
    | cons _ l ih => exact fun c hc => ih _ (crcBit16_lt hc)
  exact bits _ _ (Nat.xor_lt_two_pow hc (by have := b.isLt; omega))

theorem crc16_lt (l : List Byte) : crc16 l < 2 ^ 16 := by
  have bytes : ∀ (l : List Byte) (c : Nat), c < 2 ^ 16 → l.foldl (crcByte 16 0x1021) c < 2 ^ 16 := by
    intro l
    induction l with
    | nil => exact fun _ hc => hc
    | cons b l ih =>
      intro c hc
      rw [List.foldl_cons]
      exact ih _ (crcByte16_lt hc b)
  unfold crc16
  exact bytes l 0xFFFF (by decide)

theorem ofBytes_lt_of_length {l : List Byte} {n : Nat} (h : l.length ≤ n) : ofBytes l < 2 ^ (8 * n) :=
  (ofBytes_lt l).trans_le (Nat.pow_le_pow_right (by decide) (by omega))

/-- Bytes in the middle of others, as a number. -/
theorem bytesAt_append (p q r : List Byte) : bytesAt (p ++ (q ++ r)) p.length q.length = ofBytes q := by
  unfold bytesAt; rw [List.drop_left, List.take_left]

theorem ofBytes_beBytes {n v : Nat} (hv : v < 2 ^ (8 * n)) : ofBytes (beBytes n v) = v := by
  induction n generalizing v with
  | zero =>
    rw [Nat.mul_zero, Nat.pow_zero] at hv
    rw [show v = 0 by omega]; rfl
  | succ n ih =>
    rw [Nat.mul_add, Nat.pow_add] at hv
    rw [beBytes_succ, ofBytes_append_singleton, ih (by omega), BitVec.toNat_ofNat]
    omega

/-- A list of 24 bytes is a record of 192 bits. -/
theorem beBytes_ofNat {l : List Byte} {n w : Nat} (hl : l.length = n) (hw : w = 8 * n) : beBytes n (BitVec.ofNat w (ofBytes l)).toNat = l := by
  subst hl hw
  rw [BitVec.toNat_ofNat, Nat.mod_eq_of_lt (ofBytes_lt l), beBytes_ofBytes]

theorem padTo_length (n : Nat) (l : List Byte) : (padTo n l).length = n := by simp [padTo]; omega

/-! ### The rows of training messages -/

/-- The row of a training message does what the message does where it comes in a frame or block. -/
theorem exec_trainingRow {tcode : Nat} {b : List Byte} {seen off : BitVec 24} {c : Instr} (row : TrainingRow tcode b seen off c) (s : State) :
    exec c s = done s (s.onTraining tcode b seen.toNat off.toNat) := by
  rcases row with ⟨rfl, rfl⟩ | ⟨rfl, rfl⟩ | ⟨rfl, rfl⟩ | ⟨rfl, rfl⟩ | ⟨rfl, rfl⟩ | ⟨rfl, rfl⟩ | ⟨rfl, rfl⟩ | ⟨rfl, rfl⟩ | ⟨rfl, rfl⟩
  case inr.inr.inr.inl =>
    have fits : (BitVec.ofNat 24 (bytesAt b 1 3)).toNat = bytesAt b 1 3 := by
      rw [BitVec.toNat_ofNat]
      exact Nat.mod_eq_of_lt (ofBytes_lt_of_length (n := 3) (by simp))
    exact congrArg (fun n => done s (s.onResult (byteAt b 0) n)) fits
  case inr.inr.inr.inr.inl =>
    exact congrArg (fun l => done s (s.onCap l)) (beBytes_ofNat (padTo_length 24 b) rfl)
  all_goals rfl

/-! ### Frames, R32 -/

/-- A frame's bytes before its CRC. -/
def frameHead (ty : Nat) (payload : List Byte) : List Byte := beBytes 1 ty ++ beBytes 2 payload.length ++ payload

/-- A frame, its CRC behind it. -/
def frameOf (ty : Nat) (payload : List Byte) : List Byte := frameHead ty payload ++ beBytes 2 (crc16 (frameHead ty payload))

theorem frameOf_type {ty : Nat} (hty : ty < 256) (payload : List Byte) : byteAt (frameOf ty payload) 0 = ty := by
  unfold byteAt frameOf frameHead
  simp [beBytes, Nat.mod_eq_of_lt hty]

theorem frameOf_length (ty : Nat) (payload : List Byte) : (frameOf ty payload).length = payload.length + 5 := by
  simp [frameOf, frameHead]; omega

theorem frameHead_length (ty : Nat) (payload : List Byte) : (frameHead ty payload).length = payload.length + 3 := by
  simp [frameHead]; omega

theorem frameOf_count (ty : Nat) {payload : List Byte} (short : payload.length ≤ 1024) : bytesAt (frameOf ty payload) 1 2 = payload.length := by
  have := bytesAt_append (beBytes 1 ty) (beBytes 2 payload.length) (payload ++ beBytes 2 (crc16 (frameHead ty payload)))
  rw [beBytes_length, beBytes_length, ofBytes_beBytes (by omega)] at this
  rw [← this]
  simp [frameOf, frameHead]

theorem frameOf_crc (ty : Nat) (payload : List Byte) :
    crc16 ((frameOf ty payload).take (payload.length + 3)) = bytesAt (frameOf ty payload) (payload.length + 3) 2 := by
  have := bytesAt_append (frameHead ty payload) (beBytes 2 (crc16 (frameHead ty payload))) []
  rw [beBytes_length, frameHead_length, ofBytes_beBytes (crc16_lt _), List.append_nil] at this
  rw [frameOf, this, List.take_left' (frameHead_length ty payload)]

theorem frameOf_payload (ty : Nat) (payload : List Byte) : ((frameOf ty payload).drop 3).take payload.length = payload := by
  have : frameOf ty payload = (beBytes 1 ty ++ beBytes 2 payload.length) ++ (payload ++ beBytes 2 (crc16 (frameHead ty payload))) := by
    simp [frameOf, frameHead]
  rw [this, List.drop_left' (by simp), List.take_left]

/-- What arrives is no good frame (R32). -/
def badFrame (err ends : Bool) (body : List Byte) : Bool :=
  err || !ends || decide (1024 < bytesAt body 1 2) || body.length != bytesAt body 1 2 + 5
    || crc16 (body.take (bytesAt body 1 2 + 3)) != bytesAt body (bytesAt body 1 2 + 3) 2 || byteAt body 0 == 0 || decide (3 < byteAt body 0)

theorem frameOf_good {ty : Nat} (low : 1 ≤ ty) (high : ty ≤ 3) {payload : List Byte} (short : payload.length ≤ 1024) :
    badFrame false true (frameOf ty payload) = false := by
  unfold badFrame
  rw [frameOf_count ty short, frameOf_type (by omega), frameOf_length, frameOf_crc]
  simp
  omega

/-- A frame that is good by what stands in it has a CRC that matches. -/
theorem badFrame_of_crc {err ends : Bool} {body : List Byte}
    (bad : err = true ∨ ends = false ∨ (5 ≤ body.length ∧ crc16 (body.take (body.length - 2)) ≠ bytesAt body (body.length - 2) 2)) :
    badFrame err ends body = true := by
  unfold badFrame
  rcases bad with rfl | rfl | ⟨_, crc⟩
  · simp
  · simp
  · by_cases len : body.length = bytesAt body 1 2 + 5
    · rw [show body.length - 2 = bytesAt body 1 2 + 3 by omega] at crc
      simp [bne_iff_ne.mpr crc]
    · simp [bne_iff_ne.mpr len]

theorem sbFrame_bad {s : State} (up : s.sbUp = true) {err ends : Bool} {body : List Byte} (bad : badFrame err ends body = true) (seen off : BitVec 24) :
    exec (.sbFrameReceive err body ends seen off) s = done s (s.count CNT_SB_BAD) :=
  congrArg (done s) ((if_neg (ne_true_of_eq_false (congrArg not up))).trans (if_pos bad))

theorem sbFrame_training {s : State} (up : s.sbUp = true) {payload : List Byte} (short : payload.length ≤ 1024) (seen off : BitVec 24) :
    exec (.sbFrameReceive false (frameOf 1 payload) true seen off) s
      = done s (s.onTraining (byteAt payload 0) (payload.drop 2) seen.toNat off.toNat) := by
  have good := frameOf_good (ty := 1) (by decide) (by decide) short
  have carried : ((frameOf 1 payload).drop 3).take (bytesAt (frameOf 1 payload) 1 2) = payload := by
    rw [frameOf_count 1 short, frameOf_payload]
  refine congrArg (done s) ((if_neg (ne_true_of_eq_false (congrArg not up))).trans ((if_neg (ne_true_of_eq_false good)).trans
    ((if_pos (frameOf_type (by decide) payload)).trans ?_)))
  rw [carried]

theorem sbFrame_noted {s : State} (up : s.sbUp = true) {payload : List Byte} (short : payload.length ≤ 1024) (seen off : BitVec 24) :
    exec (.sbFrameReceive false (frameOf 3 payload) true seen off) s = .next s := by
  have good := frameOf_good (ty := 3) (by decide) (by decide) short
  have ty := frameOf_type (ty := 3) (by decide) payload
  exact (congrArg (done s) ((if_neg (ne_true_of_eq_false (congrArg not up))).trans ((if_neg (ne_true_of_eq_false good)).trans
    ((if_neg (by rw [ty]; decide)).trans (if_neg (by rw [ty]; decide)))))).trans (done_eq_next rfl rfl)

/-! ### Blocks, R110 -/

/-- A training block's bytes between its marker and its CRC. -/
def blockBody (tcode x : Byte) (n : Nat) (b : List Byte) : List Byte := [tcode, x] ++ beBytes 2 n ++ b

/-- A training block: the marker, the body, its CRC and two bytes of zero. -/
def blockBytes (m : List Byte) : List Byte := beBytes 4 0xBC4ABC4A ++ m ++ beBytes 2 (crc16 m) ++ [0, 0]

theorem blockBytes_eq (m : List Byte) : blockBytes m = [0xBC, 0x4A, 0xBC, 0x4A] ++ (m ++ (beBytes 2 (crc16 m) ++ [0, 0])) := by
  have : beBytes 4 0xBC4ABC4A = [0xBC, 0x4A, 0xBC, 0x4A] := by decide
  rw [blockBytes, this]; simp

theorem blockBody_eq (tcode x : Byte) (n : Nat) (b : List Byte) : blockBody tcode x n b = tcode :: x :: (beBytes 2 n ++ b) := rfl

theorem blockBody_length {tcode x : Byte} {n : Nat} {b : List Byte} (hb : b.length = 52) : (blockBody tcode x n b).length = 56 := by
  simp [blockBody_eq, hb]

theorem blockBytes_good {m : List Byte} (hm : m.length = 56) :
    bytesAt (blockBytes m) 0 4 = 0xBC4ABC4A ∧ crc16 (((blockBytes m).drop 4).take 56) = bytesAt (blockBytes m) 60 2 := by
  have crc := bytesAt_append ([0xBC, 0x4A, 0xBC, 0x4A] ++ m) (beBytes 2 (crc16 m)) [0, 0]
  rw [List.length_append, hm, beBytes_length, ofBytes_beBytes (crc16_lt m), List.append_assoc] at crc
  rw [blockBytes_eq]
  refine ⟨rfl, Eq.trans ?_ crc.symm⟩
  have front : ∀ r : List Byte, ([0xBC, 0x4A, 0xBC, 0x4A] ++ r).drop 4 = r := fun _ => rfl
  rw [front, List.take_left' hm]

theorem beBytes_blockBytes {m : List Byte} (hm : m.length = 56) : beBytes 64 (BitVec.ofNat 512 (ofBytes (blockBytes m))).toNat = blockBytes m :=
  beBytes_ofNat (by simp [blockBytes, hm]) rfl

theorem block_bad {s : State} (far : s.far = true) {block : BitVec 512}
    (bad : crc16 (((beBytes 64 block.toNat).drop 4).take 56) ≠ bytesAt (beBytes 64 block.toNat) 60 2) (seen off : BitVec 24) :
    exec (.trainingBlockReceive block seen off) s = done s (s.count CNT_SB_BAD) :=
  congrArg (done s) ((if_neg (ne_true_of_eq_false (congrArg not far))).trans (if_pos (by rw [bne_iff_ne.mpr bad, Bool.or_true])))

theorem block_good {s : State} (far : s.far = true) {m : List Byte} (hm : m.length = 56) (seen off : BitVec 24) :
    exec (.trainingBlockReceive (BitVec.ofNat 512 (ofBytes (blockBytes m))) seen off) s = done s (s.onBlock (blockBytes m) seen.toNat off.toNat) := by
  obtain ⟨marker, crc⟩ := blockBytes_good hm
  unfold exec
  simp only [execTrainingBlockReceive, beBytes_blockBytes hm]
  refine congrArg (done s) ((if_neg (ne_true_of_eq_false (congrArg not far))).trans (if_neg ?_))
  rw [marker, crc]
  simp

/-- What a block says beside its lane. -/
def blockKey (tcode : Byte) (n : Nat) (b : List Byte) : List Byte := [tcode] ++ beBytes 2 n ++ b

section

variable {tcode x : Byte} {n : Nat} {b : List Byte} (hb : b.length = 52)

theorem blockBytes_cons (tcode x : Byte) (n : Nat) (b : List Byte) : blockBytes (blockBody tcode x n b)
    = [0xBC, 0x4A, 0xBC, 0x4A, tcode, x] ++ ((beBytes 2 n ++ b) ++ (beBytes 2 (crc16 (blockBody tcode x n b)) ++ [0, 0])) := by
  rw [blockBytes_eq, blockBody_eq]; rfl

theorem block_tcode (tcode x : Byte) (n : Nat) (b : List Byte) : byteAt (blockBytes (blockBody tcode x n b)) 4 = tcode.toNat := by
  rw [blockBytes_cons]; rfl

theorem block_count (tcode x : Byte) {n : Nat} (hn : n < 2 ^ 16) (b : List Byte) : bytesAt (blockBytes (blockBody tcode x n b)) 6 2 = n := by
  have := bytesAt_append [0xBC, 0x4A, 0xBC, 0x4A, tcode, x] (beBytes 2 n) (b ++ (beBytes 2 (crc16 (blockBody tcode x n b)) ++ [0, 0]))
  rw [ofBytes_beBytes hn, beBytes_length] at this
  rw [blockBytes_cons, List.append_assoc (beBytes 2 n)]
  exact this

include hb

theorem blockContent_eq : blockContent (blockBytes (blockBody tcode x n b)) = (blockKey tcode n b, x.toNat) := by
  have content : ((blockBytes (blockBody tcode x n b)).drop 6).take 54 = beBytes 2 n ++ b := by
    have front : ∀ r : List Byte, ([0xBC, 0x4A, 0xBC, 0x4A, tcode, x] ++ r).drop 6 = r := fun _ => rfl
    rw [blockBytes_cons, front, List.take_left' (by simp [hb])]
  unfold blockContent
  rw [content, blockBytes_cons]
  rfl

theorem block_data (hn : n ≤ 52) : ((blockBytes (blockBody tcode x n b)).drop 8).take (min 52 (bytesAt (blockBytes (blockBody tcode x n b)) 6 2))
    = b.take n := by
  have front : (blockBytes (blockBody tcode x n b)).drop 8 = b ++ (beBytes 2 (crc16 (blockBody tcode x n b)) ++ [0, 0]) := by
    rw [blockBytes_cons, List.append_assoc (beBytes 2 n), ← List.append_assoc]
    exact List.drop_left' (by simp)
  rw [front, block_count tcode x (by omega), Nat.min_eq_right hn, List.take_append_of_le_length (by omega)]

/-- A block with this content is a copy where its content was acted on and its lane had not brought it (R110). -/
theorem isCopy_eq (s : State) : s.isCopy (blockBytes (blockBody tcode x n b)) = true ↔
    ∃ l, s.lnk.copy = some (blockKey tcode n b, l) ∧ x.toNat ∉ l := by
  unfold State.isCopy
  rw [blockContent_eq hb]
  cases copy : s.lnk.copy with
  | none => simp
  | some p =>
    obtain ⟨key, l⟩ := p
    simp only [Bool.and_eq_true, beq_iff_eq, Bool.not_eq_true', List.contains_eq_mem, decide_eq_false_iff_not, Option.some.injEq, Prod.mk.injEq]
    constructor
    · rintro ⟨same, fresh⟩
      exact ⟨l, ⟨same, rfl⟩, fresh⟩
    · rintro ⟨k, ⟨same, rfl⟩, fresh⟩
      exact ⟨same, fresh⟩

/-- A block that is no copy does what its message does (R110). -/
theorem onBlock_first (hn : n ≤ 52) {s : State} (first : ∀ l, s.lnk.copy = some (blockKey tcode n b, l) → x.toNat ∈ l) (seen off : Nat) :
    s.onBlock (blockBytes (blockBody tcode x n b)) seen off
      = ({ s with lnk := { s.lnk with copy := some (blockKey tcode n b, [x.toNat]) } }).onTraining tcode.toNat (b.take n) seen off := by
  have fresh : s.isCopy (blockBytes (blockBody tcode x n b)) ≠ true := fun copy => by
    obtain ⟨l, had, out⟩ := (isCopy_eq hb s).mp copy
    exact out (first l had)
  refine (if_neg fresh).trans ?_
  rw [blockContent_eq hb, block_tcode, block_data hb hn]

/-- A further copy notes its lane (R110). -/
theorem onBlock_copy {s : State} {l : List Nat} (had : s.lnk.copy = some (blockKey tcode n b, l)) (out : x.toNat ∉ l) (seen off : Nat) :
    s.onBlock (blockBytes (blockBody tcode x n b)) seen off = { s with lnk := { s.lnk with copy := some (blockKey tcode n b, x.toNat :: l) } } := by
  refine (if_pos ((isCopy_eq hb s).mpr ⟨l, had, out⟩)).trans ?_
  rw [blockContent_eq hb, had]
  rfl

end

end Sys2Proof.Machine

namespace Sys2Proof

open Machine

theorem counted_sbBad (s : State) : done s (s.count CNT_SB_BAD) = .next (s.count CNT_SB_BAD) ∧ counted CNT_SB_BAD 1 s (s.count CNT_SB_BAD)
    ∧ OnlyRegs [CNT_SB_BAD.off] s (s.count CNT_SB_BAD) :=
  have only := onlyRegs_count s CNT_SB_BAD 1 rfl
  ⟨only.done, State.cnt_count s CNT_SB_BAD 1 rfl, only⟩

/-- Settles O43: a good frame or block carries its message (`sbFrame_training`, `onBlock_first`) to the row that `exec_trainingRow` names. -/
theorem trainingMessagesAreCarried : Obligations.TrainingMessagesAreCarried := by
  unfold Obligations.TrainingMessagesAreCarried
  intro s seen off
  refine ⟨fun up => ⟨fun tcode x b c short row => ?_, fun b short => ?_, fun err ends body bad => ?_⟩,
    fun far => ⟨fun tcode x n b c hb hn row => ⟨fun first => ?_, fun l had out => ?_⟩, fun block bad => ?_⟩⟩
  · have frame : beBytes 1 1 ++ beBytes 2 (b.length + 2) ++ [tcode, x] ++ b = frameHead 1 (tcode :: x :: b) := by simp [frameHead]
    rw [frame]
    exact ⟨_, sbFrame_training up (payload := tcode :: x :: b) (by simp; omega) seen off, exec_trainingRow row s⟩
  · exact sbFrame_noted up short seen off
  · obtain ⟨next, counts, only⟩ := counted_sbBad s
    exact ⟨_, (sbFrame_bad up (badFrame_of_crc bad) seen off).trans next, counts, only⟩
  · refine ⟨_, (block_good far (blockBody_length hb) seen off).trans (congrArg (done s) (onBlock_first hb hn first _ _)), ?_⟩
    exact exec_trainingRow row _
  · refine (block_good far (blockBody_length hb) seen off).trans ?_
    rw [onBlock_copy hb had out]
    exact done_eq_next rfl rfl
  · obtain ⟨next, counts, only⟩ := counted_sbBad s
    exact ⟨_, (block_bad far bad seen off).trans next, counts, only⟩

end Sys2Proof
end

section
/-! SUPPORT. Training: what is said, how equalisation is set and searched, and how a mode stands (R43, R111–R116, R129). -/

namespace Sys2Proof.Machine

/-! ### What is said, R110 -/

/-- What is said leaves toward the peer at once: it does not cross to the core side. -/
theorem State.say_eq (s : State) (tcode : Nat) (body : List Byte) : s.say tcode body = { s with out := s.trainOut tcode body :: s.out } := by
  refine State.emit_inner s _ ?_
  unfold State.trainOut
  split <;> rfl

@[simp] theorem State.say_regs (s : State) (tcode : Nat) (body : List Byte) : (s.say tcode body).regs = s.regs := by rw [State.say_eq]
@[simp] theorem State.say_rd (s : State) (tcode : Nat) (body : List Byte) (off : Nat) : (s.say tcode body).rd off = s.rd off := by rw [State.say_eq]; rfl
@[simp] theorem State.say_lnk (s : State) (tcode : Nat) (body : List Byte) : (s.say tcode body).lnk = s.lnk := by rw [State.say_eq]
@[simp] theorem State.say_place (s : State) (tcode : Nat) (body : List Byte) : (s.say tcode body).place = s.place := by rw [State.say_eq]
@[simp] theorem State.say_pending (s : State) (tcode : Nat) (body : List Byte) : (s.say tcode body).pending = s.pending := by rw [State.say_eq]
@[simp] theorem State.say_out (s : State) (tcode : Nat) (body : List Byte) : (s.say tcode body).out = s.trainOut tcode body :: s.out := by
  rw [State.say_eq]

@[simp] theorem State.sayUntil_regs (s : State) (tcode : Nat) (body : List Byte) : (s.sayUntil tcode body).regs = s.regs := State.say_regs s tcode body
@[simp] theorem State.sayUntil_rd (s : State) (tcode : Nat) (body : List Byte) (off : Nat) : (s.sayUntil tcode body).rd off = s.rd off :=
  State.say_rd s tcode body off
@[simp] theorem State.sayUntil_place (s : State) (tcode : Nat) (body : List Byte) : (s.sayUntil tcode body).place = s.place := State.say_place s tcode body
@[simp] theorem State.sayUntil_out (s : State) (tcode : Nat) (body : List Byte) : (s.sayUntil tcode body).out = s.trainOut tcode body :: s.out :=
  State.say_out s tcode body

/-- Of the link, what is said until it is answered changes the messages alone. -/
theorem State.sayUntil_lnk (s : State) (tcode : Nat) (body : List Byte) :
    (s.sayUntil tcode body).lnk = { s.lnk with msgs := (s.sayUntil tcode body).lnk.msgs } := by
  unfold State.sayUntil
  simp only [State.say_lnk]

/-- Where a message goes follows the place and the lanes in Training. -/
theorem State.trainOut_of {s t : State} (place : t.place = s.place) (lanes : ∀ l ∈ s.lanes, t.laneState l = s.laneState l) (tcode : Nat) (body : List Byte) :
    t.trainOut tcode body = s.trainOut tcode body := by
  have same : t.lanes = s.lanes := congrArg laneList place
  have training : t.lanes.filter (fun l => t.laneState l == 2) = s.lanes.filter (fun l => s.laneState l == 2) := by
    rw [same]
    exact List.filter_congr fun l hl => by rw [lanes l hl]
  unfold State.trainOut State.far
  rw [place, training]

/-! ### Requests of values, R43 and R45 -/

/-- Allowed transmit codes are those of the word they make. -/
theorem eqOfWord_eqWord {swing pre2 pre1 post1 : Nat} (ok : eqAllowed swing pre2 pre1 post1 = true) :
    eqOfWord (eqWord swing pre2 pre1 post1) = (swing, pre2, pre1, post1) := by
  obtain ⟨hs, h2, h1, hp, -⟩ := of_decide_eq_true ok
  simp only [eqOfWord, eqWord, bitsOf, Prod.mk.injEq]
  omega

/-- A word of allowed codes is allowed. -/
theorem codesAllowed_eqWord {swing pre2 pre1 post1 : Nat} (ok : eqAllowed swing pre2 pre1 post1 = true) :
    codesAllowed (eqWord swing pre2 pre1 post1) = true := by
  unfold codesAllowed
  rw [eqOfWord_eqWord ok]
  exact ok

/-- The transmit values of an EQ-SET. -/
def codesIn (m : EqMsg) : Nat × Nat × Nat × Nat := (m.vals.swing.toNat, m.vals.pre2.toNat, m.vals.pre1.toNat, m.vals.post1.toNat)

/-- They are ones that R43 allows. -/
def allowedIn (m : EqMsg) : Bool := eqAllowed m.vals.swing.toNat m.vals.pre2.toNat m.vals.pre1.toNat m.vals.post1.toNat

/-- The word of them. -/
def wordIn (m : EqMsg) : Nat := eqWord m.vals.swing.toNat m.vals.pre2.toNat m.vals.pre1.toNat m.vals.post1.toNat

theorem codesAllowed_wordIn {m : EqMsg} (ok : allowedIn m = true) : codesAllowed (wordIn m) = true := codesAllowed_eqWord ok

/-- An EQ-SET is answered with the values in force. -/
def State.eqAnswer (s : State) (m : EqMsg) : State :=
  let e := eqOfWord (s.rd (LANE_TXEQ m.lane.toNat))
  s.say 3 (eqBody m.reqid.toNat m.lane.toNat m.mode.toNat e.1 e.2.1 e.2.2.1 e.2.2.2)

theorem State.onEqSet_eq {s : State} {m : EqMsg} (equalise : s.link = 2) (has : s.lanes.contains m.lane.toNat = true) :
    s.onEqSet m = (if allowedIn m && eqOfWord (s.rd (LANE_TXEQ m.lane.toNat)) != codesIn m then s.writeTx m.lane.toNat (wordIn m) else s).eqAnswer m :=
  if_neg (by simp only [equalise, has]; decide)

/-- The state in which the values of an EQ-SET are in force on a lane that is not in use. -/
def State.eqSetTaken (s : State) (m : EqMsg) : State :=
  if eqOfWord (s.rd (LANE_TXEQ m.lane.toNat)) = codesIn m then s else s.applyTx m.lane.toNat (wordIn m)

theorem State.onEqSet_allowed {s : State} {m : EqMsg} (equalise : s.link = 2) (has : s.lanes.contains m.lane.toNat = true) (ok : allowedIn m = true)
    (idle : s.laneState m.lane.toNat ≠ 3) (still : s.age.sweep = none) : s.onEqSet m = (s.eqSetTaken m).eqAnswer m := by
  rw [State.onEqSet_eq equalise has, State.eqSetTaken, ok, Bool.true_and]
  by_cases same : eqOfWord (s.rd (LANE_TXEQ m.lane.toNat)) = codesIn m
  · rw [if_pos same, if_neg (by simp [same])]
  · rw [if_neg same, if_pos (bne_iff_ne.mpr same), State.writeTx_idle still idle (codesAllowed_wordIn ok)]

theorem State.onEqSet_forbidden {s : State} {m : EqMsg} (equalise : s.link = 2) (has : s.lanes.contains m.lane.toNat = true) (bad : allowedIn m = false) :
    s.onEqSet m = s.eqAnswer m := by
  rw [State.onEqSet_eq equalise has, bad]
  rfl

theorem State.eqSetTaken_codes {s : State} {m : EqMsg} (ok : allowedIn m = true) : eqOfWord ((s.eqSetTaken m).rd (LANE_TXEQ m.lane.toNat)) = codesIn m := by
  unfold State.eqSetTaken
  split
  next same => exact same
  next => exact (s.applyTx_codes _ _).trans (eqOfWord_eqWord ok)

theorem State.eqSetTaken_only (s : State) (m : EqMsg) : OnlyRegs [LANE_TXEQ m.lane.toNat] s (s.eqSetTaken m) := by
  unfold State.eqSetTaken
  split
  · exact OnlyRegs.refl _ s
  · exact onlyRegs_applyTx s _ _

@[simp] theorem State.eqSetTaken_place (s : State) (m : EqMsg) : (s.eqSetTaken m).place = s.place := by
  unfold State.eqSetTaken; split <;> simp
@[simp] theorem State.eqSetTaken_pending (s : State) (m : EqMsg) : (s.eqSetTaken m).pending = s.pending := by
  unfold State.eqSetTaken; split <;> simp
@[simp] theorem State.eqSetTaken_out (s : State) (m : EqMsg) : (s.eqSetTaken m).out = s.out := by
  unfold State.eqSetTaken; split
  · rfl
  · exact State.setFs_out s _

/-- An answer leaves with the values in force. -/
theorem State.eqAnswer_done {s u : State} (m : EqMsg) (pending : u.pending = s.pending) (place : u.place = s.place) :
    done s (u.eqAnswer m) = .next (u.eqAnswer m) := done_eq_next ((u.say_pending _ _).trans pending) ((u.say_place _ _).trans place)

/-! ### Answers to requests, R112 -/

/-- A request of values in Equalise: EQ-SET with this `REQID` for this lane. -/
def asksFor (m : EqMsg) (t : TrainMsg) : Bool := t.tcode == 2 && t.body.take 2 == [m.reqid, m.lane]

theorem State.onEqDone_open {s : State} {m : EqMsg} (waits : ∃ x ∈ s.lnk.msgs, x.tcode = 2 ∧ x.body.take 2 = [m.reqid, m.lane]) :
    s.onEqDone m = (s.answered (asksFor m)).setAsked m.lane.toNat (wordIn m) := by
  obtain ⟨x, hx, code, body⟩ := waits
  have any : s.lnk.msgs.any (asksFor m) = true := List.any_eq_true.mpr ⟨x, hx, by simp [asksFor, code, body]⟩
  exact if_neg (ne_true_of_eq_false (congrArg not any))

theorem State.setAsked_asked (s : State) (l w : Nat) : (s.setAsked l w).askedOf l = w := by
  have none_before : (s.lnk.asked.filter (fun p => p.1 != l)).find? (fun p => p.1 == l) = none := by simp
  unfold State.askedOf State.setAsked
  rw [List.find?_append, none_before]
  simp

/-! ### A mode stands, R116 -/

/-- The width that a change of the link's state shows. -/
def State.widthIn (s : State) (st : Nat) : Nat := if st = 4 || st == 5 then (s.setF LINK_STATUS_STATE st).mapList.length else 0

/-- The link's state and width as a change of state shows them. -/
def State.linkShown (s : State) (st : Nat) : State := (s.setF LINK_STATUS_STATE st).setF LINK_STATUS_WIDTH (s.widthIn st)

/-- The tick from which the link is in its state. -/
def State.sinceNow (s : State) : State := { s with lnk := { s.lnk with since := s.now } }

theorem State.linkShown_lnk (s : State) (st : Nat) : (s.linkShown st).lnk = s.lnk := by rw [State.linkShown, State.setF_lnk, State.setF_lnk]
theorem State.linkShown_now (s : State) (st : Nat) : (s.linkShown st).now = s.now := by rw [State.linkShown, State.setF_now, State.setF_now]
theorem State.linkShown_place (s : State) (st : Nat) : (s.linkShown st).place = s.place := by rw [State.linkShown, State.setF_place, State.setF_place]
theorem State.rd_linkShown (s : State) (st : Nat) {off : Nat} (apart : off ≠ LINK_STATUS) : (s.linkShown st).rd off = s.rd off :=
  (State.rd_setF_ne _ _ _ apart).trans (State.rd_setF_ne _ _ _ apart)

theorem State.rd_sinceNow (s : State) (off : Nat) : s.sinceNow.rd off = s.rd off := rfl
theorem State.sinceNow_lnk (s : State) : s.sinceNow.lnk = { s.lnk with since := s.now } := rfl
theorem State.sinceNow_place (s : State) : s.sinceNow.place = s.place := rfl

/-- A change of the link's state is traced where its trace is on. -/
def State.linkTraced (s : State) (old st cause w : Nat) : State :=
  if s.getB TRACE_CTRL_LINK && old != st then
    s.trace 4 (beBytes 1 old ++ beBytes 1 st ++ beBytes 1 cause ++ beBytes 1 w ++ beBytes 4 0 ++ beBytes 8 s.tick)
  else s

theorem State.setLink_eq (s : State) (st cause : Nat) :
    s.setLink st cause = (s.linkShown st).sinceNow.linkTraced s.link st cause (s.widthIn st) := by
  unfold State.setLink State.linkTraced State.sinceNow State.linkShown State.widthIn
  rfl

theorem State.rd_linkTraced (s : State) (old st cause w : Nat) {off : Nat} (plain : Plain off) : (s.linkTraced old st cause w).rd off = s.rd off := by
  unfold State.linkTraced
  split
  · exact State.rd_trace _ _ _ plain
  · rfl

@[simp] theorem State.linkTraced_lnk (s : State) (old st cause w : Nat) : (s.linkTraced old st cause w).lnk = s.lnk := by
  unfold State.linkTraced; split <;> simp
@[simp] theorem State.linkTraced_place (s : State) (old st cause w : Nat) : (s.linkTraced old st cause w).place = s.place := by
  unfold State.linkTraced; split <;> simp

theorem State.setLink_lnk (s : State) (st cause : Nat) : (s.setLink st cause).lnk = { s.lnk with since := s.now } := by
  rw [State.setLink_eq, State.linkTraced_lnk, State.sinceNow_lnk, State.linkShown_lnk, State.linkShown_now]

theorem State.setLink_words (s : State) (st cause : Nat) {off : Nat} (plain : Plain off) (apart : off ≠ LINK_STATUS) :
    (s.setLink st cause).rd off = s.rd off := by
  rw [State.setLink_eq, State.rd_linkTraced _ _ _ _ _ plain, State.rd_sinceNow, State.rd_linkShown _ _ apart]

theorem State.setLink_status (s : State) (st cause : Nat) : (s.setLink st cause).rd LINK_STATUS = (s.linkShown st).rd LINK_STATUS := by
  rw [State.setLink_eq, State.rd_linkTraced _ _ _ _ _ (.inl (by decide)), State.rd_sinceNow]

theorem State.setLink_link (s : State) {st : Nat} (cause : Nat) (fits : st < 16) : (s.setLink st cause).link = st := by
  refine (State.getF_of_rd LINK_STATUS_STATE (s.setLink_status st cause)).trans ?_
  unfold State.linkShown
  rw [State.getF_setF_beside _ _ (by decide) (.inr (by decide)), State.getF_setF _ _ (by decide)]
  exact Nat.mod_eq_of_lt fits

theorem State.setLink_mode (s : State) (st cause : Nat) : (s.setLink st cause).getF LINK_STATUS_MODE = s.getF LINK_STATUS_MODE := by
  refine (State.getF_of_rd LINK_STATUS_MODE (s.setLink_status st cause)).trans ?_
  unfold State.linkShown
  rw [State.getF_setF_beside _ _ (by decide) (.inl (by decide)), State.getF_setF_beside _ _ (by decide) (.inl (by decide))]

theorem State.sayUntil_usable (s : State) (tcode : Nat) (body : List Byte) : (s.sayUntil tcode body).lnk.usable = s.lnk.usable := by
  rw [State.sayUntil_lnk]
theorem State.setLink_usable (s : State) (st cause : Nat) : (s.setLink st cause).lnk.usable = s.lnk.usable := by rw [State.setLink_lnk]

theorem State.rd_putRecord (s : State) (base : Nat) (r : List Byte) {off : Nat} (out : off < base ∨ base + 24 ≤ off) :
    (s.putRecord base r).rd off = s.rd off := by
  have words : ∀ (l : List Nat) (u : State), (∀ w ∈ l, w < 6) →
      (l.foldl (fun s w => s.wr (base + 4 * w) (bytesAt r (4 * w) 4)) u).rd off = u.rd off := by
    intro l
    induction l with
    | nil => exact fun _ _ => rfl
    | cons w l ih =>
      intro u hl
      have := hl w List.mem_cons_self
      rw [List.foldl_cons, ih _ fun v hv => hl v (List.mem_cons_of_mem _ hv), State.rd_wr_ne _ _ (by omega)]
  exact words _ s fun w hw => List.mem_range.mp hw

theorem State.putRecord_lnk (s : State) (base : Nat) (r : List Byte) : (s.putRecord base r).lnk = s.lnk := by
  have words : ∀ (l : List Nat) (u : State), (l.foldl (fun s w => s.wr (base + 4 * w) (bytesAt r (4 * w) 4)) u).lnk = u.lnk := by
    intro l
    induction l with
    | nil => exact fun _ => rfl
    | cons w l ih => exact fun u => (ih _).trans (u.wr_lnk _ _)
  exact words _ s

/-- The capabilities that a negotiation begins with, shown (R117). -/
def State.capShown (s : State) : State :=
  let u := s.setB LINK_STATUS_BASECAP (s.getB LINK_CTRL_BASECAP_REQ)
  u.putRecord 0x440 u.ownCap

/-- No READY of this negotiation has been made or has come. -/
def State.negReset (s : State) : State := { s with lnk := { s.lnk with negAt := s.now, ownReady := none, peerReady := none, held18 := false } }

theorem State.negotiateStart_eq (s : State) :
    s.negotiateStart = (s.hush.capShown.negReset.setLink 3 0).sayUntil 5 s.hush.capShown.negReset.ownCap := by
  unfold State.negotiateStart State.capShown State.negReset
  rfl

theorem State.rd_capShown (s : State) {off : Nat} (status : off ≠ LINK_STATUS) (out : off < 0x440 ∨ 0x458 ≤ off) : s.capShown.rd off = s.rd off := by
  rw [State.capShown, State.rd_putRecord _ _ _ out, State.rd_setB_ne _ _ _ status]

theorem State.capShown_mode (s : State) : s.capShown.getF LINK_STATUS_MODE = s.getF LINK_STATUS_MODE := by
  rw [State.capShown, State.getF_of_rd _ (State.rd_putRecord _ _ _ (.inl (by decide))), State.getF_setB_beside _ _ (by decide) (.inr (by decide))]

theorem State.capShown_lnk (s : State) : s.capShown.lnk = s.lnk := by rw [State.capShown, State.putRecord_lnk, State.setB_lnk]

theorem State.rd_negReset (s : State) (off : Nat) : s.negReset.rd off = s.rd off := rfl
theorem State.rd_hush (s : State) (off : Nat) : s.hush.rd off = s.rd off := rfl
theorem State.negReset_usable (s : State) : s.negReset.lnk.usable = s.lnk.usable := rfl
theorem State.hush_usable (s : State) : s.hush.lnk.usable = s.lnk.usable := rfl

/-- A negotiation begins (R117): the link is in Negotiate. -/
theorem State.negotiateStart_link (s : State) : s.negotiateStart.link = 3 := by
  rw [State.negotiateStart_eq, State.link, State.getF_of_rd _ (State.sayUntil_rd _ _ _ _)]
  exact State.setLink_link _ 0 (by decide)

theorem State.negotiateStart_mode (s : State) : s.negotiateStart.getF LINK_STATUS_MODE = s.getF LINK_STATUS_MODE := by
  rw [State.negotiateStart_eq, State.getF_of_rd _ (State.sayUntil_rd _ _ _ _), State.setLink_mode, State.getF_of_rd _ (State.rd_negReset _ _),
    State.capShown_mode, State.getF_of_rd _ (State.rd_hush _ _)]

theorem State.negotiateStart_usable (s : State) : s.negotiateStart.lnk.usable = s.lnk.usable := by
  rw [State.negotiateStart_eq, State.sayUntil_usable, State.setLink_usable, State.negReset_usable, State.capShown_lnk, State.hush_usable]

theorem State.rd_negotiateStart (s : State) {off : Nat} (plain : Plain off) (status : off ≠ LINK_STATUS) (out : off < 0x440 ∨ 0x458 ≤ off) :
    s.negotiateStart.rd off = s.rd off := by
  rw [State.negotiateStart_eq, State.sayUntil_rd, State.setLink_words _ _ _ plain status, State.rd_negReset, State.rd_capShown _ status out, State.rd_hush]

/-- The tick at which a start stage begins. -/
def State.stageNow (s : State) : State := { s with strt := { s.strt with stageAt := s.now } }

/-- The end of T5 begins T6 (R296). -/
theorem State.stagePass_equalise {s : State} (starting : s.starting = true) (at5 : s.stage = 5) (o : Nat) :
    s.stagePass 5 o = ((s.stageOut 5 o).setF START_STATUS_STAGE 6).stageNow.negotiateStart := by
  refine (if_neg (by rw [starting, at5]; decide)).trans ((if_neg (by decide)).trans ((if_neg fun h => Bool.false_ne_true h).trans ?_))
  unfold State.stageEnter
  rfl

/-- The mode that training works at, and its usable lanes. -/
def State.modeKept (s : State) (mode usable : Nat) : State := { s with lnk := { s.lnk with eqMode := mode, usable := usable } }

/-- The link works in a mode with its usable lanes. -/
def State.modeSet (s : State) (mode usable : Nat) : State := ((s.modeKept mode usable).setF LINK_STATUS_MODE mode).hush.setB LINK_CTRL_EQ_FULL false

theorem State.rd_modeKept (s : State) (mode usable off : Nat) : (s.modeKept mode usable).rd off = s.rd off := rfl
theorem State.modeKept_usable (s : State) (mode usable : Nat) : (s.modeKept mode usable).lnk.usable = usable := rfl
theorem State.modeKept_strt (s : State) (mode usable : Nat) : (s.modeKept mode usable).strt = s.strt := rfl
theorem State.hush_strt (s : State) : s.hush.strt = s.strt := rfl

theorem State.modeStands_eq (s : State) (mode usable : Nat) : ∃ o, s.modeStands mode usable = (s.modeSet mode usable).stagePass 5 o := ⟨_, rfl⟩

theorem State.rd_modeSet (s : State) (mode usable : Nat) {off : Nat} (status : off ≠ LINK_STATUS) (ctrl : off ≠ LINK_CTRL) :
    (s.modeSet mode usable).rd off = s.rd off := by
  rw [State.modeSet, State.rd_setB_ne _ _ _ ctrl, State.rd_hush, State.rd_setF_ne _ _ _ status, State.rd_modeKept]

theorem State.modeSet_mode (s : State) (mode usable : Nat) : (s.modeSet mode usable).getF LINK_STATUS_MODE = mode % 4 := by
  rw [State.modeSet, State.getF_of_rd _ (State.rd_setB_ne _ _ _ (by decide)), State.getF_of_rd _ (State.rd_hush _ _), State.getF_setF _ _ (by decide)]
  rfl

theorem State.modeSet_usable (s : State) (mode usable : Nat) : (s.modeSet mode usable).lnk.usable = usable := by
  rw [State.modeSet, State.setB_lnk, State.hush_usable, State.setF_lnk, State.modeKept_usable]

theorem State.modeSet_strt (s : State) (mode usable : Nat) : (s.modeSet mode usable).strt = s.strt := by
  rw [State.modeSet, State.setB_strt, State.hush_strt, State.setF_strt, State.modeKept_strt]

theorem State.modeSet_stage (s : State) (mode usable : Nat) : (s.modeSet mode usable).stage = s.stage :=
  State.getF_of_rd _ (s.rd_modeSet mode usable (by decide) (by decide))

theorem State.modeSet_starting (s : State) (mode usable : Nat) : (s.modeSet mode usable).starting = s.starting := by
  unfold State.starting
  rw [State.modeSet_strt, State.modeSet_stage]

/-- T5 has ended with an outcome, and T6 has begun. -/
def State.stage6 (s : State) (o : Nat) : State := ((s.stageOut 5 o).setF START_STATUS_STAGE 6).stageNow

theorem State.rd_stageNow (s : State) (off : Nat) : s.stageNow.rd off = s.rd off := rfl
theorem State.stageNow_lnk (s : State) : s.stageNow.lnk = s.lnk := rfl

theorem State.rd_stage6 (s : State) (o : Nat) {off : Nat} (status : off ≠ START_STATUS) (outcome : off ≠ 0x600C) : (s.stage6 o).rd off = s.rd off := by
  rw [State.stage6, State.rd_stageNow, State.rd_setF_ne _ _ _ status, State.stageOut, State.rd_setF_ne _ _ _ outcome]

theorem State.stage6_stage (s : State) (o : Nat) : (s.stage6 o).stage = 6 := by
  rw [State.stage6, State.stage, State.getF_of_rd _ (State.rd_stageNow _ _), State.getF_setF _ _ (by decide)]
  rfl

theorem State.stage6_usable (s : State) (o : Nat) : (s.stage6 o).lnk.usable = s.lnk.usable := by
  rw [State.stage6, State.stageNow_lnk, State.setF_lnk, State.stageOut, State.setF_lnk]

/-- A mode that stands in T5 ends Equalise (R116). -/
theorem State.modeStands_negotiates {s : State} (starting : s.starting = true) (at5 : s.stage = 5) (mode usable : Nat) :
    let t := s.modeStands mode usable
    t.link = 3 ∧ t.stage = 6 ∧ t.getF LINK_STATUS_MODE = mode % 4 ∧ t.lnk.usable = usable := by
  obtain ⟨o, eq⟩ := s.modeStands_eq mode usable
  have passes := State.stagePass_equalise (s := s.modeSet mode usable) ((s.modeSet_starting _ _).trans starting) ((s.modeSet_stage _ _).trans at5) o
  refine ⟨?_, ?_, ?_, ?_⟩ <;> rw [eq, passes]
  · exact State.negotiateStart_link _
  · exact (State.getF_of_rd _ (State.rd_negotiateStart _ (.inr (by decide)) (by decide) (.inr (by decide)))).trans (State.stage6_stage _ o)
  · rw [State.negotiateStart_mode]
    exact (State.getF_of_rd _ (State.rd_stage6 _ o (by decide) (by decide))).trans (s.modeSet_mode mode usable)
  · rw [State.negotiateStart_usable]
    exact (State.stage6_usable _ o).trans (s.modeSet_usable mode usable)

/-! ### The choice of a mode, R115 and R116 -/

/-- How much a mode tried carries. -/
def State.carries (s : State) (t : Nat × Nat) : Nat := widestFor s.place (s.nOf t.2) * modeRate t.1

/-- The better of two modes tried, the earlier one where they carry as much. -/
def State.better (s : State) (a : Option (Nat × Nat)) (t : Nat × Nat) : Option (Nat × Nat) :=
  match a with
  | none => some t
  | some b => if s.carries b < s.carries t then some t else some b

theorem State.bestMode_eq (s : State) : s.bestMode = s.lnk.tried.foldl s.better none := rfl

theorem State.better_mem (s : State) {l : List (Nat × Nat)} {a : Option (Nat × Nat)} {b : Nat × Nat} (h : l.foldl s.better a = some b) :
    b ∈ l ∨ a = some b := by
  induction l generalizing a with
  | nil => exact .inr h
  | cons t l ih =>
    rcases ih h with later | now
    · exact .inl (List.mem_cons_of_mem _ later)
    · cases a with
      | none =>
        obtain rfl := Option.some.inj now
        exact .inl List.mem_cons_self
      | some c =>
        unfold State.better at now
        dsimp only at now
        split at now
        · obtain rfl := Option.some.inj now
          exact .inl List.mem_cons_self
        · exact .inr now

/-- A mode that carries more than all tried before it is the best. -/
theorem State.better_last (s : State) {l : List (Nat × Nat)} {t : Nat × Nat} (more : ∀ p ∈ l, s.carries p < s.carries t) :
    (l ++ [t]).foldl s.better none = some t := by
  rw [List.foldl_append, List.foldl_cons, List.foldl_nil]
  cases best : l.foldl s.better none with
  | none => rfl
  | some b =>
    have before : b ∈ l := (s.better_mem best).resolve_right nofun
    exact if_pos (more b before)

theorem fullWidth_ne (i : Nat) : fullWidth i ≠ 0 := by unfold fullWidth; split <;> decide

/-- A mode has been tried, with the lanes usable at both ends. -/
def State.tryMode (s : State) (mask : Nat) : State := { s with lnk := { s.lnk with tried := s.lnk.tried ++ [(s.lnk.eqMode, mask)] } }

theorem State.modeChoice_full {s : State} {p : Nat} (peer : s.lnk.peerPass = some p) (equalise : s.link = 2) (sent : s.lnk.passSent = true)
    (made : s.getB START_CTRL_MFGDONE = true) (full : widestFor s.place (s.nOf (s.lnk.ownPass &&& p)) = fullWidth s.place)
    (more : ∀ q ∈ s.lnk.tried, widestFor s.place (s.nOf q.2) * modeRate q.1 < fullWidth s.place * modeRate s.lnk.eqMode) :
    s.modeChoice = (s.tryMode (s.lnk.ownPass &&& p)).modeStands s.lnk.eqMode (s.lnk.ownPass &&& p) := by
  have best : (s.tryMode (s.lnk.ownPass &&& p)).bestMode = some (s.lnk.eqMode, s.lnk.ownPass &&& p) :=
    State.better_last (s.tryMode (s.lnk.ownPass &&& p)) fun q hq => (more q hq).trans_eq (congrArg (· * modeRate s.lnk.eqMode) full.symm)
  have width : widestFor (s.tryMode (s.lnk.ownPass &&& p)).place ((s.tryMode (s.lnk.ownPass &&& p)).nOf (s.lnk.ownPass &&& p)) = fullWidth s.place := full
  have nonzero : widestFor (s.tryMode (s.lnk.ownPass &&& p)).place ((s.tryMode (s.lnk.ownPass &&& p)).nOf (s.lnk.ownPass &&& p)) ≠ 0 := by
    rw [width]; exact fullWidth_ne _
  have open_ : (s.link != 2 || !s.lnk.passSent) = false := by rw [equalise, sent]; rfl
  have mfg : (!s.getB START_CTRL_MFGDONE) = false := by rw [made]; rfl
  unfold State.modeChoice
  rw [peer]
  dsimp only
  rw [if_neg (ne_true_of_eq_false open_), if_neg (ne_true_of_eq_false mfg)]
  unfold State.tryMode at best nonzero width ⊢
  rw [if_pos (beq_iff_eq.mpr width), best]
  dsimp only
  rw [if_neg nonzero]

theorem State.modeChoice_waits {s : State} (waits : s.lnk.passSent = false) : s.modeChoice = s := by
  unfold State.modeChoice
  split
  · rfl
  · exact if_pos (by rw [waits, Bool.not_false, Bool.or_true])

theorem State.modeChoice_alone {s : State} (alone : s.lnk.peerPass = none) : s.modeChoice = s := by
  unfold State.modeChoice; rw [alone]

/-- The peer's EQ-RESULT is kept, and this end's own need not be sent again. -/
def State.heardResult (s : State) (pass : Nat) : State :=
  { s with lnk := { s.lnk with msgs := s.lnk.msgs.filter (fun x => !(x.tcode == 4)), peerPass := some pass } }

theorem State.onResult_first {s : State} {mode pass : Nat} (equalise : s.link = 2) (current : mode = s.lnk.eqMode) (first : s.lnk.peerPass = none) :
    s.onResult mode pass = (s.heardResult pass).modeChoice := by
  refine (if_pos (by rw [equalise, current, beq_self_eq_true]; rfl)).trans (if_neg ?_)
  exact ne_true_of_eq_false (congrArg Option.isSome first)

theorem eqResult_waits {s : State} {mode : Byte} (pass : BitVec 24) (equalise : s.link = 2) (current : mode.toNat = s.lnk.eqMode)
    (first : s.lnk.peerPass = none) (waits : s.lnk.passSent = false) :
    exec (.eqResultMessage mode pass) s = .next (s.heardResult pass.toNat) := by
  have same : (s.heardResult pass.toNat).modeChoice = s.heardResult pass.toNat := State.modeChoice_waits waits
  exact (congrArg (done s) ((State.onResult_first equalise current first).trans same)).trans (done_eq_next rfl rfl)

theorem eqResult_full {s : State} {mode : Byte} {pass : BitVec 24} (equalise : s.link = 2) (current : mode.toNat = s.lnk.eqMode)
    (first : s.lnk.peerPass = none) (sent : s.lnk.passSent = true) (made : s.getB START_CTRL_MFGDONE = true) (at5 : s.stage = 5) (starting : s.starting = true)
    (full : widestFor s.place (s.nOf (s.lnk.ownPass &&& pass.toNat)) = fullWidth s.place)
    (more : ∀ q ∈ s.lnk.tried, widestFor s.place (s.nOf q.2) * modeRate q.1 < fullWidth s.place * modeRate s.lnk.eqMode) :
    ∃ t, exec (.eqResultMessage mode pass) s = .next t ∧ t.link = 3 ∧ t.stage = 6 ∧ t.getF LINK_STATUS_MODE = s.lnk.eqMode % 4
      ∧ t.lnk.usable = s.lnk.ownPass &&& pass.toNat := by
  have chosen := State.modeChoice_full (s := s.heardResult pass.toNat) (p := pass.toNat) rfl equalise sent made full more
  obtain ⟨link, stage, mode', usable⟩ := State.modeStands_negotiates (s := (s.heardResult pass.toNat).tryMode (s.lnk.ownPass &&& pass.toNat))
    starting at5 s.lnk.eqMode (s.lnk.ownPass &&& pass.toNat)
  exact ⟨_, congrArg (done s) ((State.onResult_first equalise current first).trans chosen), link, stage, mode', usable⟩

/-! ### A point of the search for transmit values, R45 -/

/-- A request of a lane's values, over SB or as LANE-EQ, changes no register. -/
theorem State.askVals_regs (s : State) (l w : Nat) : (s.askVals l w).regs = s.regs := by
  unfold State.askVals
  dsimp only
  split
  · exact State.sayUntil_regs _ _ _
  · rfl

theorem State.askVals_searches (s : State) (l w : Nat) : (s.askVals l w).lnk.searches = s.lnk.searches := by
  unfold State.askVals
  dsimp only
  split
  · rw [State.sayUntil_lnk]; rfl
  · rfl

theorem State.searchOf_lane {s : State} {l : Nat} {q : Search} (h : s.searchOf l = some q) : q.lane = l := by
  have := List.find?_some h
  exact beq_iff_eq.mp this

theorem State.searchOf_setSearch (s : State) {l : Nat} {q : Search} (h : q.lane = l) : (s.setSearch l (some q)).searchOf l = some q := by
  have none_before : (s.lnk.searches.filter (fun x => x.lane != l)).find? (fun x => x.lane == l) = none := by simp
  unfold State.searchOf State.setSearch
  rw [List.find?_append, none_before]
  simp [h]

/-- A point of the search as it leaves the search, with one more to try: the better of two estimates is kept. -/
def Search.next (q : Search) (snr w : Nat) (r : List Nat) : Search :=
  { q with
    cur := w
    left := r
    best := if q.seen = false ∨ q.bestSnr < snr then q.cur else q.best
    bestSnr := if q.seen = false ∨ q.bestSnr < snr then snr else q.bestSnr
    seen := true }

theorem State.searchPoint_more {s : State} {l snr : Nat} {q : Search} {w : Nat} {r : List Nat} (search : s.searchOf l = some q) (values : q.swing = false)
    (more : q.left = w :: r) : s.searchPoint l snr = (s.setSearch l (some (q.next snr w r))).askVals l w := by
  have better : (!q.seen || decide (q.bestSnr < snr)) = decide (q.seen = false ∨ q.bestSnr < snr) := by
    cases q.seen <;> simp
  unfold State.searchPoint Search.next
  simp only [search, values, more, better, Bool.false_and, Bool.false_eq_true, decide_eq_true_eq, ↓reduceIte]

/-- The estimate of a lane's signal is shown (R45). -/
def State.snrShown (s : State) (l snr : Nat) : State := (s.setF (LANE_SNR_SNR l) snr).setB (LANE_SNR_VALID l) true

theorem State.snrShown_snr (s : State) (l : Nat) (snr : BitVec 16) : (s.snrShown l snr.toNat).getF (LANE_SNR_SNR l) = snr.toNat := by
  rw [State.snrShown, State.getF_setB_beside _ _ (of_decide_eq_true rfl) (of_decide_eq_true rfl), State.getF_setF _ _ (of_decide_eq_true rfl)]
  exact Nat.mod_eq_of_lt snr.isLt

theorem State.snrShown_valid (s : State) (l snr : Nat) : (s.snrShown l snr).getB (LANE_SNR_VALID l) = true :=
  State.getB_setB _ _ (of_decide_eq_true rfl) rfl true

theorem State.rd_snrShown (s : State) (l snr : Nat) {off : Nat} (out : off ≠ LANE_SNR l) : (s.snrShown l snr).rd off = s.rd off :=
  (State.rd_setB_ne _ _ _ out).trans (State.rd_setF_ne _ _ _ out)

theorem State.snrShown_lnk (s : State) (l snr : Nat) : (s.snrShown l snr).lnk = s.lnk := by rw [State.snrShown, State.setB_lnk, State.setF_lnk]

theorem eqSearchPoint_next {s : State} {l : Fin 18} {q : Search} (search : s.searchOf l = some q) (snr : BitVec 16) :
    exec (.eqSearchPoint l snr) s = done s ((s.snrShown l snr.toNat).searchPoint l snr.toNat) :=
  congrArg (done s) (if_neg (by rw [search]; exact Bool.false_ne_true))

/-- What a command leaves of a state but the queue and the place. -/
theorem rd_of_done {s u t : State} (h : done s u = .next t) (off : Nat) : t.rd off = u.rd off := by
  obtain rfl := Host.Outcome.next.inj h; rfl
theorem lnk_of_done {s u t : State} (h : done s u = .next t) : t.lnk = u.lnk := by
  obtain rfl := Host.Outcome.next.inj h; rfl

theorem State.rd_of_regs {s t : State} (h : t.regs = s.regs) (off : Nat) : t.rd off = s.rd off := by unfold State.rd; rw [h]

theorem State.searchOf_of {s t : State} (h : t.lnk.searches = s.lnk.searches) (l : Nat) : t.searchOf l = s.searchOf l := by unfold State.searchOf; rw [h]

theorem State.setSearch_regs (s : State) (l : Nat) (q : Option Search) : (s.setSearch l q).regs = s.regs := rfl

theorem eqSearchPoint_shown {s : State} {l : Fin 18} {q : Search} {w : Nat} {r : List Nat} (search : s.searchOf l = some q) (values : q.swing = false)
    (more : q.left = w :: r) (snr : BitVec 16) : ∃ t, exec (.eqSearchPoint l snr) s = .next t ∧ t.getF (LANE_SNR_SNR l) = snr.toNat
      ∧ t.getB (LANE_SNR_VALID l) = true ∧ t.searchOf l = some (q.next snr.toNat w r) ∧ WordsKept [LANE_SNR l] s t := by
  have shown : (s.snrShown l snr.toNat).searchOf l = some q := (State.searchOf_of (congrArg Lnk.searches (s.snrShown_lnk l _)) l).trans search
  have point := State.searchPoint_more (snr := snr.toNat) shown values more
  obtain ⟨t, next⟩ : ∃ t, done s (((s.snrShown l snr.toNat).setSearch l (some (q.next snr.toNat w r))).askVals l w) = .next t := ⟨_, rfl⟩
  have words (off : Nat) : t.rd off = (s.snrShown l snr.toNat).rd off := by
    rw [rd_of_done next, State.rd_of_regs (State.askVals_regs _ _ _), State.rd_of_regs (State.setSearch_regs _ _ _)]
  refine ⟨t, ((eqSearchPoint_next search snr).trans (congrArg (done s) point)).trans next, ?_, ?_, ?_, ?_⟩
  · rw [State.getF_of_rd _ (words _), State.snrShown_snr]
  · rw [State.getB_of_rd _ (words _), State.snrShown_valid]
  · rw [State.searchOf_of (congrArg Lnk.searches (lnk_of_done next)), State.searchOf_of (State.askVals_searches _ _ _)]
    exact State.searchOf_setSearch _ (show (q.next snr.toNat w r).lane = l from (State.searchOf_lane search : q.lane = l))
  · intro off out
    rw [words, State.rd_snrShown _ _ _ (by simpa using out)]

/-! ### The ends of the training interval and of the lane check, R115 and R129 -/

/-- `t` keeps the link's part, the place, the queue, what has been sent, and the plain words but those of `ws`. -/
structure Beside (ws : Nat → Prop) (s t : State) : Prop where
  rd : ∀ off, Plain off → ¬ ws off → t.rd off = s.rd off
  lnk : t.lnk = s.lnk
  place : t.place = s.place
  pending : t.pending = s.pending
  out : t.out = s.out

theorem Beside.refl (ws : Nat → Prop) (s : State) : Beside ws s s := ⟨fun _ _ _ => rfl, rfl, rfl, rfl, rfl⟩

theorem Beside.trans {ws : Nat → Prop} {s t u : State} (h : Beside ws s t) (k : Beside ws t u) : Beside ws s u :=
  ⟨fun off plain out => (k.rd off plain out).trans (h.rd off plain out), k.lnk.trans h.lnk, k.place.trans h.place, k.pending.trans h.pending,
    k.out.trans h.out⟩

theorem Beside.mono {ws xs : Nat → Prop} {s t : State} (h : Beside ws s t) (sub : ∀ off, ws off → xs off) : Beside xs s t :=
  ⟨fun off plain out => h.rd off plain fun w => out (sub off w), h.lnk, h.place, h.pending, h.out⟩

theorem Beside.foldl {α : Type} {ws : Nat → Prop} {f : State → α → State} (l : List α) (step : ∀ s, ∀ a ∈ l, Beside ws s (f s a)) (s : State) :
    Beside ws s (l.foldl f s) := by
  induction l generalizing s with
  | nil => exact Beside.refl ws s
  | cons a l ih => exact (step s a List.mem_cons_self).trans (ih (fun t b hb => step t b (List.mem_cons_of_mem _ hb)) (f s a))

theorem Beside.getF {ws : Nat → Prop} {s t : State} (h : Beside ws s t) {f : Fld} (plain : Plain f.off) (out : ¬ ws f.off) : t.getF f = s.getF f :=
  State.getF_of_rd f (h.rd _ plain out)

theorem Beside.getB {ws : Nat → Prop} {s t : State} (h : Beside ws s t) {f : Fld} (plain : Plain f.off) (out : ¬ ws f.off) : t.getB f = s.getB f :=
  State.getB_of_rd f (h.rd _ plain out)

theorem Beside.lanes {ws : Nat → Prop} {s t : State} (h : Beside ws s t) : t.lanes = s.lanes := congrArg laneList h.place

theorem State.setF_beside (s : State) {ws : Nat → Prop} {f : Fld} (h : ws f.off) (n : Nat) : Beside ws s (s.setF f n) :=
  ⟨fun _ _ out => State.rd_setF_ne s f n fun e => out (e ▸ h), s.setF_lnk f n, s.setF_place f n, s.setF_pending f n, s.setF_out f n⟩

theorem State.takeFree_beside (s : State) (ws : Nat → Prop) : Beside ws s s.takeFree := ⟨fun _ _ _ => rfl, rfl, rfl, rfl, rfl⟩

/-- The words of the lanes' error counts. -/
def errorWord (off : Nat) : Prop := ∃ l, off = LANE_PRBS_ERR l

/-- The status words of the lanes. -/
def statusWord (off : Nat) : Prop := ∃ l, off = LANE_STATUS l

theorem State.prbsErrs_beside (s : State) (l n : Nat) : Beside errorWord s (s.prbsErrs l n) := by
  unfold State.prbsErrs
  split
  · exact Beside.refl _ s
  · exact (State.setF_beside s (f := LANE_PRBS_ERR_COUNT l) ⟨l, rfl⟩ _).trans (State.takeFree_beside _ _)

theorem State.prbsAll_beside (s : State) (errs : List Nat) : Beside errorWord s (s.prbsAll errs) :=
  Beside.foldl _ (fun t p _ => t.prbsErrs_beside p.1 p.2) s

theorem State.setPolinv_beside (s : State) (l : Nat) (b : Bool) : Beside statusWord s (s.setB (LANE_STATUS_POLINV l) b) :=
  State.setF_beside s (f := LANE_STATUS_POLINV l) ⟨l, rfl⟩ _

theorem State.setInverted_beside (s : State) (inv : Nat) : Beside statusWord s (s.setInverted inv) :=
  Beside.foldl _ (fun t l _ => t.setPolinv_beside l _) s

/-- Every lane's polarity is set (R115). -/
theorem State.setInverted_shows (s : State) (inv : Nat) {l : Nat} (has : l ∈ s.lanes) : (s.setInverted inv).getB (LANE_STATUS_POLINV l) = bitOf inv l := by
  have fold : ∀ (k : List Nat) (u : State), l ∈ k ∨ u.getB (LANE_STATUS_POLINV l) = bitOf inv l →
      (k.foldl (fun s l => s.setB (LANE_STATUS_POLINV l) (bitOf inv l)) u).getB (LANE_STATUS_POLINV l) = bitOf inv l := by
    intro k
    induction k with
    | nil => exact fun u h => h.resolve_left List.not_mem_nil
    | cons x k ih =>
      intro u h
      rw [List.foldl_cons]
      refine ih _ ?_
      by_cases same : l = x
      · subst same
        exact .inr (State.getB_setB _ _ (of_decide_eq_true rfl) rfl _)
      · rcases h with now | before
        · exact .inl ((List.mem_cons.mp now).resolve_left same)
        · refine .inr ((State.getB_of_rd _ (State.rd_setB_ne _ _ _ ?_)).trans before)
          simp only [LANE_STATUS_POLINV]
          omega
  exact fold s.lanes s (.inl has)

/-- This end's result is kept (R115). -/
def State.resultKept (s : State) (mode mask : Nat) : State :=
  { s with lnk := { s.lnk with ownPass := mask, passSent := true, results := (mode, mask) :: s.lnk.results.filter (fun p => p.1 != mode) } }

theorem State.sendResult_first {s : State} (first : s.lnk.peerPass = none) (mode mask : Nat) :
    s.sendResult mode mask = (s.resultKept mode mask).sayUntil 4 (beBytes 1 mode ++ mask3 mask) :=
  if_neg (ne_true_of_eq_false (congrArg Option.isSome first))

/-- An EQ-RESULT that is the first of the two leaves and is said until it is answered. -/
theorem State.sendResult_sent {s : State} (first : s.lnk.peerPass = none) (mode mask : Nat) :
    let t := s.sendResult mode mask
    t.lnk.ownPass = mask ∧ t.lnk.passSent = true ∧ t.lnk.peerPass = none ∧ t.regs = s.regs ∧ t.place = s.place ∧ t.pending = s.pending
      ∧ t.out = t.trainOut 4 (beBytes 1 mode ++ mask3 mask) :: s.out := by
  rw [State.sendResult_first first]
  refine ⟨?_, ?_, ?_, State.sayUntil_regs _ _ _, State.sayUntil_place _ _ _, State.say_pending _ _ _, ?_⟩
  · rw [State.sayUntil_lnk]; rfl
  · rw [State.sayUntil_lnk]; rfl
  · rw [State.sayUntil_lnk]; exact first
  · rw [State.sayUntil_out]
    congr 1
    refine (State.trainOut_of (State.sayUntil_place _ _ _) (fun l _ => ?_) _ _).symm
    exact State.getF_of_rd _ (State.sayUntil_rd _ _ _ _)

/-- The training interval of a start past its manufacturing test has ended, its errors counted and the polarities set. -/
def State.intervalEnd (s : State) (errs : List Nat) (inv : Nat) : State := (s.prbsAll errs).setInverted inv

theorem State.intervalEnd_beside (s : State) (errs : List Nat) (inv : Nat) : Beside (fun off => errorWord off ∨ statusWord off) s (s.intervalEnd errs inv) :=
  ((s.prbsAll_beside errs).mono fun _ => .inl).trans ((State.setInverted_beside _ inv).mono fun _ => .inr)

theorem State.excl_beside {ws : Nat → Prop} {s t : State} (h : Beside ws s t) (out : ¬ ws LINK_EXCL) : t.excl = s.excl :=
  h.getF (f := LINK_EXCL_EXCL) (.inl (by decide)) out

theorem State.forward_beside {ws : Nat → Prop} {s t : State} (h : Beside ws s t) (out : ¬ ws LINK_EXCL) : t.forward = s.forward := by
  unfold State.forward; rw [h.lanes, h.lnk, State.excl_beside h out]

theorem State.usableLanes_beside {ws : Nat → Prop} {s t : State} (h : Beside ws s t) (out : ¬ ws LINK_EXCL) : t.usableLanes = s.usableLanes := by
  unfold State.usableLanes; rw [h.lanes, h.lnk, State.excl_beside h out]

theorem State.passMask_beside {ws : Nat → Prop} {s t : State} (h : Beside ws s t) (errs : List Nat) (lim : Nat) : t.passMask errs lim = s.passMask errs lim := by
  unfold State.passMask; rw [h.lanes]

/-- The words of lanes lie behind those of the link. -/
theorem laneWords_far {off : Nat} (h : errorWord off ∨ statusWord off) : 0x800 ≤ off := by
  rcases h with ⟨l, rfl⟩ | ⟨l, rfl⟩
  · simp only [LANE_PRBS_ERR]; omega
  · simp only [LANE_STATUS]; omega

theorem eqQualifyEnd_next {s : State} (errs : List Nat) (inv : BitVec 24) (equalise : s.link = 2) (waits : s.lnk.passSent = false)
    (made : s.getB START_CTRL_MFGDONE = true) : exec (.eqQualifyEnd errs inv) s
      = done s (((s.intervalEnd errs inv.toNat).sendResult (s.intervalEnd errs inv.toNat).lnk.eqMode
          ((s.intervalEnd errs inv.toNat).passMask errs 134 &&& maskOf (s.intervalEnd errs inv.toNat).forward)).modeChoice) :=
  congrArg (done s) (if_neg (by rw [equalise, waits, made]; decide))

/-- The training interval ends with the result of the forward lanes (R115). -/
theorem eqQualifyEnd_result {s : State} (errs : List Nat) (inv : BitVec 24) (equalise : s.link = 2) (waits : s.lnk.passSent = false)
    (made : s.getB START_CTRL_MFGDONE = true) (first : s.lnk.peerPass = none) :
    let mask := s.passMask errs 134 &&& maskOf s.forward
    ∃ t, exec (.eqQualifyEnd errs inv) s = .next t ∧ t.lnk.ownPass = mask ∧ t.lnk.passSent = true ∧ t.link = 2
      ∧ t.out = t.trainOut 4 (beBytes 1 s.lnk.eqMode ++ mask3 mask) :: s.out ∧ ∀ l ∈ s.lanes, t.getB (LANE_STATUS_POLINV l) = bitOf inv.toNat l := by
  have ended := s.intervalEnd_beside errs inv.toNat
  have excl : ¬ (errorWord LINK_EXCL ∨ statusWord LINK_EXCL) := fun h => absurd (laneWords_far h) (by decide)
  have status : ¬ (errorWord LINK_STATUS ∨ statusWord LINK_STATUS) := fun h => absurd (laneWords_far h) (by decide)
  obtain ⟨own, sent, alone, regs, place, pending, out⟩ := State.sendResult_sent (s := s.intervalEnd errs inv.toNat)
    ((congrArg Lnk.peerPass ended.lnk).trans first) s.lnk.eqMode (s.passMask errs 134 &&& maskOf s.forward)
  refine ⟨_, ?_, own, sent, ?_, ?_, fun l has => ?_⟩
  · rw [eqQualifyEnd_next errs inv equalise waits made, State.passMask_beside ended, State.forward_beside ended excl, ended.lnk, State.modeChoice_alone alone]
    exact done_eq_next (pending.trans ended.pending) (place.trans ended.place)
  · rw [State.link, State.getF_of_rd _ (State.rd_of_regs regs _), ended.getF (.inl (by decide)) status]
    exact equalise
  · rw [out, ended.out]
  · rw [State.getB_of_rd _ (State.rd_of_regs regs _)]
    refine State.setInverted_shows _ _ ?_
    rw [(s.prbsAll_beside errs).lanes]
    exact has

/-! ### Lanes that fail the lane check, R129 -/

theorem lanes_lt {s : State} {l : Nat} (has : l ∈ s.lanes) : l < 18 := by
  unfold State.lanes laneList dataLanes spareLanes at has
  split at has <;> simp at has <;> omega

theorem State.setVerdict_same {s : State} {l new : Nat} (why : Nat) (same : s.getF (AGE_LANE_STAT_VERDICT l) = new) : s.setVerdict l new why = s :=
  if_pos (by rw [same, decide_eq_true rfl]; rfl)

/-- The words that a change of verdict changes. -/
def verdictWord (off : Nat) : Prop := (∃ l, off = AGE_LANE_STAT l) ∨ off = AGE_LQ

/-- The words that a lane's exclusion changes. -/
def exclWord (off : Nat) : Prop := off = LINK_EXCL ∨ off = LINK_STATUS

theorem verdictWord_far {off : Nat} (h : verdictWord off) : 0x4800 ≤ off := by
  rcases h with ⟨l, rfl⟩ | rfl
  · simp only [AGE_LANE_STAT]; omega
  · decide

theorem State.queueRecord_quiet (s : State) (ty : Nat) (d : List Byte) : (s.queueRecord ty d).pending = s.pending ∧ (s.queueRecord ty d).out = s.out := by
  unfold State.queueRecord
  dsimp only
  split
  · exact ⟨rfl, rfl⟩
  · constructor
    · rw [State.raise_pending, State.setB_pending, State.count_pending]; rfl
    · rw [State.raise_out, State.setB_out, State.count_out]; rfl

theorem State.countVerdict_quiet (s : State) (new : Nat) : (s.countVerdict new).pending = s.pending ∧ (s.countVerdict new).out = s.out := by
  unfold State.countVerdict; split
  · simp
  · split <;> simp

theorem State.epochVerdict_quiet (s : State) : s.epochVerdict.pending = s.pending ∧ s.epochVerdict.out = s.out := by
  unfold State.epochVerdict; split <;> exact ⟨rfl, rfl⟩

theorem State.setVerdict_quiet (s : State) (l new why : Nat) (has : s.lanes.contains l = true) :
    (s.setVerdict l new why).pending = s.pending ∧ (s.setVerdict l new why).out = s.out := by
  by_cases same : s.getF (AGE_LANE_STAT_VERDICT l) = new
  · rw [State.setVerdict_same why same]; exact ⟨rfl, rfl⟩
  · rw [State.setVerdict_new s why same has]
    unfold State.recLane
    constructor
    · rw [(State.queueRecord_quiet _ _ _).1, (State.epochVerdict_quiet _).1, (State.countVerdict_quiet _ _).1, State.setF_pending, State.setF_pending]
    · rw [(State.queueRecord_quiet _ _ _).2, (State.epochVerdict_quiet _).2, (State.countVerdict_quiet _ _).2, State.setF_out, State.setF_out]

theorem State.setVerdict_beside (s : State) {l new : Nat} (why : Nat) (has : s.lanes.contains l = true) : Beside verdictWord s (s.setVerdict l new why) := by
  obtain ⟨pending, out⟩ := s.setVerdict_quiet l new why has
  by_cases same : s.getF (AGE_LANE_STAT_VERDICT l) = new
  · rw [State.setVerdict_same why same]; exact Beside.refl _ s
  · have noted := s.setVerdict_notedOnly why same has
    refine ⟨fun off plain kept => noted.rd off plain fun h => kept ?_, noted.lnk, noted.place, pending, out⟩
    rcases List.mem_cons.mp h with rfl | h
    · exact .inl ⟨l, rfl⟩
    · exact .inr (List.mem_singleton.mp h)

theorem State.exclude_beside (s : State) (mask : Nat) : Beside exclWord s (s.exclude mask) :=
  (State.setF_beside s (f := LINK_EXCL_EXCL) (.inl rfl) _).trans (State.setF_beside _ (f := LINK_STATUS_FREE) (.inr rfl) _)

/-- A lane that fails the lane check is excluded, and goes to Probation where its verdict was better. -/
def State.checkFails (s : State) (l : Nat) : State := (s.exclude (2 ^ l)).setVerdict l (max 2 (s.getF (AGE_LANE_STAT_VERDICT l))) 6

/-- A lane that the lane check has failed: excluded, and in Probation or worse. -/
def State.hasFailed (s : State) (l : Nat) : Prop := bitOf s.excl l = true ∧ 2 ≤ s.getF (AGE_LANE_STAT_VERDICT l)

section

variable {s : State} {l : Nat} (has : s.lanes.contains l = true)
include has

theorem State.excluded_has : (s.exclude (2 ^ l)).lanes.contains l = true := by rw [(s.exclude_beside (2 ^ l)).lanes]; exact has

theorem State.checkFails_beside : Beside (fun off => exclWord off ∨ verdictWord off) s (s.checkFails l) :=
  ((s.exclude_beside (2 ^ l)).mono fun _ => .inl).trans ((State.setVerdict_beside _ 6 (State.excluded_has has)).mono fun _ => .inr)

/-- Of the word of the link's state, `FREE` alone changes. -/
theorem State.checkFails_status {f : Fld} (word : f.off = LINK_STATUS)
    (apart : f.lo + f.w ≤ LINK_STATUS_FREE.lo ∨ LINK_STATUS_FREE.lo + LINK_STATUS_FREE.w ≤ f.lo) : (s.checkFails l).getF f = s.getF f := by
  have verdict := State.setVerdict_beside (new := max 2 (s.getF (AGE_LANE_STAT_VERDICT l))) _ 6 (State.excluded_has has)
  refine (verdict.getF (.inl (by rw [word]; decide)) fun h => ?_).trans (s.exclude_status _ word apart)
  have := verdictWord_far h
  rw [word] at this
  exact absurd this (by decide)

theorem State.checkFails_excl : (s.checkFails l).excl = (s.excl ||| 2 ^ l) % 2 ^ 18 :=
  (State.excl_beside (State.setVerdict_beside _ 6 (State.excluded_has has)) fun h => absurd (verdictWord_far h) (by decide)).trans (s.exclude_excl _)

theorem State.checkFails_bit {k : Nat} (low : k < 18) (set : k = l ∨ bitOf s.excl k = true) : bitOf (s.checkFails l).excl k = true := by
  rw [State.checkFails_excl has, bitOf_eq_testBit, Nat.testBit_mod_two_pow, Nat.testBit_or, Nat.testBit_two_pow]
  rcases set with rfl | set
  · simp [low]
  · rw [bitOf_eq_testBit] at set
    simp [low, set]

theorem State.checkFails_other {k : Nat} (low : k < 18) (other : k ≠ l) : (s.checkFails l).getF (AGE_LANE_STAT_VERDICT k) = s.getF (AGE_LANE_STAT_VERDICT k) := by
  have excluded : (s.exclude (2 ^ l)).getF (AGE_LANE_STAT_VERDICT k) = s.getF (AGE_LANE_STAT_VERDICT k) :=
    State.getF_of_rd _ (s.exclude_words _ _ (by
      simp only [AGE_LANE_STAT_VERDICT, LINK_EXCL, LINK_STATUS, List.mem_cons, List.not_mem_nil, or_false]; omega))
  unfold State.checkFails
  by_cases same : (s.exclude (2 ^ l)).getF (AGE_LANE_STAT_VERDICT l) = max 2 (s.getF (AGE_LANE_STAT_VERDICT l))
  · rw [State.setVerdict_same 6 same, excluded]
  · have noted := State.setVerdict_notedOnly _ 6 same (State.excluded_has has)
    refine (State.getF_of_rd _ (noted.rd _ ?_ ?_)).trans excluded
    · left; simp only [AGE_LANE_STAT_VERDICT]; omega
    · simp only [AGE_LANE_STAT_VERDICT, AGE_LANE_STAT, AGE_LQ, List.mem_cons, List.not_mem_nil, or_false]; omega

/-- What has failed before stays so. -/
theorem State.checkFails_keeps {k : Nat} (low : k < 18) (failed : s.hasFailed k) (other : k ≠ l) : (s.checkFails l).hasFailed k :=
  ⟨State.checkFails_bit has low (.inr failed.1), (State.checkFails_other has low other).symm ▸ failed.2⟩

/-- The lane itself has failed. -/
theorem State.checkFails_failed : (s.checkFails l).hasFailed l := by
  have low : l < 18 := lanes_lt (List.contains_iff_mem.mp has)
  have excluded : (s.exclude (2 ^ l)).getF (AGE_LANE_STAT_VERDICT l) = s.getF (AGE_LANE_STAT_VERDICT l) :=
    State.getF_of_rd _ (s.exclude_words _ _ (by
      simp only [AGE_LANE_STAT_VERDICT, LINK_EXCL, LINK_STATUS, List.mem_cons, List.not_mem_nil, or_false]; omega))
  refine ⟨State.checkFails_bit has low (.inl rfl), ?_⟩
  unfold State.checkFails
  by_cases same : (s.exclude (2 ^ l)).getF (AGE_LANE_STAT_VERDICT l) = max 2 (s.getF (AGE_LANE_STAT_VERDICT l))
  · rw [State.setVerdict_same 6 same]
    omega
  · have fits : s.getF (AGE_LANE_STAT_VERDICT l) < 16 := Nat.mod_lt _ (of_decide_eq_true rfl)
    rw [State.setVerdict_verdict _ 6 same (State.excluded_has has) low (by omega)]
    omega

end

/-- Every lane that fails the check has failed at its end. -/
theorem State.checkFails_all (bad : List Nat) {s : State} (has : ∀ l ∈ bad, s.lanes.contains l = true) {l : Nat} (low : l < 18)
    (h : l ∈ bad ∨ s.hasFailed l) : (bad.foldl State.checkFails s).hasFailed l := by
  induction bad generalizing s with
  | nil => exact h.resolve_left List.not_mem_nil
  | cons x bad ih =>
    have first := has x List.mem_cons_self
    have lanes := (State.checkFails_beside first).lanes
    refine ih (fun l hl => by rw [lanes]; exact has l (List.mem_cons_of_mem _ hl)) ?_
    by_cases same : l = x
    · subst same
      exact .inr (State.checkFails_failed first)
    · rcases h with now | before
      · exact .inl ((List.mem_cons.mp now).resolve_left same)
      · exact .inr (State.checkFails_keeps first low before same)

theorem State.checkFails_fold (bad : List Nat) {s : State} (has : ∀ l ∈ bad, s.lanes.contains l = true) :
    Beside (fun off => exclWord off ∨ verdictWord off) s (bad.foldl State.checkFails s)
      ∧ (bad.foldl State.checkFails s).link = s.link ∧ (bad.foldl State.checkFails s).getF LINK_STATUS_MODE = s.getF LINK_STATUS_MODE := by
  induction bad generalizing s with
  | nil => exact ⟨Beside.refl _ s, rfl, rfl⟩
  | cons x bad ih =>
    have first := has x List.mem_cons_self
    have step := State.checkFails_beside first
    obtain ⟨rest, link, mode⟩ := ih (s := s.checkFails x) fun l hl => by rw [step.lanes]; exact has l (List.mem_cons_of_mem _ hl)
    exact ⟨step.trans rest, link.trans (State.checkFails_status first rfl (.inr (by decide))),
      mode.trans (State.checkFails_status first rfl (.inr (by decide)))⟩

/-- The lanes that fail the lane check (R129). -/
def State.failing (s : State) (errs : List Nat) : List Nat := s.usableLanes.filter (fun l => !bitOf (s.passMask errs 1) l)

theorem retrainLaneCheckEnd_next {s : State} (errs : List Nat) (retrain : s.link = 6) (waits : s.lnk.passSent = false) :
    exec (.retrainLaneCheckEnd errs) s =
      (let u := s.prbsAll errs
       let v := (u.failing errs).foldl State.checkFails u
       done s ((v.sendResult (v.getF LINK_STATUS_MODE) (u.passMask errs 1 &&& maskOf u.usableLanes)).checkDone)) :=
  congrArg (done s) (if_neg (by rw [retrain, waits]; decide))

theorem State.checkDone_alone {s : State} (alone : s.lnk.peerPass = none) : s.checkDone = s := by unfold State.checkDone; rw [alone]

theorem bitOf_and (a b i : Nat) : bitOf (a &&& b) i = (bitOf a i && bitOf b i) := by
  rw [bitOf_eq_testBit, bitOf_eq_testBit, bitOf_eq_testBit, Nat.testBit_and]

theorem bitOf_putBit (v i k : Nat) : bitOf (putBit v i true) k = (k == i || bitOf v k) := by
  have low : v % 2 ^ i < 2 ^ i := Nat.mod_lt _ (by positivity)
  have parts : v = 2 ^ i * (v / 2 ^ i) + v % 2 ^ i := (Nat.div_add_mod v (2 ^ i)).symm
  have put : putBit v i true = 2 ^ i * (v / 2 ^ i - v / 2 ^ i % 2 + 1) + v % 2 ^ i := by
    have drop : 2 ^ i * (v / 2 ^ i - v / 2 ^ i % 2) = 2 ^ i * (v / 2 ^ i) - v / 2 ^ i % 2 * 2 ^ i := by rw [Nat.mul_sub, Nat.mul_comm (v / 2 ^ i % 2)]
    have le : v / 2 ^ i % 2 * 2 ^ i ≤ 2 ^ i * (v / 2 ^ i) := by
      rw [Nat.mul_comm]; exact Nat.mul_le_mul_left _ (Nat.mod_le _ _)
    rw [putBit, Nat.mul_add, drop, Nat.mul_one]
    simp only [↓reduceIte]
    omega
  rw [bitOf_eq_testBit, bitOf_eq_testBit, put]
  conv_rhs => rw [parts]
  rw [Nat.testBit_two_pow_mul_add _ low, Nat.testBit_two_pow_mul_add _ low]
  rcases Nat.lt_trichotomy k i with below | rfl | above
  · simp [below, Nat.ne_of_lt below]
  · simp [Nat.testBit_zero]
    omega
  · obtain ⟨n, rfl⟩ : ∃ n, k = i + (n + 1) := ⟨k - i - 1, by omega⟩
    simp only [show ¬ i + (n + 1) < i by omega, ↓reduceIte, Nat.add_sub_cancel_left, Nat.testBit_add_one]
    have half : ∀ a : Nat, (a - a % 2 + 1) / 2 = a / 2 := fun a => by omega
    rw [half]
    simp

theorem bitOf_maskOf {l : List Nat} {i : Nat} (h : i ∈ l) : bitOf (maskOf l) i = true := by
  have fold : ∀ (l : List Nat) (a : Nat), i ∈ l ∨ bitOf a i = true → bitOf (l.foldl (fun a i => putBit a i true) a) i = true := by
    intro l
    induction l with
    | nil => exact fun a h => h.resolve_left List.not_mem_nil
    | cons x l ih =>
      intro a h
      refine ih _ ?_
      rw [bitOf_putBit]
      rcases h with now | before
      · rcases List.mem_cons.mp now with rfl | later
        · simp
        · exact .inl later
      · simp [before]
  exact fold l 0 (.inl h)

/-- The lane check of a Retrain ends with the result of the usable lanes, and the others are excluded (R129). -/
theorem retrainLaneCheckEnd_result {s : State} (errs : List Nat) (retrain : s.link = 6) (waits : s.lnk.passSent = false) (first : s.lnk.peerPass = none) :
    let mask := s.passMask errs 1 &&& maskOf s.usableLanes
    ∃ t, exec (.retrainLaneCheckEnd errs) s = .next t ∧ t.lnk.ownPass = mask ∧ t.lnk.passSent = true ∧ t.link = 6
      ∧ t.out = t.trainOut 4 (beBytes 1 (s.getF LINK_STATUS_MODE) ++ mask3 mask) :: s.out
      ∧ ∀ l ∈ s.usableLanes, bitOf mask l = false → bitOf t.excl l = true ∧ 2 ≤ t.getF (AGE_LANE_STAT_VERDICT l) := by
  have counted := s.prbsAll_beside errs
  have excl : ¬ errorWord LINK_EXCL := fun h => absurd (laneWords_far (.inl h)) (by decide)
  have status : ¬ errorWord LINK_STATUS := fun h => absurd (laneWords_far (.inl h)) (by decide)
  have usable := State.usableLanes_beside counted excl
  have pass := State.passMask_beside counted errs 1
  have failing : (s.prbsAll errs).failing errs = s.failing errs := by unfold State.failing; rw [usable, pass]
  have has : ∀ l ∈ s.failing errs, (s.prbsAll errs).lanes.contains l = true := fun l hl => by
    rw [counted.lanes]
    exact List.contains_iff_mem.mpr (List.mem_of_mem_filter (List.mem_of_mem_filter hl))
  obtain ⟨noted, link, mode⟩ := State.checkFails_fold (s.failing errs) has
  have word : ((s.failing errs).foldl State.checkFails (s.prbsAll errs)).getF LINK_STATUS_MODE = s.getF LINK_STATUS_MODE :=
    mode.trans (counted.getF (.inl (by decide)) status)
  obtain ⟨own, sent, alone, regs, place, pending, out⟩ := State.sendResult_sent (s := (s.failing errs).foldl State.checkFails (s.prbsAll errs))
    ((congrArg Lnk.peerPass (noted.lnk.trans counted.lnk)).trans first) (s.getF LINK_STATUS_MODE) (s.passMask errs 1 &&& maskOf s.usableLanes)
  refine ⟨_, ?_, own, sent, ?_, ?_, fun l hl bad => ?_⟩
  · rw [retrainLaneCheckEnd_next errs retrain waits]
    dsimp only
    rw [failing, pass, usable, word, State.checkDone_alone alone]
    exact done_eq_next (pending.trans (noted.pending.trans counted.pending)) (place.trans (noted.place.trans counted.place))
  · rw [State.link, State.getF_of_rd _ (State.rd_of_regs regs _)]
    exact link.trans ((counted.getF (.inl (by decide)) status).trans retrain)
  · rw [out, noted.out, counted.out]
  · have fails : bitOf (s.passMask errs 1) l = false := by
      rw [bitOf_and, bitOf_maskOf hl, Bool.and_true] at bad
      exact bad
    have listed : l ∈ s.failing errs := List.mem_filter.mpr ⟨hl, by rw [fails]; rfl⟩
    have low : l < 18 := lanes_lt (List.mem_of_mem_filter hl)
    obtain ⟨bit, verdict⟩ := State.checkFails_all (s.failing errs) has low (.inl listed)
    rw [State.excl, State.getF_of_rd _ (State.rd_of_regs regs _), State.getF_of_rd _ (State.rd_of_regs regs _)]
    exact ⟨bit, verdict⟩

end Sys2Proof.Machine

namespace Sys2Proof

open Machine

/-- Settles O44: each command of Equalise by the rule of the function that it runs, and the lane check of a Retrain by `retrainLaneCheckEnd_result`. -/
theorem lanesAreEqualised : Obligations.LanesAreEqualised := by
  unfold Obligations.LanesAreEqualised
  intro s
  refine ⟨fun equalise => ⟨fun m has => ⟨fun ok idle still => ?_, fun bad => ?_⟩, fun m waits => ?_, fun mode pass current first =>
    ⟨eqResult_waits pass equalise current first, fun sent made at5 starting full more =>
      eqResult_full equalise current first sent made at5 starting full more⟩,
    fun l snr q w r search values more => eqSearchPoint_shown search values more snr,
    fun errs inv waits made first => eqQualifyEnd_result errs inv equalise waits made first⟩,
    fun errs retrain waits first => retrainLaneCheckEnd_result errs retrain waits first⟩
  · have codes := State.eqSetTaken_codes (s := s) (m := m) ok
    refine ⟨(s.eqSetTaken m).eqAnswer m, ?_, ?_, ?_, ?_⟩
    · refine (congrArg (done s) (State.onEqSet_allowed equalise has ok idle still)).trans ?_
      exact State.eqAnswer_done m (s.eqSetTaken_pending m) (s.eqSetTaken_place m)
    · exact (congrArg eqOfWord (State.say_rd _ _ _ _)).trans codes
    · have codes' := codes
      rw [Prod.ext_iff, Prod.ext_iff, Prod.ext_iff] at codes'
      obtain ⟨swing, pre2, pre1, post1⟩ := codes'
      rw [State.eqAnswer, State.say_out, State.eqSetTaken_out, swing, pre2, pre1, post1]
      congr 1
      exact (State.trainOut_of (State.say_place _ _ _) (fun _ _ => State.getF_of_rd _ (State.say_rd _ _ _ _)) _ _).symm
    · intro off out
      exact (State.say_rd _ _ _ _).trans ((s.eqSetTaken_only m).2.1 off out)
  · refine (congrArg (done s) (State.onEqSet_forbidden equalise has bad)).trans ?_
    refine (State.eqAnswer_done m rfl rfl).trans (congrArg Host.Outcome.next ?_)
    exact State.say_eq _ _ _
  · refine ⟨(s.answered (asksFor m)).setAsked m.lane.toNat (wordIn m), ?_, State.setAsked_asked _ _ _, rfl, rfl⟩
    exact (congrArg (done s) (State.onEqDone_open waits)).trans (done_eq_next rfl rfl)

end Sys2Proof
end

section
/-! SUPPORT. Lanes that enter a state, and the messages of LANE-EQ (R29, R133, R135). -/

namespace Sys2Proof.Machine

/-! ### A lane enters a state, R29 -/

/-- The words of a lane that its entry into a state may change. -/
def laneWords (l : Nat) : List Nat := [LANE_STATUS l, LANE_TXEQ l, LANE_RXEQ l, LANE_SNR l, LANE_PAT l, LANE_PRBS_ERR l]

/-- `t` keeps the lane's state, the words of everything but the lane, and all but registers, free values and what waits for lanes. -/
structure LaneStep (l : Nat) (s t : State) : Prop where
  rd : WordsKept (laneWords l) s t
  state : t.laneState l = s.laneState l
  lnk : t.lnk = s.lnk
  dlv : t.dlv = s.dlv
  place : t.place = s.place
  now : t.now = s.now
  pending : t.pending = s.pending
  sweep : t.age.sweep = s.age.sweep

theorem LaneStep.refl (l : Nat) (s : State) : LaneStep l s s := ⟨fun _ _ => rfl, rfl, rfl, rfl, rfl, rfl, rfl, rfl⟩

theorem LaneStep.trans {l : Nat} {s t u : State} (h : LaneStep l s t) (k : LaneStep l t u) : LaneStep l s u :=
  ⟨fun off out => (k.rd off out).trans (h.rd off out), k.state.trans h.state, k.lnk.trans h.lnk, k.dlv.trans h.dlv, k.place.trans h.place,
    k.now.trans h.now, k.pending.trans h.pending, k.sweep.trans h.sweep⟩

/-- A field of the lane's words, not its state. -/
structure LaneField (l : Nat) (f : Fld) : Prop where
  word : f.off ∈ laneWords l
  fits : f.lo + f.w ≤ 32
  apart : f.off = LANE_STATUS l → 3 ≤ f.lo

theorem LaneField.setF {l : Nat} {f : Fld} (h : LaneField l f) (s : State) (n : Nat) : LaneStep l s (s.setF f n) := by
  refine ⟨fun off out => State.rd_setF_ne s f n fun e => out (e ▸ h.word), ?_, s.setF_lnk f n, s.setF_dlv f n, s.setF_place f n, s.setF_now f n,
    s.setF_pending f n, by rw [State.setF_age]⟩
  refine State.getF_setF_ne s f _ h.fits n ?_
  by_cases here : f.off = LANE_STATUS l
  · exact .inr (.inl (h.apart here))
  · exact .inl fun e => here e.symm

theorem LaneField.setB {l : Nat} {f : Fld} (h : LaneField l f) (s : State) (b : Bool) : LaneStep l s (s.setB f b) := h.setF s _

theorem LaneField.setFs {l : Nat} (fs : List (Fld × Nat)) (h : ∀ p ∈ fs, LaneField l p.1) (s : State) : LaneStep l s (s.setFs fs) := by
  induction fs generalizing s with
  | nil => exact LaneStep.refl l s
  | cons p fs ih => exact ((h p List.mem_cons_self).setF s p.2).trans (ih (fun q hq => h q (List.mem_cons_of_mem _ hq)) (s.setF p.1 p.2))

/-- A field of one of the lane's words besides its status. -/
theorem LaneField.other {l : Nat} {f : Fld} (word : f.off ∈ laneWords l) (fits : f.lo + f.w ≤ 32) (not : f.off ≠ LANE_STATUS l) : LaneField l f :=
  ⟨word, fits, fun e => absurd e not⟩

theorem laneWord_pat (l : Nat) : LANE_PAT l ∈ laneWords l := by simp [laneWords]
theorem laneWord_rxeq (l : Nat) : LANE_RXEQ l ∈ laneWords l := by simp [laneWords]
theorem laneWord_txeq (l : Nat) : LANE_TXEQ l ∈ laneWords l := by simp [laneWords]
theorem laneWord_snr (l : Nat) : LANE_SNR l ∈ laneWords l := by simp [laneWords]
theorem laneWord_errors (l : Nat) : LANE_PRBS_ERR l ∈ laneWords l := by simp [laneWords]
theorem laneWord_status (l : Nat) : LANE_STATUS l ∈ laneWords l := by simp [laneWords]

theorem laneStatus_ne (l : Nat) : LANE_PAT l ≠ LANE_STATUS l ∧ LANE_RXEQ l ≠ LANE_STATUS l ∧ LANE_TXEQ l ≠ LANE_STATUS l ∧ LANE_SNR l ≠ LANE_STATUS l
    ∧ LANE_PRBS_ERR l ≠ LANE_STATUS l := by
  simp only [LANE_PAT, LANE_RXEQ, LANE_TXEQ, LANE_SNR, LANE_PRBS_ERR, LANE_STATUS]; omega

theorem LaneField.pat {l : Nat} {f : Fld} (off : f.off = LANE_PAT l) (fits : f.lo + f.w ≤ 32) : LaneField l f :=
  LaneField.other (off ▸ laneWord_pat l) fits (off ▸ (laneStatus_ne l).1)
theorem LaneField.rxeq {l : Nat} {f : Fld} (off : f.off = LANE_RXEQ l) (fits : f.lo + f.w ≤ 32) : LaneField l f :=
  LaneField.other (off ▸ laneWord_rxeq l) fits (off ▸ (laneStatus_ne l).2.1)
theorem LaneField.txeq {l : Nat} {f : Fld} (off : f.off = LANE_TXEQ l) (fits : f.lo + f.w ≤ 32) : LaneField l f :=
  LaneField.other (off ▸ laneWord_txeq l) fits (off ▸ (laneStatus_ne l).2.2.1)
theorem LaneField.snr {l : Nat} {f : Fld} (off : f.off = LANE_SNR l) (fits : f.lo + f.w ≤ 32) : LaneField l f :=
  LaneField.other (off ▸ laneWord_snr l) fits (off ▸ (laneStatus_ne l).2.2.2.1)
theorem LaneField.errors {l : Nat} {f : Fld} (off : f.off = LANE_PRBS_ERR l) (fits : f.lo + f.w ≤ 32) : LaneField l f :=
  LaneField.other (off ▸ laneWord_errors l) fits (off ▸ (laneStatus_ne l).2.2.2.2)
theorem LaneField.status {l : Nat} {f : Fld} (off : f.off = LANE_STATUS l) (fits : f.lo + f.w ≤ 32) (above : 3 ≤ f.lo) : LaneField l f :=
  ⟨off ▸ laneWord_status l, fits, fun _ => above⟩

theorem State.takeFree_laneStep (s : State) (l : Nat) : LaneStep l s s.takeFree := ⟨fun _ _ => rfl, rfl, rfl, rfl, rfl, rfl, rfl, rfl⟩

/-- The errors that a locked checker found have been counted as its pattern ends. -/
def State.patCounted (s : State) (l : Nat) : State :=
  if s.getB (LANE_PAT_LOCK l) then (s.bump (LANE_PRBS_ERR_COUNT l) s.freeNow.toNat).takeFree else s

theorem State.patEnds_eq (s : State) (l : Nat) : s.patEnds l = ((s.patCounted l).setB (LANE_PAT_RUN l) false).setB (LANE_PAT_LOCK l) false := by
  unfold State.patEnds State.patCounted
  rfl

theorem State.patCounted_laneStep (s : State) (l : Nat) : LaneStep l s (s.patCounted l) := by
  unfold State.patCounted
  split
  · exact ((LaneField.errors (f := LANE_PRBS_ERR_COUNT l) rfl (of_decide_eq_true rfl)).setF s _).trans (State.takeFree_laneStep _ l)
  · exact LaneStep.refl l s

theorem State.patEnds_laneStep (s : State) (l : Nat) : LaneStep l s (s.patEnds l) := by
  rw [State.patEnds_eq]
  exact ((s.patCounted_laneStep l).trans ((LaneField.pat (f := LANE_PAT_RUN l) rfl (of_decide_eq_true rfl)).setB _ _)).trans
    ((LaneField.pat (f := LANE_PAT_LOCK l) rfl (of_decide_eq_true rfl)).setB _ _)

theorem State.applyRx_laneStep (s : State) (l v : Nat) : LaneStep l s (s.applyRx l v) := by
  refine LaneField.setFs _ (fun p hp => ?_) s
  rcases List.mem_cons.mp hp with rfl | hp
  · exact LaneField.rxeq rfl (of_decide_eq_true rfl)
  · obtain rfl := List.mem_singleton.mp hp
    exact LaneField.rxeq rfl (of_decide_eq_true rfl)

theorem State.applyTx_laneStep (s : State) (l v : Nat) : LaneStep l s (s.applyTx l v) := by
  refine LaneField.setFs _ (fun p hp => ?_) s
  simp only [List.mem_cons, List.not_mem_nil, or_false] at hp
  rcases hp with rfl | rfl | rfl | rfl | rfl <;> exact LaneField.txeq rfl (of_decide_eq_true rfl)

theorem State.adapted_laneStep (s : State) (l : Nat) : LaneStep l s (s.adapted l) :=
  (s.applyRx_laneStep l _).trans (State.takeFree_laneStep _ l)

theorem State.dropPending_laneStep (s : State) (l : Nat) : LaneStep l s (s.dropPending l) := ⟨fun _ _ => rfl, rfl, rfl, rfl, rfl, rfl, rfl, rfl⟩

/-- The transmit values waiting for a lane are in force. -/
def State.tookPendingTx (s : State) (l : Nat) : State :=
  match s.age.pendTx.find? (fun p => p.1 == l) with
  | none => s
  | some p => (s.applyTx l p.2.toNat).setB (LANE_STATUS_TXEQ_PEND l) false

/-- The receive values waiting for a lane are in force. -/
def State.tookPendingRx (s : State) (l : Nat) : State :=
  match s.age.pendRx.find? (fun p => p.1 == l) with
  | none => s
  | some p => (s.applyRx l p.2.toNat).setB (LANE_RXEQ_RXEQ_PEND l) false

theorem State.applyPending_eq (s : State) (l : Nat) : s.applyPending l = ((s.tookPendingTx l).tookPendingRx l).dropPending l := by
  unfold State.applyPending State.dropPending
  rfl

theorem State.applyPending_laneStep (s : State) (l : Nat) : LaneStep l s (s.applyPending l) := by
  have tx : LaneStep l s (s.tookPendingTx l) := by
    unfold State.tookPendingTx
    split
    · exact LaneStep.refl l s
    · exact (s.applyTx_laneStep l _).trans ((LaneField.status (f := LANE_STATUS_TXEQ_PEND l) rfl (of_decide_eq_true rfl) (of_decide_eq_true rfl)).setB _ _)
  have rx (t : State) : LaneStep l t (t.tookPendingRx l) := by
    unfold State.tookPendingRx
    split
    · exact LaneStep.refl l t
    · exact (t.applyRx_laneStep l _).trans ((LaneField.rxeq (f := LANE_RXEQ_RXEQ_PEND l) rfl (of_decide_eq_true rfl)).setB _ _)
  rw [State.applyPending_eq]
  exact (tx.trans (rx _)).trans (State.dropPending_laneStep _ l)

/-- What a lane's entry into a state does besides its `STATE`, in the order of R29. -/
def State.laneModeShown (s : State) (l st : Nat) : State := s.setF (LANE_STATUS_MODE l) (if st = 2 || st == 3 then s.laneMode else 3)
def State.adaptShown (s : State) (l st : Nat) : State := if l = 18 then s else s.setB (LANE_RXEQ_ADAPT l) (st == 2 || st == 4)
def State.patLeft (s : State) (l st : Nat) : State := if st = 2 || st == 4 || l == 18 then s else s.patEnds l
def State.adaptLeft (s : State) (l old st : Nat) : State := if (old == 2 || old == 4) && (st == 1 || st == 3) then s.adapted l else s
def State.snrFresh (s : State) (l old st : Nat) : State := if st = 3 && old != 3 then s.setB (LANE_SNR_VALID l) false else s
def State.pendingLeft (s : State) (l old st : Nat) : State := if old = 3 && st != 3 then s.applyPending l else s

/-- The rest of a lane's entry into a state. -/
def State.laneEntered (s : State) (l old st : Nat) : State :=
  (((((s.laneModeShown l st).adaptShown l st).patLeft l st).adaptLeft l old st).snrFresh l old st).pendingLeft l old st

theorem State.setLane_eq {s : State} {l st : Nat} (has : s.lanes.contains l = true) (present : s.laneState l ≠ 5) :
    s.setLane l st = (s.setF (LANE_STATUS_STATE l) st).laneEntered l (s.laneState l) st := by
  have may : (!(s.lanes.contains l || l == 18) || (decide (s.laneState l = 5) && st != 0)) = false := by
    rw [has, decide_eq_false present]; rfl
  refine (if_neg (ne_true_of_eq_false may)).trans ?_
  unfold State.laneEntered State.pendingLeft State.snrFresh State.adaptLeft State.patLeft State.adaptShown State.laneModeShown
  rfl

theorem State.laneEntered_laneStep (s : State) (l old st : Nat) : LaneStep l s (s.laneEntered l old st) := by
  have mode (t : State) : LaneStep l t (t.laneModeShown l st) :=
    (LaneField.status (f := LANE_STATUS_MODE l) rfl (of_decide_eq_true rfl) (of_decide_eq_true rfl)).setF t _
  have adapt (t : State) : LaneStep l t (t.adaptShown l st) := by
    unfold State.adaptShown
    split
    · exact LaneStep.refl l t
    · exact (LaneField.rxeq (f := LANE_RXEQ_ADAPT l) rfl (of_decide_eq_true rfl)).setB t _
  have pat (t : State) : LaneStep l t (t.patLeft l st) := by
    unfold State.patLeft
    split
    · exact LaneStep.refl l t
    · exact t.patEnds_laneStep l
  have adapted (t : State) : LaneStep l t (t.adaptLeft l old st) := by
    unfold State.adaptLeft
    split
    · exact t.adapted_laneStep l
    · exact LaneStep.refl l t
  have snr (t : State) : LaneStep l t (t.snrFresh l old st) := by
    unfold State.snrFresh
    split
    · exact (LaneField.snr (f := LANE_SNR_VALID l) rfl (of_decide_eq_true rfl)).setB t _
    · exact LaneStep.refl l t
  have pending (t : State) : LaneStep l t (t.pendingLeft l old st) := by
    unfold State.pendingLeft
    split
    · exact t.applyPending_laneStep l
    · exact LaneStep.refl l t
  unfold State.laneEntered
  exact (((((mode s).trans (adapt _)).trans (pat _)).trans (adapted _)).trans (snr _)).trans (pending _)

/-- What a lane's entry into a state does. -/
structure LaneEnters (l st : Nat) (s t : State) : Prop where
  state : t.laneState l = st
  rd : WordsKept (laneWords l) s t
  lnk : t.lnk = s.lnk
  dlv : t.dlv = s.dlv
  place : t.place = s.place
  now : t.now = s.now
  pending : t.pending = s.pending
  sweep : t.age.sweep = s.age.sweep

theorem State.setLane_enters {s : State} {l st : Nat} (has : s.lanes.contains l = true) (present : s.laneState l ≠ 5) (fits : st < 8) :
    LaneEnters l st s (s.setLane l st) := by
  have entered := (s.setF (LANE_STATUS_STATE l) st).laneEntered_laneStep l (s.laneState l) st
  rw [State.setLane_eq has present]
  refine ⟨entered.state.trans ?_, fun off out => (entered.rd off out).trans (State.rd_setF_ne _ _ _ fun e => out (e ▸ laneWord_status l)),
    entered.lnk.trans (s.setF_lnk _ _), entered.dlv.trans (s.setF_dlv _ _), entered.place.trans (s.setF_place _ _), entered.now.trans (s.setF_now _ _),
    entered.pending.trans (s.setF_pending _ _), entered.sweep.trans (by rw [State.setF_age])⟩
  exact (State.getF_setF _ _ (of_decide_eq_true rfl) _).trans (Nat.mod_eq_of_lt fits)

/-! ### Replies leave the link-control messages as they are -/

theorem State.packetLeaves_dlv (s : State) (path : WvPath) (p : List Byte) : (s.packetLeaves path p).dlv = s.dlv := by
  unfold State.packetLeaves; split <;> rfl

theorem State.mbxShows_dlv (s : State) : s.mbxShows.dlv = s.dlv := by
  unfold State.mbxShows
  split
  · exact State.packetLeaves_dlv ..
  · rfl

theorem State.sendPacket_lc (s : State) (path : WvPath) (rpl : Bool) (p : List Byte) : (s.sendPacket path rpl p).dlv.lc = s.dlv.lc := by
  cases path with
  | mailbox =>
    unfold State.sendPacket
    dsimp only
    split
    · rw [State.mbxShows_dlv]
    · rfl
  | core =>
    unfold State.sendPacket State.packetToCore
    dsimp only
    split
    · rw [State.packetLeaves_dlv, State.emit_dlv]
    · rw [State.emit_dlv]
  | mgt => rfl
  | sb =>
    unfold State.sendPacket
    rw [State.packetLeaves_dlv, State.emit_dlv]

theorem State.wvReply_lc (s : State) (h : CmdHdr) (opc st : Nat) (d : List Byte) (again : Bool) : (s.wvReply h opc st d again).dlv.lc = s.dlv.lc := by
  have packets : ∀ (l : List (List Byte)) (u : State), (u.sendPackets h.path l).dlv.lc = u.dlv.lc := by
    intro l
    induction l with
    | nil => exact fun _ => rfl
    | cons p l ih => exact fun u => (ih _).trans (u.sendPacket_lc h.path true p)
  unfold State.wvReply State.wvCounted
  split
  · exact packets _ s
  · rw [State.count_dlv]
    exact packets _ s

theorem State.replies_lc (l : List WvRun) (st : Nat) (d : List Byte) (s : State) :
    (l.foldl (fun s r => s.wvReply r.h r.opc st d false) s).dlv.lc = s.dlv.lc := by
  induction l generalizing s with
  | nil => rfl
  | cons x l ih => exact (ih _).trans (s.wvReply_lc x.h x.opc st d false)

/-- Of the commands that run, some are no longer among those. -/
def State.runsDropped (s : State) (p : WvRun → Bool) : State := { s with lme := { s.lme with runs := s.lme.runs.filter (fun r => !p r) } }

theorem State.runsEnd_eq (s : State) (p : WvRun → Bool) (st : Nat) (d : List Byte) :
    s.runsEnd p st d = (s.lme.runs.filter p).foldl (fun s r => s.wvReply r.h r.opc st d false) (s.runsDropped p) := rfl

/-- What a command's end by the peer's doing, or a lane given up, leaves as it was. -/
structure YieldKeeps (s t : State) : Prop where
  rd : ∀ off, Plain off → off ≠ LINK_STATUS → (∀ l, off ≠ LANE_STATUS l) → t.rd off = s.rd off
  state : ∀ l < 18, t.laneState l = s.laneState l
  link : t.link = s.link
  lc : t.dlv.lc = s.dlv.lc
  place : t.place = s.place
  now : t.now = s.now

theorem YieldKeeps.refl (s : State) : YieldKeeps s s := ⟨fun _ _ _ _ => rfl, fun _ _ => rfl, rfl, rfl, rfl, rfl⟩

theorem YieldKeeps.trans {s t u : State} (h : YieldKeeps s t) (k : YieldKeeps t u) : YieldKeeps s u :=
  ⟨fun off p q r => (k.rd off p q r).trans (h.rd off p q r), fun l low => (k.state l low).trans (h.state l low), k.link.trans h.link, k.lc.trans h.lc,
    k.place.trans h.place, k.now.trans h.now⟩

theorem laneStatus_plain {l : Nat} (low : l < 18) : Plain (LANE_STATUS l) := .inl (by simp only [LANE_STATUS]; omega)

/-- What keeps every plain word keeps the state of lanes and link. -/
theorem YieldKeeps.of_plain {s t : State} (rd : ∀ off, Plain off → t.rd off = s.rd off) (lc : t.dlv.lc = s.dlv.lc) (place : t.place = s.place)
    (now : t.now = s.now) : YieldKeeps s t :=
  ⟨fun off plain _ _ => rd off plain, fun _ low => State.getF_of_rd _ (rd _ (laneStatus_plain low)), State.getF_of_rd _ (rd _ (.inl (by decide))), lc,
    place, now⟩

theorem State.runEnds_yields (s : State) (opc st : Nat) (d : List Byte) : YieldKeeps s (s.runEnds opc st d) := by
  unfold State.runEnds
  rw [State.runsEnd_eq]
  have replies := State.replies_keep (s.lme.runs.filter (fun r => r.opc == opc)) st d (s.runsDropped (fun r => r.opc == opc))
  exact YieldKeeps.of_plain (fun off plain => replies.rd off plain) (State.replies_lc _ st d _) replies.place replies.now

theorem State.count_yields (s : State) {c : Cnt} (hc : 0x5000 ≤ c.off ∧ c.off < 0x57FC) (n : Nat) : YieldKeeps s (s.count c n) :=
  YieldKeeps.of_plain (fun _ plain => State.rd_count s c n hc plain) (by rw [State.count_dlv]) (s.count_place c n) (s.count_now c n)

theorem State.sweepShown_yields (s : State) (l : Nat) (b : Bool) : YieldKeeps s (s.setB (LANE_STATUS_SWEEP l) b) := by
  refine ⟨fun _ _ _ out => State.rd_setB_ne _ _ _ (out l), fun k _ => ?_, ?_, by rw [State.setB_dlv], s.setB_place _ _, s.setB_now _ _⟩
  · exact State.getF_setF_ne s _ _ (of_decide_eq_true rfl) _ (.inr (.inl (of_decide_eq_true rfl)))
  · exact State.getF_setF_apart s _ (by simp only [LINK_STATUS_STATE, LANE_STATUS_SWEEP]; omega)

theorem State.castling_yields (s : State) (b : Bool) : YieldKeeps s (s.setB LINK_STATUS_CASTLING b) := by
  refine ⟨fun _ _ out _ => State.rd_setB_ne _ _ _ out, fun k _ => ?_, ?_, by rw [State.setB_dlv], s.setB_place _ _, s.setB_now _ _⟩
  · exact State.getF_setF_apart s _ (by simp only [LANE_STATUS_STATE, LINK_STATUS_CASTLING]; omega)
  · exact State.getF_setB_beside s _ (by decide) (.inr (by decide))

/-- The sweep that runs is given up, and its lane stands last in the order of an epoch that has it (R47). -/
def State.sweepDropped (s : State) (w : Sweep) : State :=
  { s with age := { s.age with
      sweep := none, order := if s.age.order.contains w.lane then s.age.order.filter (· != w.lane) ++ [w.lane] else s.age.order } }

/-- The lane of a sweep no longer shows it. -/
def State.sweepHidden (s : State) (w : Sweep) : State := if s.lanes.contains w.lane then s.setB (LANE_STATUS_SWEEP w.lane) false else s

theorem State.abandonSweep_eq {s : State} {w : Sweep} (h : s.age.sweep = some w) :
    s.abandonSweep = (((s.count CNT_SWEEP_LOST).sweepHidden w).runEnds 0x15 0x0D []).sweepDropped w := by
  unfold State.abandonSweep
  rw [h]
  rfl

theorem State.sweepDropped_yields (s : State) (w : Sweep) : YieldKeeps s (s.sweepDropped w) := ⟨fun _ _ _ _ => rfl, fun _ _ => rfl, rfl, rfl, rfl, rfl⟩

theorem State.abandonSweep_yields (s : State) : YieldKeeps s s.abandonSweep := by
  cases h : s.age.sweep with
  | none => unfold State.abandonSweep; rw [h]; exact YieldKeeps.refl s
  | some w =>
    have hidden (u : State) : YieldKeeps u (u.sweepHidden w) := by
      unfold State.sweepHidden
      split
      · exact u.sweepShown_yields w.lane false
      · exact YieldKeeps.refl u
    rw [State.abandonSweep_eq h]
    exact (((s.count_yields (by decide) 1).trans (hidden _)).trans (State.runEnds_yields _ _ _ _)).trans (State.sweepDropped_yields _ w)

/-- Nothing is in preparation or measurement. -/
def State.repairGone (s : State) : State := { s with lnk := { s.lnk with repair := none } }
/-- A Castling is given up, with its requests. -/
def State.castleGone (s : State) : State := { s with lnk := { s.lnk with repair := none, eqs := [] } }

theorem State.repairGone_yields (s : State) : YieldKeeps s s.repairGone := ⟨fun _ _ _ _ => rfl, fun _ _ => rfl, rfl, rfl, rfl, rfl⟩
theorem State.castleGone_yields (s : State) : YieldKeeps s s.castleGone := ⟨fun _ _ _ _ => rfl, fun _ _ => rfl, rfl, rfl, rfl, rfl⟩

/-- A sweep of the lane is given up. -/
def State.sweepYields (s : State) (l : Nat) : State := if (s.age.sweep.map (·.lane)) == some l then s.abandonSweep else s

/-- A measurement of the lane, or the Castling that had it out, is given up. -/
def State.repairYields (s : State) (l : Nat) : State :=
  match s.lnk.repair with
  | none => s
  | some r =>
    if r.phase = 2 && r.s == l then s.repairGone
    else if r.phase = 1 && r.x == l then ((s.setB LINK_STATUS_CASTLING false).runEnds 0x14 0x0D []).castleGone
    else s

theorem State.yieldLane_eq (s : State) (l : Nat) : s.yieldLane l = (s.sweepYields l).repairYields l := by
  unfold State.yieldLane State.sweepYields State.repairYields State.repairGone State.castleGone
  rfl

theorem State.yieldLane_yields (s : State) (l : Nat) : YieldKeeps s (s.yieldLane l) := by
  have sweep : YieldKeeps s (s.sweepYields l) := by
    unfold State.sweepYields
    split
    · exact s.abandonSweep_yields
    · exact YieldKeeps.refl s
  have repair (u : State) : YieldKeeps u (u.repairYields l) := by
    unfold State.repairYields
    split
    · exact YieldKeeps.refl u
    · split
      · exact u.repairGone_yields
      · split
        · exact ((u.castling_yields false).trans (State.runEnds_yields _ _ _ _)).trans (State.castleGone_yields _)
        · exact YieldKeeps.refl u
  rw [State.yieldLane_eq]
  exact sweep.trans (repair _)


/-! ### What LANE-EQ sends and notes, R133 -/

theorem dlv_of_done {s u t : State} (h : done s u = .next t) : t.dlv = u.dlv := by
  obtain rfl := Host.Outcome.next.inj h; rfl
theorem age_of_done {s u t : State} (h : done s u = .next t) : t.age = u.age := by
  obtain rfl := Host.Outcome.next.inj h; rfl

/-- A command answers a state, with the queue and the place as they were. -/
theorem done_next (s u : State) : ∃ t, done s u = .next t := ⟨_, rfl⟩

theorem State.sendLaneEq_lc (s : State) (r l op : Nat) (v : EqVals) : (s.sendLaneEq r l op v).dlv.lc = s.dlv.lc ++ [⟨laneEqBody r l op v, s.now⟩] := rfl
theorem State.sendLaneEq_rd (s : State) (r l op : Nat) (v : EqVals) (off : Nat) : (s.sendLaneEq r l op v).rd off = s.rd off := rfl
theorem State.noteReq_rd (s : State) (r l op off : Nat) : (s.noteReq r l op).rd off = s.rd off := rfl
theorem State.hushLane_rd (s : State) (l off : Nat) : (s.hushLane l).rd off = s.rd off := rfl

/-- An answer sent, and its request noted. -/
def State.answeredFirst (s : State) (r l op : Nat) : State := (s.hear.sendLaneEq r l op noVals).noteReq r l op

theorem State.answeredFirst_lc (s : State) (r l op : Nat) : (s.answeredFirst r l op).dlv.lc = s.dlv.lc ++ [⟨laneEqBody r l op noVals, s.now⟩] := rfl
theorem State.answeredFirst_rd (s : State) (r l op off : Nat) : (s.answeredFirst r l op).rd off = s.rd off := rfl
theorem State.answeredFirst_place (s : State) (r l op : Nat) : (s.answeredFirst r l op).place = s.place := rfl
theorem State.answeredFirst_age (s : State) (r l op : Nat) : (s.answeredFirst r l op).age = s.age := rfl
theorem State.answeredFirst_repair (s : State) (r l op : Nat) : (s.answeredFirst r l op).lnk.repair = s.lnk.repair := rfl

theorem State.laneState_of_rd {s t : State} {l : Nat} (h : t.rd (LANE_STATUS l) = s.rd (LANE_STATUS l)) : t.laneState l = s.laneState l :=
  State.getF_of_rd (LANE_STATUS_STATE l) h

/-- The lane may be worked on: the link has flits, and the lane is one of those there are, and not Retired. -/
theorem State.laneFree_iff (s : State) (l : Nat) : s.laneFree l = true ↔ (s.link = 4 ∨ s.link = 5) ∧ s.lanes.contains l = true ∧ s.laneState l ≠ 5 := by
  simp [State.laneFree, and_assoc]

theorem laneFree_lt {s : State} {l : Nat} (free : s.laneFree l = true) : l < 18 :=
  lanes_lt (List.contains_iff_mem.mp ((s.laneFree_iff l).mp free).2.1)

/-! ### The number of lanes free, shown -/

theorem State.refree_rd (s : State) {off : Nat} (out : off ≠ LINK_STATUS) : s.refree.rd off = s.rd off := State.rd_setF_ne _ _ _ out
theorem State.refree_lnk (s : State) : s.refree.lnk = s.lnk := s.setF_lnk _ _
theorem State.refree_dlv (s : State) : s.refree.dlv = s.dlv := s.setF_dlv _ _
theorem State.refree_age (s : State) : s.refree.age = s.age := s.setF_age _ _
theorem State.refree_place (s : State) : s.refree.place = s.place := s.setF_place _ _
theorem State.refree_link (s : State) : s.refree.link = s.link := State.getF_setF_beside s _ (by decide) (.inr (by decide))
theorem State.refree_laneState (s : State) (l : Nat) : s.refree.laneState l = s.laneState l :=
  State.laneState_of_rd (s.refree_rd (by simp only [LANE_STATUS, LINK_STATUS]; omega))

/-! ### Searches begin, R45 -/

theorem State.askVals_lc (s : State) (l w : Nat) : ∃ rest, (s.askVals l w).dlv.lc = s.dlv.lc ++ rest := by
  unfold State.askVals
  dsimp only
  split
  · refine ⟨[], ?_⟩
    rw [List.append_nil]
    unfold State.sayUntil
    rw [State.say_eq]
    rfl
  · exact ⟨_, rfl⟩

theorem State.startSearch_lc (s : State) (l : Nat) (whole : Bool) (ws : List Nat) : ∃ rest, (s.startSearch l whole ws).dlv.lc = s.dlv.lc ++ rest := by
  unfold State.startSearch
  split
  · exact ⟨[], (List.append_nil _).symm⟩
  · exact State.askVals_lc _ _ _

theorem State.startSearch_rd (s : State) (l : Nat) (whole : Bool) (ws : List Nat) (off : Nat) : (s.startSearch l whole ws).rd off = s.rd off := by
  unfold State.startSearch
  split
  · rfl
  · exact State.rd_of_regs (State.askVals_regs _ _ _) off

theorem State.tuneLane_lc (s : State) (l mode : Nat) (full : Bool) : ∃ rest, (s.tuneLane l mode full).dlv.lc = s.dlv.lc ++ rest := by
  unfold State.tuneLane
  split
  · exact State.askVals_lc _ _ _
  · exact State.startSearch_lc _ _ _ _

theorem State.tuneLane_rd (s : State) (l mode : Nat) (full : Bool) (off : Nat) : (s.tuneLane l mode full).rd off = s.rd off := by
  unfold State.tuneLane
  split
  · exact State.rd_of_regs (State.askVals_regs _ _ _) off
  · exact State.startSearch_rd _ _ _ _ _

/-! ### PREP -/

/-- What decides about a request of the peer, on a lane outside the map: it is not this end's, and not an answer to one. -/
structure PeerAsks (s : State) (r l op : Nat) : Prop where
  free : s.laneFree l = true
  out : s.mapList.contains l = false
  other : s.ownReq r l = false
  request : s.isAnswer r l op = false

theorem PeerAsks.open_ {s : State} {r l op : Nat} (h : PeerAsks s r l op) : (s.hear.ownReq r l || !s.hear.laneFree l || s.hear.mapList.contains l) = false := by
  have free : s.hear.laneFree l = true := h.free
  have out : s.hear.mapList.contains l = false := h.out
  have other : s.hear.ownReq r l = false := h.other
  rw [free, out, other]
  rfl

/-- The lane of a first PREP is prepared: it yields, and enters Training. -/
def State.prepared (s : State) (r l : Nat) : State := ((((s.answeredFirst r l 0).yieldLane l).setLane l 2).refree).tuneLane l s.laneMode false

theorem State.onPrep_first {s : State} {r l : Nat} (asks : PeerAsks s r l 0) (first : s.firstReq r l 0 = true) : s.hear.onPrep r l = s.prepared r l :=
  (if_neg (ne_true_of_eq_false asks.request)).trans ((if_neg (ne_true_of_eq_false asks.open_)).trans (if_pos first))

theorem State.onPrep_repeat {s : State} {r l : Nat} (asks : PeerAsks s r l 0) (again : s.firstReq r l 0 = false) :
    s.hear.onPrep r l = s.hear.sendLaneEq r l 0 noVals :=
  (if_neg (ne_true_of_eq_false asks.request)).trans ((if_neg (ne_true_of_eq_false asks.open_)).trans (if_neg (ne_true_of_eq_false again)))

/-- A lane that may be worked on still may once it has yielded. -/
theorem State.yieldLane_present {s u : State} {l : Nat} (free : s.laneFree l = true) (place : u.place = s.place)
    (rd : u.rd (LANE_STATUS l) = s.rd (LANE_STATUS l)) :
    (u.yieldLane l).lanes.contains l = true ∧ (u.yieldLane l).laneState l ≠ 5 := by
  obtain ⟨-, has, present⟩ := (s.laneFree_iff l).mp free
  have yields := u.yieldLane_yields l
  refine ⟨?_, ?_⟩
  · rw [show (u.yieldLane l).lanes = s.lanes from congrArg laneList (yields.place.trans place)]
    exact has
  · rw [yields.state l (laneFree_lt free), State.laneState_of_rd rd]
    exact present

theorem linkStatus_out (l : Nat) : LINK_STATUS ∉ laneWords l := by
  simp only [laneWords, LINK_STATUS, LANE_STATUS, LANE_TXEQ, LANE_RXEQ, LANE_SNR, LANE_PAT, LANE_PRBS_ERR, List.mem_cons, List.not_mem_nil, or_false]
  omega

theorem LaneEnters.link {l st : Nat} {s t : State} (h : LaneEnters l st s t) : t.link = s.link := State.getF_of_rd LINK_STATUS_STATE (h.rd _ (linkStatus_out l))

theorem State.prepared_shows {s : State} {r l : Nat} (free : s.laneFree l = true) :
    (s.prepared r l).laneState l = 2 ∧ (s.prepared r l).link = s.link
      ∧ ∃ rest, (s.prepared r l).dlv.lc = s.dlv.lc ++ ⟨laneEqBody r l 0 noVals, s.now⟩ :: rest := by
  obtain ⟨has, present⟩ := State.yieldLane_present (u := s.answeredFirst r l 0) free rfl rfl
  have yields := (s.answeredFirst r l 0).yieldLane_yields l
  have enters := State.setLane_enters (st := 2) has present (by decide)
  refine ⟨?_, ?_, ?_⟩
  · rw [State.prepared, State.laneState_of_rd (State.tuneLane_rd _ _ _ _ _), State.refree_laneState, enters.state]
  · rw [State.prepared, State.link, State.getF_of_rd _ (State.tuneLane_rd _ _ _ _ _)]
    exact (State.refree_link _).trans (enters.link.trans yields.link)
  · obtain ⟨rest, queued⟩ := ((((s.answeredFirst r l 0).yieldLane l).setLane l 2).refree).tuneLane_lc l s.laneMode false
    refine ⟨rest, ?_⟩
    rw [State.prepared, queued, State.refree_dlv, enters.dlv, yields.lc, State.answeredFirst_lc]
    simp

theorem laneEqPrep_first {s : State} {l : Fin 18} {rq : Byte} (asks : PeerAsks s rq.toNat l 0) (first : s.firstReq rq.toNat l 0 = true) :
    ∃ t, exec (.laneEqPrep rq l) s = .next t ∧ t.laneState l = 2 ∧ t.link = s.link
      ∧ ∃ rest, t.dlv.lc = s.dlv.lc ++ ⟨laneEqBody rq.toNat l 0 noVals, s.now⟩ :: rest := by
  obtain ⟨state, link, queued⟩ := State.prepared_shows (r := rq.toNat) asks.free
  obtain ⟨t, next⟩ := done_next s (s.prepared rq.toNat l)
  refine ⟨t, (congrArg (done s) (State.onPrep_first asks first)).trans next, ?_, ?_, ?_⟩
  · rw [State.laneState_of_rd (rd_of_done next _), state]
  · exact (State.getF_of_rd _ (rd_of_done next _)).trans link
  · rw [dlv_of_done next]
    exact queued

theorem laneEqPrep_repeat {s : State} {l : Fin 18} {rq : Byte} (asks : PeerAsks s rq.toNat l 0) (again : s.firstReq rq.toNat l 0 = false) :
    exec (.laneEqPrep rq l) s = .next { s with dlv := { s.hear.dlv with lc := s.dlv.lc ++ [⟨laneEqBody rq.toNat l 0 noVals, s.now⟩] } } :=
  (congrArg (done s) (State.onPrep_repeat asks again)).trans (done_eq_next rfl rfl)

/-! ### MEASURE -/

/-- The lane is in measurement for the peer. -/
def State.measuring (s : State) (l : Nat) : State := { s with lnk := { s.lnk with repair := some ⟨false, l, l, false, false, 2, []⟩ } }

/-- A first MEASURE is answered, and the lane is not yet measured. -/
def State.measureReady (s : State) (r l : Nat) : State := ((s.answeredFirst r l 5).measuring l).freshTune l

theorem State.freshTune_rd (s : State) (l off : Nat) : (s.freshTune l).rd off = s.rd off := rfl
theorem State.freshTune_sweep (s : State) (l : Nat) : (s.freshTune l).age.sweep = s.age.sweep := rfl
theorem State.freshTune_lnk (s : State) (l : Nat) : (s.freshTune l).lnk = s.lnk := rfl
theorem State.freshTune_dlv (s : State) (l : Nat) : (s.freshTune l).dlv = s.dlv := rfl
theorem State.freshTune_place (s : State) (l : Nat) : (s.freshTune l).place = s.place := rfl
theorem State.measuring_rd (s : State) (l off : Nat) : (s.measuring l).rd off = s.rd off := rfl
theorem State.measuring_age (s : State) (l : Nat) : (s.measuring l).age = s.age := rfl
theorem State.measuring_repair (s : State) (l : Nat) : (s.measuring l).lnk.repair = some ⟨false, l, l, false, false, 2, []⟩ := rfl
theorem State.measuring_dlv (s : State) (l : Nat) : (s.measuring l).dlv = s.dlv := rfl
theorem State.measuring_place (s : State) (l : Nat) : (s.measuring l).place = s.place := rfl

theorem State.measureReady_sweep (s : State) (r l : Nat) : (s.measureReady r l).age.sweep = s.age.sweep := by
  rw [State.measureReady, State.freshTune_sweep, State.measuring_age, State.answeredFirst_age]
theorem State.measureReady_repair (s : State) (r l : Nat) : (s.measureReady r l).lnk.repair = some ⟨false, l, l, false, false, 2, []⟩ := by
  rw [State.measureReady, State.freshTune_lnk, State.measuring_repair]
theorem State.measureReady_lc (s : State) (r l : Nat) : (s.measureReady r l).dlv.lc = s.dlv.lc ++ [⟨laneEqBody r l 5 noVals, s.now⟩] := by
  rw [State.measureReady, State.freshTune_dlv, State.measuring_dlv, State.answeredFirst_lc]
theorem State.measureReady_place (s : State) (r l : Nat) : (s.measureReady r l).place = s.place := by
  rw [State.measureReady, State.freshTune_place, State.measuring_place, State.answeredFirst_place]
theorem State.measureReady_laneState (s : State) (r l k : Nat) : (s.measureReady r l).laneState k = s.laneState k :=
  State.laneState_of_rd (by rw [State.measureReady, State.freshTune_rd, State.measuring_rd, State.answeredFirst_rd])

/-- The lane of a first MEASURE is measured: it enters Measure, and its sweep begins. -/
def State.measured (s : State) (r l : Nat) : State := (((s.measureReady r l).setLane l 4).refree).freedSweep l

theorem State.onMeasure_first {s : State} {r l : Nat} (asks : PeerAsks s r l 5) (first : s.firstReq r l 5 = true) (idle : s.lnk.repair = none) :
    s.hear.onMeasure r l = s.measured r l := by
  refine (if_neg (ne_true_of_eq_false asks.request)).trans ((if_neg (ne_true_of_eq_false asks.open_)).trans ((if_pos first).trans ?_))
  rw [State.hear_lnk, idle]
  rfl

/-- The sweep of a lane outside the map begins. -/
def State.sweepBegun (s : State) (l : Nat) : State := { s with age := { s.age with sweep := some ⟨l, 0, false, false, 0⟩ } }

theorem State.sweepBegun_rd (s : State) (l off : Nat) : (s.sweepBegun l).rd off = s.rd off := rfl
theorem State.sweepBegun_sweep (s : State) (l : Nat) : (s.sweepBegun l).age.sweep = some ⟨l, 0, false, false, 0⟩ := rfl
theorem State.sweepBegun_lnk (s : State) (l : Nat) : (s.sweepBegun l).lnk = s.lnk := rfl
theorem State.sweepBegun_dlv (s : State) (l : Nat) : (s.sweepBegun l).dlv = s.dlv := rfl

theorem State.freedSweep_still {s : State} {l : Nat} (still : s.age.sweep = none) : s.freedSweep l = s.sweepBegun l := by
  unfold State.freedSweep
  rw [still]
  exact if_neg (ne_true_of_eq_false (congrArg Option.isSome still))

theorem State.measured_shows {s : State} {r l : Nat} (free : s.laneFree l = true) (still : s.age.sweep = none) :
    (s.measured r l).laneState l = 4 ∧ (s.measured r l).age.sweep = some ⟨l, 0, false, false, 0⟩
      ∧ (s.measured r l).lnk.repair = some ⟨false, l, l, false, false, 2, []⟩
      ∧ (s.measured r l).dlv.lc = s.dlv.lc ++ [⟨laneEqBody r l 5 noVals, s.now⟩] := by
  obtain ⟨-, has, present⟩ := (s.laneFree_iff l).mp free
  have enters := State.setLane_enters (s := s.measureReady r l) (st := 4)
    ((congrArg (fun i => (laneList i).contains l) (s.measureReady_place r l)).trans has) (by rw [State.measureReady_laneState]; exact present) (by decide)
  have quiet : (((s.measureReady r l).setLane l 4).refree).age.sweep = none := by
    rw [State.refree_age, enters.sweep, State.measureReady_sweep, still]
  have lnk : (((s.measureReady r l).setLane l 4).refree).lnk.repair = some ⟨false, l, l, false, false, 2, []⟩ := by
    rw [State.refree_lnk, enters.lnk, State.measureReady_repair]
  have lc : (((s.measureReady r l).setLane l 4).refree).dlv.lc = s.dlv.lc ++ [⟨laneEqBody r l 5 noVals, s.now⟩] := by
    rw [State.refree_dlv, enters.dlv, State.measureReady_lc]
  have state : (((s.measureReady r l).setLane l 4).refree).laneState l = 4 := by
    rw [State.refree_laneState, enters.state]
  rw [State.measured, State.freedSweep_still quiet]
  refine ⟨?_, State.sweepBegun_sweep _ l, ?_, ?_⟩
  · rw [State.laneState_of_rd (State.sweepBegun_rd _ l _), state]
  · rw [State.sweepBegun_lnk, lnk]
  · rw [State.sweepBegun_dlv, lc]

theorem laneEqMeasure_first {s : State} {l : Fin 18} {rq : Byte} (asks : PeerAsks s rq.toNat l 5) (first : s.firstReq rq.toNat l 5 = true)
    (still : s.age.sweep = none) (idle : s.lnk.repair = none) :
    ∃ t, exec (.laneEqMeasure rq l) s = .next t ∧ t.laneState l = 4 ∧ t.age.sweep = some ⟨l, 0, false, false, 0⟩
      ∧ t.lnk.repair = some ⟨false, l, l, false, false, 2, []⟩ ∧ t.dlv.lc = s.dlv.lc ++ [⟨laneEqBody rq.toNat l 5 noVals, s.now⟩] := by
  obtain ⟨state, sweep, repair, queued⟩ := State.measured_shows (r := rq.toNat) asks.free still
  obtain ⟨t, next⟩ := done_next s (s.measured rq.toNat l)
  refine ⟨t, (congrArg (done s) (State.onMeasure_first asks first idle)).trans next, ?_, ?_, ?_, ?_⟩
  · rw [State.laneState_of_rd (rd_of_done next _), state]
  · rw [age_of_done next, sweep]
  · rw [lnk_of_done next, repair]
  · rw [dlv_of_done next, queued]

/-! ### RELEASE -/

/-- A first RELEASE is answered, and the lane yields. -/
def State.letYield (s : State) (r l : Nat) : State := ((s.answeredFirst r l 6).hushLane l).yieldLane l

/-- The lane of a first RELEASE goes to Standby. -/
def State.letGo (s : State) (r l : Nat) : State := (s.letYield r l).toStandby l

theorem State.hushLane_yields (s : State) (l : Nat) : YieldKeeps s (s.hushLane l) := ⟨fun _ _ _ _ => rfl, fun _ _ => rfl, rfl, rfl, rfl, rfl⟩

theorem State.letYield_yields (s : State) (r l : Nat) : YieldKeeps (s.answeredFirst r l 6) (s.letYield r l) :=
  (State.hushLane_yields _ l).trans (State.yieldLane_yields _ l)

/-- A Castling that the peer releases the spare of is complete here too. -/
def State.castleComplete (s : State) : State :=
  if s.getB LINK_STATUS_CASTLING && !s.getB LINK_STATUS_INITIATOR then (s.setB LINK_STATUS_CASTLING false).count CNT_CASTLE else s

theorem State.onRelease_first {s : State} {r l : Nat} (asks : PeerAsks s r l 6) (first : s.firstReq r l 6 = true) :
    s.hear.onRelease r l = (s.letGo r l).castleComplete := by
  obtain ⟨link, has, -⟩ := (s.laneFree_iff l).mp asks.free
  have open_ : (s.hear.ownReq r l || !(s.hear.link == 4 || s.hear.link == 5) || !s.hear.lanes.contains l || s.hear.mapList.contains l) = false := by
    have out : s.hear.mapList.contains l = false := asks.out
    have other : s.hear.ownReq r l = false := asks.other
    have has' : s.hear.lanes.contains l = true := has
    have link' : (s.hear.link == 4 || s.hear.link == 5) = true := by
      show (s.link == 4 || s.link == 5) = true
      simpa using link
    rw [other, out, has', link']
    rfl
  exact (if_neg (ne_true_of_eq_false asks.request)).trans ((if_neg (ne_true_of_eq_false open_)).trans (if_pos first))

theorem State.castleComplete_yields (s : State) : YieldKeeps s s.castleComplete := by
  unfold State.castleComplete
  split
  · exact (s.castling_yields false).trans (State.count_yields _ (by decide) 1)
  · exact YieldKeeps.refl s

theorem State.letGo_shows {s : State} {r l : Nat} (free : s.laneFree l = true) (kept : s.getF (AGE_LANE_STAT_VERDICT l) ≠ 3) :
    (s.letGo r l).laneState l = 1 ∧ (s.letGo r l).dlv.lc = s.dlv.lc ++ [⟨laneEqBody r l 6 noVals, s.now⟩] := by
  have low := laneFree_lt free
  obtain ⟨-, lanes, free'⟩ := (s.laneFree_iff l).mp free
  have yields := s.letYield_yields r l
  have has : (s.letYield r l).lanes.contains l = true := (congrArg (fun i => (laneList i).contains l) (yields.place.trans (s.answeredFirst_place r l 6))).trans lanes
  have present : (s.letYield r l).laneState l ≠ 5 := by
    rw [yields.state l low, State.laneState_of_rd (s.answeredFirst_rd r l 6 _)]
    exact free'
  have verdict : (s.letYield r l).getF (AGE_LANE_STAT_VERDICT l) = s.getF (AGE_LANE_STAT_VERDICT l) := by
    refine (State.getF_of_rd _ (yields.rd _ (.inl ?_) ?_ fun k => ?_)).trans (State.getF_of_rd _ (s.answeredFirst_rd r l 6 _))
    · simp only [AGE_LANE_STAT_VERDICT]; omega
    · simp only [AGE_LANE_STAT_VERDICT, LINK_STATUS]; omega
    · simp only [AGE_LANE_STAT_VERDICT, LANE_STATUS]; omega
  have enters := State.setLane_enters (st := 1) has present (by decide)
  have standby : (s.letYield r l).toStandby l = ((s.letYield r l).setLane l 1).refree := by
    unfold State.toStandby
    rw [verdict, if_neg kept]
  rw [State.letGo, standby]
  refine ⟨?_, ?_⟩
  · rw [State.refree_laneState, enters.state]
  · rw [State.refree_dlv, enters.dlv, yields.lc, State.answeredFirst_lc]

theorem laneEqRelease_first {s : State} {l : Fin 18} {rq : Byte} (asks : PeerAsks s rq.toNat l 6) (first : s.firstReq rq.toNat l 6 = true)
    (kept : s.getF (AGE_LANE_STAT_VERDICT l) ≠ 3) :
    ∃ t, exec (.laneEqRelease rq l) s = .next t ∧ t.laneState l = 1 ∧ t.dlv.lc = s.dlv.lc ++ [⟨laneEqBody rq.toNat l 6 noVals, s.now⟩] := by
  obtain ⟨state, queued⟩ := State.letGo_shows (r := rq.toNat) asks.free kept
  have complete := (s.letGo rq.toNat l).castleComplete_yields
  obtain ⟨t, next⟩ := done_next s (s.letGo rq.toNat l).castleComplete
  refine ⟨t, (congrArg (done s) (State.onRelease_first asks first)).trans next, ?_, ?_⟩
  · rw [State.laneState_of_rd (rd_of_done next _), complete.state _ (laneFree_lt asks.free), state]
  · rw [dlv_of_done next, complete.lc, queued]


/-! ### SET and SET-DONE -/

/-- Values that come in a message are those of the word they make, where R43 allows them. -/
theorem valsOf_eqWord {v : EqVals} (ok : eqAllowed v.swing.toNat v.pre2.toNat v.pre1.toNat v.post1.toNat = true) :
    valsOf (eqOfWord (eqWord v.swing.toNat v.pre2.toNat v.pre1.toNat v.post1.toNat)) = v := by
  rw [eqOfWord_eqWord ok]
  simp [valsOf]

/-- The word of values. -/
def wordOf (v : EqVals) : Nat := eqWord v.swing.toNat v.pre2.toNat v.pre1.toNat v.post1.toNat

/-- The values of a first SET are in force on a lane that is not in use. -/
def State.setTaken (s : State) (r l : Nat) (v : EqVals) : State := (s.hear.noteReq r l 1).applyTx l (wordOf v)

theorem State.setTaken_codes {s : State} {r l : Nat} {v : EqVals} (ok : eqAllowed v.swing.toNat v.pre2.toNat v.pre1.toNat v.post1.toNat = true) :
    eqOfWord ((s.setTaken r l v).rd (LANE_TXEQ l)) = (v.swing.toNat, v.pre2.toNat, v.pre1.toNat, v.post1.toNat) :=
  (State.applyTx_codes _ l _).trans (eqOfWord_eqWord ok)

theorem State.setTaken_words (s : State) (r l : Nat) (v : EqVals) : WordsKept [LANE_TXEQ l] s (s.setTaken r l v) :=
  fun off out => (onlyRegs_applyTx (s.hear.noteReq r l 1) l (wordOf v)).2.1 off out

theorem State.applyTx_dlv (s : State) (l v : Nat) : (s.applyTx l v).dlv = s.dlv := State.setFs_dlv s _
theorem State.applyTx_now (s : State) (l v : Nat) : (s.applyTx l v).now = s.now := State.setFs_now s _

theorem State.setTaken_lc (s : State) (r l : Nat) (v : EqVals) : (s.setTaken r l v).dlv.lc = s.dlv.lc := by
  rw [State.setTaken, State.applyTx_dlv]
  rfl

theorem State.setTaken_now (s : State) (r l : Nat) (v : EqVals) : (s.setTaken r l v).now = s.now := by
  rw [State.setTaken, State.applyTx_now]
  rfl

theorem State.onSet_first {s : State} {r l : Nat} {v : EqVals} (free : s.laneFree l = true)
    (ok : eqAllowed v.swing.toNat v.pre2.toNat v.pre1.toNat v.post1.toNat = true) (first : s.firstReq r l 1 = true) (idle : s.laneState l ≠ 3)
    (still : s.age.sweep = none) : s.hear.onSet r l v = (s.setTaken r l v).sendLaneEq r l 2 v := by
  have taken : (if s.hear.firstReq r l 1 then (if eqAllowed v.swing.toNat v.pre2.toNat v.pre1.toNat v.post1.toNat then (s.hear.noteReq r l 1).writeTx l (wordOf v)
      else s.hear.noteReq r l 1) else s.hear) = s.setTaken r l v :=
    (if_pos first).trans ((if_pos ok).trans (State.writeTx_idle (s := s.hear.noteReq r l 1) still idle (codesAllowed_eqWord ok)))
  have carried : valsOf (eqOfWord ((s.setTaken r l v).rd (LANE_TXEQ l))) = v := by
    rw [State.setTaken_codes ok]
    simp [valsOf]
  have open_ : (!s.hear.laneFree l) = false := congrArg not free
  refine (if_neg (ne_true_of_eq_false open_)).trans ?_
  refine (congrArg (fun u : State => u.sendLaneEq r l 2 (valsOf (eqOfWord (u.rd (LANE_TXEQ l))))) taken).trans ?_
  rw [carried]

theorem laneEqSet_first {s : State} {l : Fin 18} {rq : Byte} {v : EqVals} (free : s.laneFree l = true)
    (ok : eqAllowed v.swing.toNat v.pre2.toNat v.pre1.toNat v.post1.toNat = true) (first : s.firstReq rq.toNat l 1 = true) (idle : s.laneState l ≠ 3)
    (still : s.age.sweep = none) : ∃ t, exec (.laneEqSet rq l v) s = .next t
      ∧ eqOfWord (t.rd (LANE_TXEQ l)) = (v.swing.toNat, v.pre2.toNat, v.pre1.toNat, v.post1.toNat)
      ∧ t.dlv.lc = s.dlv.lc ++ [⟨laneEqBody rq.toNat l 2 v, s.now⟩] ∧ WordsKept [LANE_TXEQ l] s t := by
  obtain ⟨t, next⟩ := done_next s ((s.setTaken rq.toNat l v).sendLaneEq rq.toNat l 2 v)
  have words (off : Nat) : t.rd off = (s.setTaken rq.toNat l v).rd off := by rw [rd_of_done next, State.sendLaneEq_rd]
  refine ⟨t, (congrArg (done s) (State.onSet_first free ok first idle still)).trans next, ?_, ?_, fun off out => ?_⟩
  · rw [words, State.setTaken_codes ok]
  · rw [dlv_of_done next, State.sendLaneEq_lc, State.setTaken_lc, State.setTaken_now]
  · rw [words, s.setTaken_words _ _ _ off out]

theorem laneEqSetDone_answer {s : State} {l : Fin 18} {rq : Byte} (answer : s.isAnswer rq.toNat l 2 = true) (v : EqVals) :
    ∃ t, exec (.laneEqSetDone rq l v) s = .next t ∧ t.regs = s.regs ∧ t.dlv = s.hear.dlv ∧ t.askedOf l = wordOf v := by
  refine ⟨(s.hear.endAsk rq.toNat l).setAsked l (wordOf v), ?_, rfl, rfl, State.setAsked_asked _ _ _⟩
  exact (congrArg (done s) (if_pos answer)).trans (done_eq_next rfl rfl)

theorem laneEqSetDone_other {s : State} {l : Fin 18} {rq : Byte} (other : s.isAnswer rq.toNat l 2 = false) (v : EqVals) :
    exec (.laneEqSetDone rq l v) s = .next s.hear :=
  (congrArg (done s) (if_neg (ne_true_of_eq_false other))).trans (done_eq_next rfl rfl)

/-! ### QUAL and FAIL -/

/-- A lane is marked in the repair in hand. -/
def State.repairMarked (s : State) (p : Repair) : State := { s with lnk := { s.lnk with repair := some p } }

theorem Repair.mark_peer (p : Repair) (l : Nat) : (p.mark l false).ownQual = p.ownQual := by
  unfold Repair.mark
  dsimp only
  split <;> rfl

theorem laneEqQual_marks {s : State} {l : Fin 18} {p : Repair} (repair : s.lnk.repair = some p) (waits : p.ownQual = false) :
    exec (.laneEqQual l) s = .next (s.hear.repairMarked (p.mark l false)) := by
  have more : (p.mark l false).allQual = false := by
    unfold Repair.allQual
    rw [Repair.mark_peer, waits]
    rfl
  have marked : s.hear.onQual l = (s.hear.repairMarked (p.mark l false)).judged := by
    unfold State.onQual
    rw [State.hear_lnk, repair]
    rfl
  have same : (s.hear.repairMarked (p.mark l false)).judged = s.hear.repairMarked (p.mark l false) := if_pos (congrArg not more)
  exact (congrArg (done s) (marked.trans same)).trans (done_eq_next rfl rfl)

/-- A lane that fails while no repair is in hand is excluded, and goes to Standby. -/
def State.failed (s : State) (l : Nat) : State := ((s.exclude (2 ^ l)).setLane l 1).refree

theorem State.laneFails_idle {s : State} {l : Nat} (idle : s.lnk.repair = none) (training : s.laneState l = 2) : s.laneFails l = s.failed l := by
  unfold State.laneFails
  rw [idle]
  exact if_pos training

theorem State.exclude_laneState (s : State) (mask l : Nat) : (s.exclude mask).laneState l = s.laneState l :=
  State.laneState_of_rd (s.exclude_words mask _ (by simp only [LANE_STATUS, LINK_EXCL, LINK_STATUS, List.mem_cons, List.not_mem_nil, or_false]; omega))

theorem linkExcl_out (l : Nat) : LINK_EXCL ∉ laneWords l := by
  simp only [laneWords, LINK_EXCL, LANE_STATUS, LANE_TXEQ, LANE_RXEQ, LANE_SNR, LANE_PAT, LANE_PRBS_ERR, List.mem_cons, List.not_mem_nil, or_false]
  omega

theorem State.failed_shows {s : State} {l : Nat} (training : s.laneState l = 2) (has : s.lanes.contains l = true) :
    (s.failed l).laneState l = 1 ∧ (s.failed l).excl = (s.excl ||| 2 ^ l) % 2 ^ 18 ∧ (s.failed l).dlv = s.dlv := by
  have beside := s.exclude_beside (2 ^ l)
  have enters := State.setLane_enters (s := s.exclude (2 ^ l)) (l := l) (st := 1) (by rw [beside.lanes]; exact has)
    (by rw [State.exclude_laneState, training]; decide) (by decide)
  refine ⟨?_, ?_, ?_⟩
  · rw [State.failed, State.refree_laneState, enters.state]
  · rw [State.failed, State.excl, State.getF_of_rd _ (State.refree_rd _ (by decide)), State.getF_of_rd _ (enters.rd _ (linkExcl_out l))]
    exact s.exclude_excl _
  · rw [State.failed, State.refree_dlv, enters.dlv, State.exclude, State.refree_dlv, State.setF_dlv]

theorem laneEqFail_excludes {s : State} {l : Fin 18} (idle : s.lnk.repair = none) (training : s.laneState l = 2) (has : s.lanes.contains l.val = true) :
    ∃ t, exec (.laneEqFail l) s = .next t ∧ t.laneState l = 1 ∧ t.excl = (s.excl ||| 2 ^ l.val) % 2 ^ 18 := by
  obtain ⟨state, excl, -⟩ := State.failed_shows (s := s.hear) (l := l) training has
  obtain ⟨t, next⟩ := done_next s (s.hear.failed l)
  refine ⟨t, (congrArg (done s) (State.laneFails_idle (s := s.hear) idle training)).trans next, ?_, ?_⟩
  · rw [State.laneState_of_rd (rd_of_done next _), state]
  · exact (State.getF_of_rd _ (rd_of_done next _)).trans excl

/-! ### Repeats -/

theorem foldl_sendLaneEq (es : List LaneEqMsg) (s : State) : es.foldl (fun s e => s.sendLaneEq e.reqid e.lane e.op e.vals) s
    = { s with dlv := { s.dlv with lc := s.dlv.lc ++ es.map (fun e => ⟨laneEqBody e.reqid e.lane e.op e.vals, s.now⟩) } } := by
  induction es generalizing s with
  | nil => simp
  | cons e es ih =>
    rw [List.foldl_cons, ih]
    simp [State.sendLaneEq, State.queueLc]

theorem laneEqRepeat_all {s : State} (link : s.link = 4 ∨ s.link = 5) (few : ∀ e ∈ s.lnk.eqs, e.sends < 64) :
    exec .laneEqRepeat s = .next { s with
      lnk := { s.lnk with eqs := s.lnk.eqs.map (fun e => { e with sends := e.sends + 1 }) }
      dlv := { s.dlv with lc := s.dlv.lc ++ s.lnk.eqs.map (fun e => ⟨laneEqBody e.reqid e.lane e.op e.vals, s.now⟩) } } := by
  have spent : s.lnk.eqs.filter (fun e => decide (64 ≤ e.sends)) = [] :=
    List.filter_eq_nil_iff.mpr fun e he => by simpa using few e he
  have live : s.lnk.eqs.filter (fun e => decide (e.sends < 64)) = s.lnk.eqs :=
    List.filter_eq_self.mpr fun e he => decide_eq_true (few e he)
  have open_ : (!(s.link == 4 || s.link == 5)) = false := by rcases link with h | h <;> rw [h] <;> rfl
  refine (congrArg (done s) (if_neg (ne_true_of_eq_false open_))).trans ?_
  rw [spent, live, List.foldl_nil, foldl_sendLaneEq]
  exact done_eq_next rfl rfl

/-! ### The qualification of a spare ends, R135 -/

theorem State.prbsErrs_laneStep (s : State) (l n : Nat) : LaneStep l s (s.prbsErrs l n) := by
  unfold State.prbsErrs
  split
  · exact LaneStep.refl l s
  · exact ((LaneField.errors (f := LANE_PRBS_ERR_COUNT l) rfl (of_decide_eq_true rfl)).setF s _).trans (State.takeFree_laneStep _ l)

theorem State.ownVerdict_idle {s : State} (idle : s.lnk.repair = none) (l : Nat) (ok : Bool) : s.ownVerdict l ok = s.tellLane l (if ok then 3 else 4) := by
  unfold State.ownVerdict
  have told : (s.tellLane l (if ok then 3 else 4)).lnk.repair = none := idle
  dsimp only
  rw [told]

theorem State.tellLane_lc (s : State) (l op : Nat) : (s.tellLane l op).dlv.lc = s.dlv.lc ++ [⟨laneEqBody 0 l op noVals, s.now⟩] := rfl
theorem State.tellLane_rd (s : State) (l op off : Nat) : (s.tellLane l op).rd off = s.rd off := rfl
theorem State.tellLane_place (s : State) (l op : Nat) : (s.tellLane l op).place = s.place := rfl
theorem State.tellLane_repair (s : State) (l op : Nat) : (s.tellLane l op).lnk.repair = s.lnk.repair := rfl

theorem State.judged_idle {s : State} (idle : s.lnk.repair = none) : s.judged = s := by unfold State.judged; rw [idle]

theorem spareQualifyEnd_next {s : State} {l : Fin 18} (errs : Nat) (link : s.link = 4 ∨ s.link = 5) (training : s.laneState l = 2)
    (searched : s.searchOf l = none) : exec (.spareQualifyEnd l errs) s = done s (if errs ≤ 16 then ((s.prbsErrs l errs).ownVerdict l true).judged
      else ((s.prbsErrs l errs).ownVerdict l false).laneFails l) := by
  have link' : (s.link == 4 || s.link == 5) = true := by rcases link with h | h <;> rw [h] <;> rfl
  refine congrArg (done s) (if_neg ?_)
  rw [training, searched, link']
  decide

/-- A spare that qualifies tells the peer; one that does not tells it too, and is excluded (R135). -/
theorem spareQualifyEnd_tells {s : State} {l : Fin 18} (errs : Nat) (link : s.link = 4 ∨ s.link = 5) (training : s.laneState l = 2)
    (has : s.lanes.contains l.val = true) (idle : s.lnk.repair = none) (searched : s.searchOf l = none) :
    ∃ t, exec (.spareQualifyEnd l errs) s = .next t ∧ t.dlv.lc = s.dlv.lc ++ [⟨laneEqBody 0 l (if errs ≤ 16 then 3 else 4) noVals, s.now⟩]
      ∧ t.laneState l = (if errs ≤ 16 then 2 else 1) ∧ (16 < errs → bitOf t.excl l = true) := by
  have counted := s.prbsErrs_laneStep l errs
  have idle' : (s.prbsErrs l errs).lnk.repair = none := (congrArg Lnk.repair counted.lnk).trans idle
  have told (op : Nat) : ((s.prbsErrs l errs).tellLane l op).dlv.lc = s.dlv.lc ++ [⟨laneEqBody 0 l op noVals, s.now⟩] := by
    rw [State.tellLane_lc, counted.dlv, counted.now]
  have state (op : Nat) : ((s.prbsErrs l errs).tellLane l op).laneState l = 2 := by
    rw [State.laneState_of_rd (State.tellLane_rd _ _ _ _), counted.state, training]
  rw [spareQualifyEnd_next errs link training searched, State.ownVerdict_idle idle', State.ownVerdict_idle idle']
  by_cases good : errs ≤ 16
  · rw [if_pos good, if_pos good, if_pos good, State.judged_idle ((State.tellLane_repair _ _ _).trans idle')]
    obtain ⟨t, next⟩ := done_next s ((s.prbsErrs l errs).tellLane l 3)
    refine ⟨t, next, ?_, ?_, fun bad => absurd bad (by omega)⟩
    · rw [dlv_of_done next, told]
    · rw [State.laneState_of_rd (rd_of_done next _), state]
  · have lanes : ((s.prbsErrs l errs).tellLane l 4).lanes.contains l.val = true :=
      (congrArg (fun i => (laneList i).contains l.val) ((State.tellLane_place _ _ _).trans counted.place)).trans has
    obtain ⟨stands, excl, dlv⟩ := State.failed_shows (state 4) lanes
    rw [if_neg good, if_neg good, if_neg good]
    refine ⟨_, (congrArg (done s) (State.laneFails_idle ((State.tellLane_repair _ _ _).trans idle') (state 4))).trans rfl, ?_, stands, fun _ => ?_⟩
    · exact (congrArg Dlv.lc dlv).trans (told 4)
    · refine (congrArg (bitOf · l.val) excl).trans ?_
      rw [bitOf_eq_testBit, Nat.testBit_mod_two_pow, Nat.testBit_or, Nat.testBit_two_pow_self]
      simp

end Sys2Proof.Machine

namespace Sys2Proof

open Machine

/-- Settles O47: each message of LANE-EQ does what the function of its operation does on a lane that may be worked on. -/
theorem laneEqIsAnswered : Obligations.LaneEqIsAnswered := by
  unfold Obligations.LaneEqIsAnswered
  intro s l rq link
  refine ⟨fun free out => ⟨fun other request first => ?_, fun other request again => ?_, fun other request first still idle => ?_,
    fun other request first kept => ?_⟩, fun v free ok first idle still => laneEqSet_first free ok first idle still,
    fun v => ⟨fun answer => laneEqSetDone_answer answer v, fun other => laneEqSetDone_other other v⟩,
    fun p repair waits => laneEqQual_marks repair waits, fun idle training has => laneEqFail_excludes idle training has,
    fun few => laneEqRepeat_all link few, fun errs training has idle searched => spareQualifyEnd_tells errs link training has idle searched⟩
  · exact laneEqPrep_first ⟨free, out, other, request⟩ first
  · exact laneEqPrep_repeat ⟨free, out, other, request⟩ again
  · exact laneEqMeasure_first ⟨free, out, other, request⟩ first still idle
  · exact laneEqRelease_first ⟨free, out, other, request⟩ first kept

end Sys2Proof
end

section
/-! SUPPORT. The receiver: its counters, which neither time nor an event touches, and what a flit with a quiet header does (R39, R79–R81). -/

namespace Sys2Proof.Machine

/-! ### Words that neither time nor an event changes -/

/-- The words of the receiver's counters. -/
def ReceiverWords : List Nat := [0x5030, 0x5034, 0x5038, 0x503C, 0x5090, 0x5094, 0x511C, 0x5134]

/-- A plain word, or one of the receiver's counters. -/
def Steady (off : Nat) : Prop := PlainWord off ∨ off ∈ ReceiverWords

theorem Steady.plain {off : Nat} (h : PlainWord off) : Steady off := .inl h

theorem Steady.cases {off : Nat} (h : Steady off) : off < 0x5000 ∨ 0x5800 ≤ off ∨ off = 0x5030 ∨ off = 0x5034 ∨ off = 0x5038 ∨ off = 0x503C
    ∨ off = 0x5090 ∨ off = 0x5094 ∨ off = 0x511C ∨ off = 0x5134 := by
  unfold Steady PlainWord ReceiverWords at h
  simp only [List.mem_cons, List.not_mem_nil, or_false] at h
  omega

/-- The counters of the ticks are none of the receiver's. -/
theorem State.rd_tickCounts_steady (s : State) (d : Nat) {off : Nat} (h : Steady off) : (s.tickCounts d).rd off = s.rd off := by
  have := h.cases
  unfold State.tickCounts
  simp only
  rw [State.rd_countIf, State.rd_countIf, State.rd_countIf, State.rd_countIf, State.rd_countIf, State.rd_countIf, State.rd_countIf, State.rd_foldl]
  · intro t c hc
    have := List.mem_range.1 hc
    exact State.rd_countIf _ _ _ _ (by simp only [CNT_CRSTALL]; omega) (by simp only [CNT_CRSTALL]; omega)
  all_goals
    simp only [CNT_BANK_FULL, CNT_STR_STARVE, CNT_MOV_FETCH_STALL, CNT_MOV_TAG_STALL, CNT_FOLD_OPWAIT, CNT_XJ_WAIT, CNT_FW_PACE]
    omega

/-- Of the steady words, time changes those of the checkers alone. -/
theorem State.rd_elapse_steady (s : State) (d : Nat) {off : Nat} (h : Steady off) (h' : off ∉ PassingWords) : (s.elapse d).rd off = s.rd off := by
  unfold State.elapse; split
  · rfl
  · exact (State.rd_patLocks _ h').trans (State.rd_tickCounts_steady s d h)

theorem State.rd_trace_low (s : State) (ty : Nat) (d : List Byte) {off : Nat} (h : off < 0x5200) : (s.trace ty d).rd off = s.rd off := by
  have record : ∀ (t : State) (r : List Byte), (t.traceIn r).rd off = t.rd off := by
    intro t r
    unfold State.traceIn; split
    · rfl
    · exact State.rd_count_ne _ _ _ (by simp only [CNT_TRACE_DROP]; omega) (by simp only [CNT_TRACE_DROP]; omega)
  unfold State.trace
  rw [record, State.rd_setF_ne _ _ _ (by simp only [TRACE_SEQ_SEQ]; omega)]

theorem State.rd_evRegs_low (s : State) (k c d : Nat) (b : Bool) {off : Nat} (h : off < 0x5200) : (s.evRegs k c d b).rd off = s.rd off := by
  have cnt : 0x5200 ≤ (evCnt k).off := by unfold evCnt; split <;> (try split) <;> decide
  unfold State.evRegs State.evSeen
  rw [State.rd_setF_ne _ _ _ (by simp only [EVT_STATUS_SEEN]; omega), State.rd_putW_ne _ _ _ (by simp only [EVT_LAST_TICK]; omega)
    (by simp only [EVT_LAST_TICK]; omega), State.rd_wr_ne _ _ (by simp only [EVT_DETAIL]; omega), State.rd_wr_ne _ _ (by simp only [EVT_LAST]; omega),
    State.rd_count_ne _ _ _ (by omega) (by omega)]

theorem State.rd_evQueue_low (s : State) (e : Ev) {off : Nat} (h : off < 0x5200) : (s.evQueue e).rd off = s.rd off := by
  have lost : ∀ (t : State) (q : List Ev), (t.evLost q).rd off = t.rd off := by
    intro t q
    unfold State.evLost
    rw [State.rd_setB_ne _ _ _ (by simp only [EVT_STATUS_LOST]; omega), State.rd_count_ne _ _ _ (by simp only [CNT_EV_DROP]; omega)
      (by simp only [CNT_EV_DROP]; omega)]
    rfl
  unfold State.evQueue; split
  · unfold State.evFail; split
    · rfl
    · exact lost _ _
  · unfold State.evMinor; split
    · rfl
    · split
      · rfl
      · exact lost _ _

/-- An event counts in its own counters alone, which lie behind all the others. -/
theorem State.rd_raise_low (s : State) (c : Nat) {off : Nat} (h : off < 0x5200) : (s.raise c).rd off = s.rd off := by
  unfold State.raise State.raiseD
  rw [State.rd_evQueue_low _ _ h]
  unfold State.evTrace
  split
  · rw [State.rd_trace_low _ _ _ h, State.rd_evRegs_low _ _ _ _ _ h]
  · exact State.rd_evRegs_low _ _ _ _ _ h

/-! ### A flit as it arrives -/

/-- `t` is `s` after `dt` ticks and the arrival of a flit, but for what stands in the words `ws` and for its place in the lanes' group. -/
structure Arrived (dt : Nat) (ws : List Nat) (s t : State) : Prop where
  rd : ∀ off, Steady off → off ∉ ws → t.rd off = s.rd off
  dlv : t.dlv = { s.dlv with heard := some (s.now + dt) }
  trn : t.trn = s.trn
  now : t.now = s.now + dt
  place : t.place = s.place
  pending : t.pending = s.pending

theorem Arrived.mono {dt : Nat} {ws ws' : List Nat} {s t : State} (h : Arrived dt ws s t) (sub : ws ⊆ ws') : Arrived dt ws' s t :=
  { h with rd := fun off st hw => h.rd off st (fun hm => hw (sub hm)) }

/-- What neither a steady word nor the receiver's state notices. -/
theorem Arrived.step {dt : Nat} {ws : List Nat} {s t u : State} (h : Arrived dt ws s t) (rd : ∀ off, Steady off → off ∉ ws → u.rd off = t.rd off)
    (dlv : u.dlv = t.dlv) (trn : u.trn = t.trn) (now : u.now = t.now) (place : u.place = t.place) (pending : u.pending = t.pending) :
    Arrived dt ws s u where
  rd off st hw := (rd off st hw).trans (h.rd off st hw)
  dlv := dlv.trans h.dlv
  trn := trn.trans h.trn
  now := now.trans h.now
  place := place.trans h.place
  pending := pending.trans h.pending

/-- The ticks before an arrival, and the note of it. -/
theorem Arrived.of_elapse {s : State} (dt : Nat) (running : s.clockRuns = true) : Arrived dt PassingWords s (s.elapse dt).hear := by
  have only := s.elapse_only dt
  refine ⟨fun off st hw => State.rd_elapse_steady s dt st hw, ?_, ?_, s.elapse_now dt running, ?_, ?_⟩
  · unfold State.hear
    rw [s.elapse_now dt running, show (s.elapse dt).dlv = s.dlv by rw [only]]
  all_goals
    show _ = _
    unfold State.hear
    rw [only]

/-- A counter that is none of the receiver's own. -/
theorem Arrived.count {dt : Nat} {ws : List Nat} {s t : State} (h : Arrived dt ws s t) {c : Cnt} (n : Nat) (low : 0x5000 ≤ c.off) (high : c.off < 0x5200)
    (other : c.off ∉ ReceiverWords) (other' : c.off + 4 ∉ ReceiverWords) : Arrived dt ws s (t.count c n) := by
  refine h.step (fun off st _ => ?_) (t.count_dlv c n) (t.count_trn c n) (t.count_now c n) (t.count_place c n) (t.count_pending c n)
  rcases st with st | st
  · unfold PlainWord at st
    exact State.rd_count_ne t c n (by omega) (by omega)
  · exact State.rd_count_ne t c n (fun e => other (e ▸ st)) (fun e => other' (e ▸ st))

theorem Arrived.rxGroup {dt : Nat} {ws : List Nat} {s t : State} (h : Arrived dt ws s t) : Arrived dt ws s t.rxGroup := by
  unfold State.rxGroup
  simp only
  split
  · exact h.step (fun _ _ _ => rfl) rfl rfl rfl rfl rfl
  · exact h.step (fun _ _ _ => rfl) rfl rfl rfl rfl rfl

/-- The words of the lanes' counters of corrected symbols. -/
def FecWords : List Nat := (List.range 18).flatMap (fun l => [(LANE_FECCORR l).off, (LANE_FECCORR l).off + 4])

/-- Symbols corrected are charged to their lanes. -/
theorem Arrived.charge {dt : Nat} {ws : List Nat} {s t : State} (h : Arrived dt ws s t) (fixed : List Nat) (fec : FecWords ⊆ ws) :
    Arrived dt ws s (t.charge fixed) := by
  unfold State.charge
  simp only
  generalize t.lnk.rxMap = m
  generalize t.lnk.fRx = f
  induction fixed generalizing t with
  | nil => exact h
  | cons j fixed ih =>
    rw [List.foldl_cons]
    refine ih ?_
    split
    · rename_i hl
      have hl := lanes_lt (List.contains_iff_mem.1 hl)
      refine h.step (fun off _ hw => ?_) rfl rfl rfl rfl rfl
      have words : ∀ w ∈ [(LANE_FECCORR _).off, (LANE_FECCORR _).off + 4], w ∈ ws := fun w hm =>
        fec (List.mem_flatMap.2 ⟨_, List.mem_range.2 hl, hm⟩)
      exact State.rd_putW_ne t _ _ (fun e => hw (e ▸ words _ (by simp))) (fun e => hw (e ▸ words _ (by simp)))
    · exact h

/-- No more than four symbols of a codeword are corrected (R36). -/
theorem rsErrors_length {r : List Nat} {es : List (Nat × Nat)} (h : rsErrors r = some es) : es.length ≤ 4 := by
  unfold rsErrors at h
  simp only at h
  split at h
  · rw [← Option.some.inj h]; simp
  · split at h
    · rename_i hc
      simp only [Bool.and_eq_true, decide_eq_true_eq, beq_iff_eq] at hc
      rw [← Option.some.inj h, List.length_map]
      omega
    · exact absurd h (by simp)

theorem decodeFlit_hist {l : List Byte} {n : Nat} (h : n ∈ (decodeFlit l).hist) : n ≤ 4 := by
  unfold decodeFlit at h
  simp only [List.mem_append, Option.mem_toList, Option.map_eq_some_iff] at h
  rcases h with ⟨es, he, rfl⟩ | ⟨es, he, rfl⟩ <;> exact rsErrors_length he

theorem Arrived.hist {dt : Nat} {ws : List Nat} {s t : State} (h : Arrived dt ws s t) {l : List Nat} (four : ∀ n ∈ l, n ≤ 4) :
    Arrived dt ws s (l.foldl (fun s n => s.count (CNT_FEC_HIST n)) t) := by
  induction l generalizing t with
  | nil => exact h
  | cons n l ih =>
    have hn := four n List.mem_cons_self
    rw [List.foldl_cons]
    refine ih (h.count 1 ?_ ?_ ?_ ?_) (fun m hm => four m (List.mem_cons_of_mem _ hm)) <;> simp [CNT_FEC_HIST, ReceiverWords] <;> omega

/-- What the lanes' decoder notes of a flit, before it reads it. -/
def State.decoded (s : State) (d : Decoded) : State :=
  (d.hist.foldl (fun s n => s.count (CNT_FEC_HIST n)) (s.charge d.fixed).rxGroup).count CNT_FEC_UNCORR d.uncorr

theorem Arrived.decoded {dt : Nat} {ws : List Nat} {s t : State} {d : Decoded} (charged : Arrived dt ws s (t.charge d.fixed))
    (four : ∀ n ∈ d.hist, n ≤ 4) : Arrived dt ws s (t.decoded d) :=
  (charged.rxGroup.hist four).count d.uncorr (by decide) (by decide) (by decide) (by decide)

/-! ### Through the crossing, to the decoder -/

theorem State.through_open {s : State} {x : Nat} {i : Instr} {f : State → State} (running : s.isl.inReset = false) (isOpen : s.xOpen x = true) :
    s.through [x] i f = f s := by
  unfold State.through
  rw [running, List.find?_cons_of_neg (by rw [isOpen]; decide)]
  rfl

theorem State.clockRuns_of_xOpen {s : State} {x : Nat} (h : s.xOpen x = true) : s.clockRuns = true := by
  unfold State.xOpen at h
  simp only [Bool.and_eq_true] at h
  exact h.1.1

theorem State.inReset_of_clockRuns {s : State} (h : s.clockRuns = true) : s.isl.inReset = false := by
  unfold State.clockRuns at h
  simpa using (Bool.and_eq_true_iff.1 h).2

/-- Time opens and closes no crossing. -/
theorem State.xOpen_elapse (s : State) (dt : Nat) : (s.elapse dt).xOpen 0 = s.xOpen 0 := by
  have isl : (s.elapse dt).isl = s.isl := by rw [s.elapse_only dt]
  have seen : (s.elapse dt).getB ISL_STATUS_LCORE_OK = s.getB ISL_STATUS_LCORE_OK :=
    State.getB_of_rd _ (s.rd_elapse dt _ (by unfold PlainWord; decide) (by decide))
  have clocks : xClocks 0 = [.linkCore] := rfl
  unfold State.xOpen State.clockRuns
  rw [isl, clocks]
  simp only [List.all_cons, List.all_nil, State.clkSeen, seen]

theorem State.linkRuns_of_rd {s t : State} (h : t.rd LINK_STATUS = s.rd LINK_STATUS) : t.linkRuns = s.linkRuns := by
  unfold State.linkRuns State.link
  rw [State.getF_of_rd LINK_STATUS_STATE h]

/-- A flit that comes through the open crossing is heard, and what its lanes carried is read. -/
theorem exec_flitReceive_open {s : State} (dt : Nat) (wire : BitVec 2176) (isOpen : s.xOpen 0 = true) :
    exec (.flitReceive dt wire) s = done s ((s.elapse dt).hear.onWire wire) := by
  have isl : (s.elapse dt).isl = s.isl := by rw [s.elapse_only dt]
  refine congrArg (done s) (State.through_open ?_ ((s.xOpen_elapse dt).trans isOpen))
  rw [isl, State.inReset_of_clockRuns (State.clockRuns_of_xOpen isOpen)]

theorem exec_flitReceive_closed {s : State} (wire : BitVec 2176) (closed : s.xOpen 0 = false) (running : s.isl.inReset = false) (empty : s.isl.wait = []) :
    exec (.flitReceive 0 wire) s = .next { s with isl := { s.isl with wait := [(0, .arrival (.flitReceive 0 wire))] } } := by
  have still : s.elapse 0 = s := rfl
  have waits : s.through [0] (.flitReceive 0 wire) (·.hear.onWire wire)
      = { s with isl := { s.isl with wait := [(0, .arrival (.flitReceive 0 wire))] } } := by
    unfold State.through
    rw [running, List.find?_cons_of_pos (by rw [closed]; rfl)]
    unfold State.offerAt State.hold
    rw [empty]
    rfl
  show done s ((s.elapse 0).through [0] (.flitReceive 0 wire) (·.hear.onWire wire)) = _
  rw [still, waits]
  rfl

/-- What the lanes' decoder reads of a flit. -/
def State.reads (s : State) (wire : BitVec 2176) : Decoded := decodeFlit (scramble s.lnk.rxMap s.lnk.gRx s.lnk.fRx (wireBytes wire))

theorem State.onWire_eq {s : State} (wire : BitVec 2176) (up : s.linkRuns = true) : s.onWire wire = match (s.reads wire).flit with
    | none => (s.decoded (s.reads wire)).crcFails
    | some f => if crc64 (f.take 248) = bytesAt f 248 8 then (s.decoded (s.reads wire)).onFlit f
        else ((s.decoded (s.reads wire)).count CNT_FEC_MISCORR).crcFails := by
  have runs : (!s.linkRuns) = false := by rw [up]; rfl
  unfold State.onWire
  exact if_neg (ne_true_of_eq_false runs)

/-! ### Replay-wait, R80 -/

theorem State.enterWait_rd (s : State) {off : Nat} (h : off ≠ DLV_STATUS) : s.enterWait.rd off = s.rd off := by
  unfold State.enterWait
  split
  · rfl
  · exact State.rd_setB_ne s DLV_STATUS_RWAIT true h

theorem State.enterWait_waits (s : State) : s.enterWait.getB DLV_STATUS_RWAIT = true := by
  unfold State.enterWait
  split
  · assumption
  · exact State.getB_setB s DLV_STATUS_RWAIT (by decide) rfl true

/-- Replay-wait makes a NAK due, and changes nothing else of delivery. -/
theorem State.enterWait_dlv (s : State) : s.enterWait.dlv = { s.dlv with nakDue := s.enterWait.dlv.nakDue, nakAt := s.enterWait.dlv.nakAt } := by
  unfold State.enterWait
  split <;> rfl

theorem State.enterWait_nakDue {s : State} (h : s.getB DLV_STATUS_RWAIT = false) : s.enterWait.dlv.nakDue = true := by
  unfold State.enterWait
  rw [if_neg (ne_true_of_eq_false h)]

theorem State.enterWait_kept (s : State) : s.enterWait.trn = s.trn ∧ s.enterWait.now = s.now ∧ s.enterWait.place = s.place ∧ s.enterWait.pending = s.pending := by
  unfold State.enterWait
  split <;> exact ⟨rfl, rfl, rfl, rfl⟩

/-! ### Counted once -/

theorem State.cnt_of_rd {s t : State} {c : Cnt} (low : t.rd c.off = s.rd c.off) (high : t.rd (c.off + 4) = s.rd (c.off + 4)) : t.cnt c = s.cnt c := by
  unfold State.cnt State.getW
  rw [low, high]

theorem State.cnt_of_rd32 {s t : State} {c : Cnt} (w : c.w = 32) (low : t.rd c.off = s.rd c.off) : t.cnt c = s.cnt c := by
  have : ¬ c.w = 48 := by omega
  unfold State.cnt
  rw [if_neg this, if_neg this, low]

theorem counted_wide {s u t : State} {c : Cnt} (w : c.w = 48) (before : u.cnt c = s.cnt c) (after : t.cnt c = (u.count c).cnt c) : counted c 1 s t := by
  unfold counted
  rw [after, State.cnt_count48 u c 1 w, before, w]

theorem counted_narrow {s u t : State} {c : Cnt} (w : c.w = 32) (before : u.cnt c = s.cnt c) (after : t.cnt c = (u.count c).cnt c) : counted c 1 s t := by
  unfold counted
  rw [after, State.cnt_count u c 1 w, before, w]

/-! ### A bad flit -/

theorem State.crcFails_counted {s u : State} (h : u.cnt CNT_CRC_FAIL = s.cnt CNT_CRC_FAIL) : counted CNT_CRC_FAIL 1 s u.crcFails :=
  counted_wide rfl h (State.cnt_of_rd (State.enterWait_rd _ (by decide)) (State.enterWait_rd _ (by decide)))

/-- A flit that does not decode, or whose CRC fails, is counted, and starts replay-wait. -/
theorem Arrived.crcFails {dt : Nat} {s u : State} (h : Arrived dt (FecWords ++ PassingWords) s u) :
    ∃ t, done s u.crcFails = .next t ∧ counted CNT_CRC_FAIL 1 s t ∧ t.getB DLV_STATUS_RWAIT = true
      ∧ (s.getB DLV_STATUS_RWAIT = false → t.dlv.nakDue = true) ∧ t.rd DLV_SEQ = s.rd DLV_SEQ ∧ t.dlv.rx = s.dlv.rx ∧ t.dlv.bank = s.dlv.bank
      ∧ t.trn = s.trn ∧ t.now = s.now + dt := by
  obtain ⟨trn, now, place, pending⟩ := (u.count CNT_CRC_FAIL).enterWait_kept
  have dlv := (u.count CNT_CRC_FAIL).enterWait_dlv
  have same : u.cnt CNT_CRC_FAIL = s.cnt CNT_CRC_FAIL :=
    State.cnt_of_rd (h.rd _ (.inr (by decide)) (by decide)) (h.rd _ (.inr (by decide)) (by decide))
  refine ⟨u.crcFails, done_eq_next ((pending.trans (u.count_pending _ _)).trans h.pending) ((place.trans (u.count_place _ _)).trans h.place),
    State.crcFails_counted same, State.enterWait_waits _, fun notYet => State.enterWait_nakDue ?_, ?_, ?_, ?_, ?_, ?_⟩
  · rw [State.getB_of_rd DLV_STATUS_RWAIT (State.rd_count_ne u CNT_CRC_FAIL 1 (by decide) (by decide))]
    rw [State.getB_of_rd DLV_STATUS_RWAIT (h.rd DLV_STATUS (.plain (by unfold PlainWord; decide)) (by decide)), notYet]
  · exact ((State.enterWait_rd _ (by decide)).trans (State.rd_count_ne u CNT_CRC_FAIL 1 (by decide) (by decide))).trans
      (h.rd _ (.plain (by unfold PlainWord; decide)) (by decide))
  · exact (congrArg Dlv.rx dlv).trans ((congrArg Dlv.rx (u.count_dlv _ _)).trans (by rw [h.dlv]))
  · exact (congrArg Dlv.bank dlv).trans ((congrArg Dlv.bank (u.count_dlv _ _)).trans (by rw [h.dlv]))
  · exact (trn.trans (u.count_trn _ _)).trans h.trn
  · exact (now.trans (u.count_now _ _)).trans h.now

/-- The lanes' decoder reads a flit in `u` as it would in `s`, and the link runs there. -/
theorem heard_reads (s : State) (dt : Nat) (wire : BitVec 2176) :
    (s.elapse dt).hear.reads wire = s.reads wire ∧ (s.elapse dt).hear.linkRuns = s.linkRuns := by
  have lnk : (s.elapse dt).hear.lnk = s.lnk := by rw [State.hear_lnk, s.elapse_only dt]
  refine ⟨by unfold State.reads; rw [lnk], State.linkRuns_of_rd ?_⟩
  exact (State.hear_rd _ _).trans (s.rd_elapse dt _ (by unfold PlainWord; decide) (by decide))

theorem bad_flit {s : State} (dt : Nat) (wire : BitVec 2176) (isOpen : s.xOpen 0 = true) (up : s.linkRuns = true)
    (bad : (s.reads wire).flit = none ∨ ∃ f, (s.reads wire).flit = some f ∧ crc64 (f.take 248) ≠ bytesAt f 248 8) :
    ∃ u, Arrived dt (FecWords ++ PassingWords) s u ∧ exec (.flitReceive dt wire) s = done s u.crcFails := by
  obtain ⟨reads, runs⟩ := heard_reads s dt wire
  have four : ∀ n ∈ (s.reads wire).hist, n ≤ 4 := fun n hn => decodeFlit_hist hn
  have arrived := (Arrived.of_elapse dt (State.clockRuns_of_xOpen isOpen)).mono (List.subset_append_right FecWords PassingWords)
  have decoded := Arrived.decoded (d := s.reads wire) (arrived.charge _ (List.subset_append_left _ _)) four
  rw [exec_flitReceive_open dt wire isOpen, State.onWire_eq wire (runs.trans up), reads]
  rcases bad with none | ⟨f, some, crc⟩
  · rw [none]
    exact ⟨_, decoded, rfl⟩
  · rw [some]
    exact ⟨_, decoded.count 1 (by decide) (by decide) (by decide) (by decide), congrArg (done s) (if_neg crc)⟩

/-! ### A flit as sent -/

theorem good_flit {s : State} (dt : Nat) {wire : BitVec 2176} {f : List Byte} (isOpen : s.xOpen 0 = true) (up : s.linkRuns = true) (carries : Carries s wire f) :
    ∃ u, Arrived dt PassingWords s u ∧ exec (.flitReceive dt wire) s = done s (u.onFlit f) := by
  obtain ⟨reads, runs⟩ := heard_reads s dt wire
  obtain ⟨clean, crc⟩ := carries
  replace clean : s.reads wire = ⟨[], [0, 0], 0, some f⟩ := clean
  have arrived := Arrived.of_elapse dt (State.clockRuns_of_xOpen isOpen)
  have decoded : Arrived dt PassingWords s ((s.elapse dt).hear.decoded ⟨[], [0, 0], 0, some f⟩) := Arrived.decoded arrived (by simp)
  refine ⟨_, decoded, ?_⟩
  rw [exec_flitReceive_open dt wire isOpen, State.onWire_eq wire (runs.trans up), reads, clean]
  exact congrArg (done s) (if_pos crc)

/-- An acknowledgement of what is acknowledged already does nothing (R84). -/
theorem State.applyAckNak_quiet {s : State} {a : Nat} (acked : a = s.getF DLV_BANK_ACKED) (first : s.dlv.firstAck = false) : s.applyAckNak a false = s := by
  have last : s.getF DLV_BANK_ACKED < 2 ^ 16 := Nat.mod_lt _ (by decide)
  have nothing : s.applyAck a = (true, s) := by
    have none : (a + 2 ^ 16 - s.getF DLV_BANK_ACKED) % 2 ^ 16 = 0 := by rw [acked]; omega
    unfold State.applyAck
    simp only
    rw [none, if_neg (Nat.not_lt_zero _), if_pos rfl]
  have same : { s with dlv := { s.dlv with firstAck := false } } = s := by
    rw [← first]
  unfold State.applyAckNak
  rw [nothing]
  simp only [first]
  exact same

theorem State.applyCredit_none (s : State) (n : Nat) : s.applyCredit 15 n = s := rfl

/-- A header that is quiet for `s` is quiet as the flit arrives. -/
theorem Arrived.quiet {dt : Nat} {s u : State} {h : Hdr} (a : Arrived dt PassingWords s u) (q : QuietHdr s h) : QuietHdr u h := by
  obtain ⟨beat, nak, acked, cch, first⟩ := q
  refine ⟨beat, nak, acked.trans (State.getF_of_rd DLV_BANK_ACKED (a.rd _ (.plain (by unfold PlainWord; decide)) (by decide))).symm, cch, ?_⟩
  rw [a.dlv]
  exact first

section Quiet

variable {s : State} {f : List Byte} (quiet : QuietHdr s (hdrOf (bytesAt f 0 8)))
include quiet

theorem State.onFlit_idle (idle : (hdrOf (bytesAt f 0 8)).kind = 1) : s.onFlit f = s := by
  obtain ⟨beat, nak, acked, cch, first⟩ := quiet
  unfold State.onFlit
  simp only
  rw [beat, if_neg Bool.false_ne_true, if_pos idle, nak, cch, State.applyAckNak_quiet acked first, State.applyCredit_none]

/-- Of the payload flits, the next one is accepted, one ahead starts replay-wait, one behind is a duplicate (R79–R81). -/
theorem State.onFlit_payload (payload : (hdrOf (bytesAt f 0 8)).kind = 0 ∨ (hdrOf (bytesAt f 0 8)).kind = 3) :
    s.onFlit f = if ((hdrOf (bytesAt f 0 8)).seq + 2 ^ 17 - (s.getF DLV_SEQ_RXSEQ + 1)) % 2 ^ 16 = 0 then s.acceptPayload (hdrOf (bytesAt f 0 8)) f
      else if ((hdrOf (bytesAt f 0 8)).seq + 2 ^ 17 - (s.getF DLV_SEQ_RXSEQ + 1)) % 2 ^ 16 < 0x8000 then (s.count CNT_OOS).enterWait
      else s.count CNT_DUP := by
  obtain ⟨beat, nak, acked, cch, first⟩ := quiet
  have early : ((s.count CNT_OOS).enterWait).applyAckNak (hdrOf (bytesAt f 0 8)).ack false = (s.count CNT_OOS).enterWait := by
    refine State.applyAckNak_quiet (acked.trans (State.getF_of_rd DLV_BANK_ACKED ?_).symm) ?_
    · exact (State.enterWait_rd _ (by decide)).trans (State.rd_count_ne s CNT_OOS 1 (by decide) (by decide))
    · rw [State.enterWait_dlv, State.count_dlv]
      exact first
  have again : (s.count CNT_DUP).applyAckNak (hdrOf (bytesAt f 0 8)).ack false = s.count CNT_DUP := by
    refine State.applyAckNak_quiet (acked.trans (State.getF_of_rd DLV_BANK_ACKED (State.rd_count_ne s CNT_DUP 1 (by decide) (by decide))).symm) ?_
    rw [State.count_dlv]
    exact first
  unfold State.onFlit
  simp only
  rw [beat, if_neg Bool.false_ne_true, if_neg (by omega), if_neg (by omega), nak, early, again]

end Quiet

/-! ### A payload flit that is the next one -/

/-- Where the receiver stands behind the next payload flit (R80). -/
def State.acceptWords (s : State) (n : Nat) : State := s.setFs [(DLV_SEQ_RXSEQ, n), (DLV_STATUS_RWAIT, 0)]

/-- What the receiver notes of the next payload flit, before it reads its payload (R80). -/
def State.accepts (s : State) (h : Hdr) : State :=
  let t := s.noteAccept.acceptWords h.seq
  { t with dlv := { t.dlv with rseqPassed := t.dlv.rseqPassed || h.seq == (t.dlv.peerRseq.toNat + 1) % 2 ^ 16 } }

theorem State.setFs_two (s : State) (a b : Fld × Nat) : s.setFs [a, b] = (s.setF a.1 a.2).setF b.1 b.2 := rfl

theorem State.acceptWords_rd (s : State) (n : Nat) {off : Nat} (seq : off ≠ DLV_SEQ) (status : off ≠ DLV_STATUS) : (s.acceptWords n).rd off = s.rd off := by
  unfold State.acceptWords
  rw [State.setFs_two, State.rd_setF_ne, State.rd_setF_ne]
  · exact seq
  · exact status

theorem State.acceptWords_rxseq (s : State) {n : Nat} (fits : n < 2 ^ 16) : (s.acceptWords n).getF DLV_SEQ_RXSEQ = n := by
  unfold State.acceptWords
  rw [State.setFs_two, State.getF_setF_apart _ _ (by decide), State.getF_setF _ _ (of_decide_eq_true rfl)]
  exact Nat.mod_eq_of_lt fits

theorem State.acceptWords_rwait (s : State) (n : Nat) : (s.acceptWords n).getB DLV_STATUS_RWAIT = false := by
  unfold State.acceptWords State.getB
  rw [State.setFs_two, State.getF_setF _ _ (by decide)]
  rfl

theorem State.noteAccept_regs (s : State) : s.noteAccept.regs = s.regs := by unfold State.noteAccept; split <;> rfl

theorem State.noteAccept_dlv (s : State) : s.noteAccept.dlv = { s.dlv with acc := s.noteAccept.dlv.acc } := by unfold State.noteAccept; split <;> rfl

theorem State.noteAccept_kept (s : State) :
    s.noteAccept.trn = s.trn ∧ s.noteAccept.now = s.now ∧ s.noteAccept.place = s.place ∧ s.noteAccept.pending = s.pending := by
  unfold State.noteAccept; split <;> exact ⟨rfl, rfl, rfl, rfl⟩

theorem State.accepts_regs (s : State) (h : Hdr) : (s.accepts h).regs = (s.noteAccept.acceptWords h.seq).regs := rfl

theorem State.accepts_rd (s : State) (h : Hdr) {off : Nat} (seq : off ≠ DLV_SEQ) (status : off ≠ DLV_STATUS) : (s.accepts h).rd off = s.rd off :=
  (State.rd_of_regs (s.accepts_regs h) off).trans ((State.acceptWords_rd _ _ seq status).trans (State.rd_of_regs s.noteAccept_regs off))

theorem State.accepts_rxseq (s : State) {h : Hdr} (fits : h.seq < 2 ^ 16) : (s.accepts h).getF DLV_SEQ_RXSEQ = h.seq :=
  (State.getF_of_rd _ (State.rd_of_regs (s.accepts_regs h) _)).trans (State.acceptWords_rxseq _ fits)

theorem State.accepts_rwait (s : State) (h : Hdr) : (s.accepts h).getB DLV_STATUS_RWAIT = false :=
  (State.getB_of_rd _ (State.rd_of_regs (s.accepts_regs h) _)).trans (State.acceptWords_rwait _ _)

/-- Of delivery, an acceptance changes the marks of the last one alone. -/
theorem State.accepts_dlv (s : State) (h : Hdr) :
    (s.accepts h).dlv = { s.dlv with acc := (s.accepts h).dlv.acc, rseqPassed := (s.accepts h).dlv.rseqPassed } := by
  have : (s.noteAccept.acceptWords h.seq).dlv = _ := (State.setFs_dlv _ _).trans s.noteAccept_dlv
  unfold State.accepts
  simp only
  rw [this]

theorem State.accepts_kept (s : State) (h : Hdr) :
    (s.accepts h).trn = s.trn ∧ (s.accepts h).now = s.now ∧ (s.accepts h).place = s.place ∧ (s.accepts h).pending = s.pending := by
  obtain ⟨trn, now, place, pending⟩ := s.noteAccept_kept
  exact ⟨(State.setFs_trn _ _).trans trn, (State.setFs_now _ _).trans now, (State.setFs_place _ _).trans place, (State.setFs_pending _ _).trans pending⟩

theorem State.acceptPayload_eq (s : State) (h : Hdr) (flit : List Byte) : s.acceptPayload h flit =
    (let t := if h.kind = 3 && !(s.accepts h).dlv.rseqPassed then (s.accepts h).applyAckNak h.ack h.nak
      else ((s.accepts h).applyAckNak h.ack h.nak).applyCredit h.cch h.cpips
    if h.strm then t.bindStream ((flit.drop 8).take 240) else t.rxSlots h.firsthead (flitSlots flit)) := by
  unfold State.acceptPayload
  rfl

theorem State.acceptPayload_quiet {s : State} {h : Hdr} (quiet : QuietHdr s h) (flit : List Byte) :
    s.acceptPayload h flit = if h.strm then (s.accepts h).bindStream ((flit.drop 8).take 240) else (s.accepts h).rxSlots h.firsthead (flitSlots flit) := by
  obtain ⟨beat, nak, acked, cch, first⟩ := quiet
  have noAck : (s.accepts h).applyAckNak h.ack false = s.accepts h := by
    refine State.applyAckNak_quiet (acked.trans (State.getF_of_rd DLV_BANK_ACKED (s.accepts_rd h (by decide) (by decide))).symm) ?_
    rw [State.accepts_dlv]
    exact first
  have noCredit : ∀ b : Bool, (if h.kind = 3 && b then s.accepts h else (s.accepts h).applyCredit 15 h.cpips) = s.accepts h := by
    intro b
    rw [State.applyCredit_none, ite_self]
  rw [State.acceptPayload_eq, nak, cch, noAck, noCredit]

/-! ### A message of one pip in slot 0 -/

theorem State.rxPip_head {s : State} (none : s.dlv.part = []) (p : Pip) : s.rxPip p = s.rxHead p := by
  unfold State.rxPip
  rw [none]

/-- A null pip is passed over (R60). -/
theorem State.rxHead_nul (s : State) : s.rxHead nulPip = s := by
  have chan : (headOf nulPip).chan = 15 := by decide
  have pips : (headOf nulPip).pips = 1 := by decide
  unfold State.rxHead
  simp only
  rw [if_pos chan, if_pos pips]

theorem State.rxPips_nul {s : State} (none : s.dlv.part = []) (n : Nat) : (List.replicate n nulPip).foldl State.rxPip s = s := by
  induction n with
  | zero => rfl
  | succ n ih => rw [List.replicate_succ, List.foldl_cons, State.rxPip_head none, State.rxHead_nul, ih]

/-- A flit whose slots hold one message of one pip does what its head does. -/
theorem State.rxSlots_one {s : State} {p : Pip} (none : s.dlv.part = []) (due : s.dlv.due = 0) (after : (s.rxHead p).dlv.part = []) :
    s.rxSlots 0 (p :: List.replicate 14 nulPip) = s.rxHead p := by
  unfold State.rxSlots
  rw [due, if_pos (by decide), List.foldl_cons, State.rxPip_head none, State.rxPips_nul after]

theorem opPips_chan {c op n : Nat} (h : opPips c op = some n) : c ≤ 5 := by
  unfold opPips at h
  by_contra hc
  rw [if_neg (by omega), if_neg (by omega), if_neg (by omega), if_neg (by omega), if_neg (by omega), if_neg (by omega)] at h
  exact absurd h (by simp)

/-- One pip more is held for a channel. -/
def State.holdsPip (s : State) (c : Nat) : State := s.setF (DLV_RXBUF_HELD c) (s.getF (DLV_RXBUF_HELD c) + 1)

theorem State.holdsPip_rd (s : State) {c off : Nat} (h : off ≠ DLV_RXBUF c) : (s.holdsPip c).rd off = s.rd off := State.rd_setF_ne s _ _ h

theorem State.holdsPip_kept (s : State) (c : Nat) : (s.holdsPip c).dlv = s.dlv ∧ (s.holdsPip c).trn = s.trn ∧ (s.holdsPip c).now = s.now
    ∧ (s.holdsPip c).place = s.place ∧ (s.holdsPip c).pending = s.pending :=
  ⟨State.setF_dlv _ _ _, State.setF_trn _ _ _, State.setF_now _ _ _, State.setF_place _ _ _, State.setF_pending _ _ _⟩

theorem State.holdsPip_held (s : State) {c : Nat} (fits : s.getF (DLV_RXBUF_HELD c) + 1 < 2 ^ 16) :
    (s.holdsPip c).getF (DLV_RXBUF_HELD c) = s.getF (DLV_RXBUF_HELD c) + 1 := by
  unfold State.holdsPip
  rw [State.getF_setF s _ (of_decide_eq_true rfl)]
  exact Nat.mod_eq_of_lt fits

/-- One pip more is owed for a channel. -/
def State.owesPip (s : State) (c : Nat) : State := s.setF (DLV_RXBUF_OWED c) (s.getF (DLV_RXBUF_OWED c) + 1)

theorem State.owesPip_rd (s : State) {c off : Nat} (h : off ≠ DLV_RXBUF c) : (s.owesPip c).rd off = s.rd off := State.rd_setF_ne s _ _ h

theorem State.owesPip_kept (s : State) (c : Nat) : (s.owesPip c).dlv = s.dlv ∧ (s.owesPip c).place = s.place ∧ (s.owesPip c).pending = s.pending :=
  ⟨State.setF_dlv _ _ _, State.setF_place _ _ _, State.setF_pending _ _ _⟩

theorem State.owesPip_owed (s : State) {c : Nat} (fits : s.getF (DLV_RXBUF_OWED c) + 1 < 2 ^ 16) :
    (s.owesPip c).getF (DLV_RXBUF_OWED c) = s.getF (DLV_RXBUF_OWED c) + 1 := by
  unfold State.owesPip
  rw [State.getF_setF s _ (of_decide_eq_true rfl)]
  exact Nat.mod_eq_of_lt fits

theorem State.owesPip_held (s : State) (c : Nat) : (s.owesPip c).getF (DLV_RXBUF_HELD c) = s.getF (DLV_RXBUF_HELD c) :=
  State.getF_setF_beside s (f := DLV_RXBUF_OWED c) (g := DLV_RXBUF_HELD c) _ (of_decide_eq_true rfl) (.inr (of_decide_eq_true rfl))

/-- The message `m` of channel `c`, whole, stands behind those received. -/
def State.keepsMsg (s : State) (c : Nat) (m : List Pip) : State :=
  { s with dlv := { s.dlv with part := [], due := 0, accepted := s.dlv.accepted + 1,
                               rx := s.dlv.rx ++ [⟨c, m, s.dlv.accepted + 1, s.trn.acceptedStr, s.now⟩] } }

theorem State.keepsMsg_regs (s : State) (c : Nat) (m : List Pip) : (s.keepsMsg c m).regs = s.regs := rfl

theorem State.keepsMsg_part (s : State) (c : Nat) (m : List Pip) : (s.keepsMsg c m).dlv.part = [] := rfl

theorem State.keepsMsg_rx (s : State) (c : Nat) (m : List Pip) :
    (s.keepsMsg c m).dlv.rx = s.dlv.rx ++ [⟨c, m, s.dlv.accepted + 1, s.trn.acceptedStr, s.now⟩] := rfl

theorem State.keepsMsg_kept (s : State) (c : Nat) (m : List Pip) :
    (s.keepsMsg c m).now = s.now ∧ (s.keepsMsg c m).place = s.place ∧ (s.keepsMsg c m).pending = s.pending := ⟨rfl, rfl, rfl⟩

theorem State.msgDone_inside {s : State} (inside : s.guestEdge = false) (m : List Pip) : s.msgDone m = s.keepsMsg (msgHead m).chan m := by
  unfold State.msgDone
  simp only
  exact if_neg (ne_true_of_eq_false inside)

theorem State.rxHead_one {s : State} {p : Pip} (known : opPips (headOf p).chan (headOf p).op = some 1) (one : (headOf p).pips = 1) : s.rxHead p = if rxCap s.place (headOf p).chan < s.getF (DLV_RXBUF_HELD (headOf p).chan) + 1
    then ((s.count CNT_CR_OVER).raise 0x0204).skipMsg p
    else (s.holdsPip (headOf p).chan).msgDone [p] := by
  have chan := opPips_chan known
  unfold State.holdsPip State.rxHead
  simp only
  rw [if_neg (by omega), if_neg (by omega), known]
  simp only
  rw [one, if_neg (by decide)]
  rfl

theorem State.skipMsg_one {s : State} {p : Pip} (chan : (headOf p).chan ≤ 5) (one : (headOf p).pips = 1) (notInit : ¬ (s.link = 7 || s.link == 8) = true) :
    s.skipMsg p = s.owesPip (headOf p).chan := by
  unfold State.owesPip State.skipMsg
  simp only
  rw [if_pos one, if_pos chan]
  unfold State.owe
  exact if_neg notInit

/-! ### What a quiet flit leaves -/

theorem Arrived.plainKept {dt : Nat} {ws : List Nat} {s t : State} (h : Arrived dt ws s t) : PlainKept ws s t := fun off plain hw => h.rd off (.plain plain) hw

theorem Arrived.done {dt : Nat} {ws : List Nat} {s t : State} (h : Arrived dt ws s t) : done s t = .next t := done_eq_next h.pending h.place

theorem Arrived.rxseq {dt : Nat} {s t : State} (h : Arrived dt PassingWords s t) : t.getF DLV_SEQ_RXSEQ = s.getF DLV_SEQ_RXSEQ :=
  State.getF_of_rd _ (h.rd _ (.plain (by unfold PlainWord; decide)) (by decide))

theorem PlainWord.ne_counter {off : Nat} (h : PlainWord off) {c : Cnt} (low : 0x5000 ≤ c.off) (high : c.off < 0x57FC) : off ≠ c.off ∧ off ≠ c.off + 4 := by
  unfold PlainWord at h
  omega

theorem duplicate_counted {dt : Nat} {s u : State} (a : Arrived dt PassingWords s u) :
    ∃ t, done s (u.count CNT_DUP) = .next t ∧ counted CNT_DUP 1 s t ∧ t.dlv = { s.dlv with heard := some (s.now + dt) } ∧ t.trn = s.trn
      ∧ PlainKept PassingWords s t := by
  refine ⟨u.count CNT_DUP, done_eq_next ((u.count_pending _ _).trans a.pending) ((u.count_place _ _).trans a.place),
    counted_narrow rfl (State.cnt_of_rd32 rfl (a.rd _ (.inr (by decide)) (by decide))) rfl, (u.count_dlv _ _).trans a.dlv, (u.count_trn _ _).trans a.trn,
    fun off plain hw => ?_⟩
  obtain ⟨low, high⟩ := PlainWord.ne_counter plain (c := CNT_DUP) (by decide) (by decide)
  exact (State.rd_count_ne u CNT_DUP 1 low high).trans (a.plainKept off plain hw)

theorem early_counted {dt : Nat} {s u : State} (a : Arrived dt PassingWords s u) :
    ∃ t, done s (u.count CNT_OOS).enterWait = .next t ∧ counted CNT_OOS 1 s t ∧ t.getB DLV_STATUS_RWAIT = true
      ∧ t.rd DLV_SEQ = s.rd DLV_SEQ ∧ t.dlv.rx = s.dlv.rx ∧ t.trn = s.trn ∧ PlainKept (DLV_STATUS :: PassingWords) s t := by
  obtain ⟨trn, now, place, pending⟩ := (u.count CNT_OOS).enterWait_kept
  have kept : PlainKept (DLV_STATUS :: PassingWords) s (u.count CNT_OOS).enterWait := by
    intro off plain hw
    rw [List.mem_cons, not_or] at hw
    obtain ⟨low, high⟩ := PlainWord.ne_counter plain (c := CNT_OOS) (by decide) (by decide)
    exact (State.enterWait_rd _ hw.1).trans ((State.rd_count_ne u CNT_OOS 1 low high).trans (a.plainKept off plain hw.2))
  refine ⟨_, done_eq_next ((pending.trans (u.count_pending _ _)).trans a.pending) ((place.trans (u.count_place _ _)).trans a.place),
    counted_wide (u := u) rfl (State.cnt_of_rd (a.rd _ (.inr (by decide)) (by decide)) (a.rd _ (.inr (by decide)) (by decide))) ?_,
    State.enterWait_waits _, kept _ (by unfold PlainWord; decide) (by decide), ?_, (trn.trans (u.count_trn _ _)).trans a.trn, kept⟩
  · exact State.cnt_of_rd (State.enterWait_rd _ (by decide)) (State.enterWait_rd _ (by decide))
  · rw [State.enterWait_dlv, State.count_dlv, a.dlv]

/-- What the next payload flit leaves, before its payload is read. -/
structure Accepted (dt : Nat) (h : Hdr) (s t : State) : Prop where
  rd : ∀ off, Steady off → off ∉ DLV_STATUS :: DLV_SEQ :: PassingWords → t.rd off = s.rd off
  rxseq : t.getF DLV_SEQ_RXSEQ = h.seq
  rwait : t.getB DLV_STATUS_RWAIT = false
  dlv : t.dlv = { s.dlv with heard := some (s.now + dt), acc := t.dlv.acc, rseqPassed := t.dlv.rseqPassed }
  trn : t.trn = s.trn
  now : t.now = s.now + dt
  place : t.place = s.place
  pending : t.pending = s.pending

theorem Arrived.accepts {dt : Nat} {s u : State} (a : Arrived dt PassingWords s u) {h : Hdr} (fits : h.seq < 2 ^ 16) : Accepted dt h s (u.accepts h) := by
  obtain ⟨trn, now, place, pending⟩ := u.accepts_kept h
  refine ⟨fun off st hw => ?_, State.accepts_rxseq u fits, u.accepts_rwait h, ?_, trn.trans a.trn, now.trans a.now, place.trans a.place, pending.trans a.pending⟩
  · simp only [List.mem_cons, not_or] at hw
    exact (u.accepts_rd h hw.2.1 hw.1).trans (a.rd off st hw.2.2)
  · have := u.accepts_dlv h
    rw [a.dlv] at this
    exact this

theorem Accepted.plainKept {dt : Nat} {h : Hdr} {s t : State} (a : Accepted dt h s t) : PlainKept (DLV_STATUS :: DLV_SEQ :: PassingWords) s t :=
  fun off plain hw => a.rd off (.plain plain) hw

/-- A stream flit is dropped, and counted, while no schedule runs (R165). -/
theorem Accepted.drops {dt : Nat} {h : Hdr} {s v : State} (a : Accepted dt h s v) (stopped : s.run = false) (payload : List Byte) :
    ∃ t, done s (v.bindStream payload) = .next t ∧ counted CNT_STR_DROP 1 s t ∧ t.getF DLV_SEQ_RXSEQ = h.seq ∧ t.getB DLV_STATUS_RWAIT = false
      ∧ t.dlv.rx = s.dlv.rx ∧ t.trn = s.trn ∧ PlainKept (DLV_STATUS :: DLV_SEQ :: PassingWords) s t := by
  have run : v.run = s.run := State.getB_of_rd TURN_CTRL_RUN (a.plainKept _ (by unfold PlainWord; decide) (by decide))
  have dropped : v.bindStream payload = v.count CNT_STR_DROP := by
    unfold State.bindStream
    exact if_pos (by rw [run, stopped]; rfl)
  have word : ∀ {off}, PlainWord off → (v.count CNT_STR_DROP).rd off = v.rd off := fun plain =>
    have apart := PlainWord.ne_counter plain (c := CNT_STR_DROP) (by decide) (by decide)
    State.rd_count_ne v CNT_STR_DROP 1 apart.1 apart.2
  rw [dropped]
  refine ⟨_, done_eq_next ((v.count_pending _ _).trans a.pending) ((v.count_place _ _).trans a.place),
    counted_wide rfl (State.cnt_of_rd (a.rd _ (.inr (by decide)) (by decide)) (a.rd _ (.inr (by decide)) (by decide))) rfl,
    (State.getF_of_rd _ (word (by unfold PlainWord; decide))).trans a.rxseq, (State.getB_of_rd _ (word (by unfold PlainWord; decide))).trans a.rwait,
    ?_, (v.count_trn _ _).trans a.trn, fun off plain hw => (word plain).trans (a.plainKept off plain hw)⟩
  rw [State.count_dlv, a.dlv]

theorem rxbuf_steady {c : Nat} (chan : c ≤ 5) : PlainWord (DLV_RXBUF c) ∧ DLV_RXBUF c ∉ DLV_STATUS :: DLV_SEQ :: PassingWords := by
  refine ⟨by unfold PlainWord DLV_RXBUF; omega, fun hm => ?_⟩
  simp only [List.mem_cons, PassingWords, List.mem_map, List.mem_range, DLV_RXBUF, DLV_STATUS, DLV_SEQ, LANE_PAT] at hm
  omega

theorem rxCap_le (i c : Nat) : rxCap i c ≤ 32768 := by
  unfold rxCap
  have all : ∀ l : List Nat, (∀ x ∈ l, x ≤ 32768) → l.getD c 0 ≤ 32768 := by
    intro l hl
    rw [List.getD_eq_getElem?_getD]
    cases hc : l[c]? with
    | none => exact Nat.zero_le _
    | some x => exact hl x (List.mem_of_getElem? hc)
  split
  · exact all _ (by decide)
  · exact all _ (by decide)

section OnePip

variable {dt : Nat} {h : Hdr} {s v : State} (a : Accepted dt h s v) (part : s.dlv.part = []) (due : s.dlv.due = 0) {p : Pip}
  (known : opPips (headOf p).chan (headOf p).op = some 1) (one : (headOf p).pips = 1)
include a part due known one

/-- A message of one pip that its channel has room for is held (R61, R65). -/
theorem Accepted.takes (inside : s.guestEdge = false) (room : s.getF (DLV_RXBUF_HELD (headOf p).chan) + 1 ≤ rxCap s.place (headOf p).chan) :
    ∃ t, done s (v.rxSlots 0 (p :: List.replicate 14 nulPip)) = .next t
      ∧ t.getF DLV_SEQ_RXSEQ = h.seq ∧ t.getB DLV_STATUS_RWAIT = false
      ∧ t.getF (DLV_RXBUF_HELD (headOf p).chan) = s.getF (DLV_RXBUF_HELD (headOf p).chan) + 1
      ∧ t.dlv.rx = s.dlv.rx ++ [⟨(headOf p).chan, [p], s.dlv.accepted + 1, s.trn.acceptedStr, t.now⟩] ∧ t.now = s.now + dt
      ∧ PlainKept (DLV_STATUS :: DLV_SEQ :: DLV_RXBUF (headOf p).chan :: PassingWords) s t := by
  have chan := opPips_chan known
  generalize hc : (headOf p).chan = c at *
  obtain ⟨plain, outside⟩ := rxbuf_steady chan
  have held : v.getF (DLV_RXBUF_HELD c) = s.getF (DLV_RXBUF_HELD c) := State.getF_of_rd _ (a.plainKept _ plain outside)
  obtain ⟨dlvX, trnX, nowX, placeX, pendingX⟩ := v.holdsPip_kept c
  obtain ⟨now, place, pending⟩ := (v.holdsPip c).keepsMsg_kept c [p]
  have inside' : (v.holdsPip c).guestEdge = false := by
    unfold State.guestEdge
    rw [placeX, a.place]
    exact inside
  have fits : v.getF (DLV_RXBUF_HELD c) + 1 < 2 ^ 16 := by have := rxCap_le s.place c; omega
  have chanOf : (msgHead [p]).chan = c := hc
  have head : v.rxHead p = (v.holdsPip c).keepsMsg c [p] := by
    rw [State.rxHead_one (hc ▸ known) one, hc, a.place, held, if_neg (by omega), State.msgDone_inside inside', chanOf]
  have after : (v.rxHead p).dlv.part = [] := by rw [head, State.keepsMsg_part]
  have words : ∀ off, off ≠ DLV_RXBUF c → ((v.holdsPip c).keepsMsg c [p]).rd off = v.rd off := fun off ne =>
    (State.rd_of_regs (State.keepsMsg_regs _ _ _) off).trans (v.holdsPip_rd ne)
  have noPart : v.dlv.part = [] := by rw [a.dlv]; exact part
  have noDue : v.dlv.due = 0 := by rw [a.dlv]; exact due
  have ne : ∀ off, off ∈ [DLV_SEQ, DLV_STATUS] → off ≠ DLV_RXBUF c := by
    intro off hm e
    rw [e] at hm
    exact outside (by simp only [List.mem_cons, List.not_mem_nil, or_false] at hm ⊢; tauto)
  rw [State.rxSlots_one noPart noDue after, head]
  refine ⟨_, done_eq_next ((pending.trans pendingX).trans a.pending) ((place.trans placeX).trans a.place),
    (State.getF_of_rd DLV_SEQ_RXSEQ (words _ (ne _ (by decide)))).trans a.rxseq,
    (State.getB_of_rd DLV_STATUS_RWAIT (words _ (ne _ (by decide)))).trans a.rwait, ?_, ?_, (now.trans nowX).trans a.now, fun off hp hw => ?_⟩
  · exact (State.getF_of_rd _ (State.rd_of_regs (State.keepsMsg_regs _ _ _) _)).trans ((v.holdsPip_held fits).trans (by rw [held]))
  · rw [State.keepsMsg_rx, now, dlvX, trnX, a.trn, a.dlv]
  · simp only [List.mem_cons, not_or] at hw
    exact (words off hw.2.2.1).trans (a.plainKept off hp (by simp only [List.mem_cons, not_or]; exact ⟨hw.1, hw.2.1, hw.2.2.2⟩))

/-- A message of one pip that its channel has no room for is counted, its pip owed, and reported (R96, R99). -/
theorem Accepted.overflows (up : s.linkRuns = true) (full : rxCap s.place (headOf p).chan < s.getF (DLV_RXBUF_HELD (headOf p).chan) + 1)
    (fits : s.getF (DLV_RXBUF_OWED (headOf p).chan) + 1 < 2 ^ 16) :
    ∃ t, done s (v.rxSlots 0 (p :: List.replicate 14 nulPip)) = .next t
      ∧ t.getF DLV_SEQ_RXSEQ = h.seq ∧ t.dlv.rx = s.dlv.rx ∧ t.getF (DLV_RXBUF_HELD (headOf p).chan) = s.getF (DLV_RXBUF_HELD (headOf p).chan)
      ∧ t.getF (DLV_RXBUF_OWED (headOf p).chan) = s.getF (DLV_RXBUF_OWED (headOf p).chan) + 1 ∧ counted CNT_CR_OVER 1 s t
      ∧ t.rd EVT_LAST = 2 ^ 30 + 0x0204 ∧ PlainKept (DLV_STATUS :: DLV_SEQ :: DLV_RXBUF (headOf p).chan :: PassingWords) s t := by
  have chan := opPips_chan known
  generalize hc : (headOf p).chan = c at *
  obtain ⟨plain, outside⟩ := rxbuf_steady chan
  have buf : v.rd (DLV_RXBUF c) = s.rd (DLV_RXBUF c) := a.plainKept _ plain outside
  have held : v.getF (DLV_RXBUF_HELD c) = s.getF (DLV_RXBUF_HELD c) := State.getF_of_rd _ buf
  generalize hw : (v.count CNT_CR_OVER).raise 0x0204 = w
  have last : w.rd EVT_LAST = 2 ^ 30 + 0x0204 := by rw [← hw]; exact State.raise_last _ _ (by decide)
  have dlv : w.dlv = v.dlv := by rw [← hw, State.raise_dlv, State.count_dlv]
  have plainW : ∀ off, PlainWord off → w.rd off = v.rd off := fun off hp => by
    obtain ⟨low, high⟩ := PlainWord.ne_counter hp (c := CNT_CR_OVER) (by decide) (by decide)
    rw [← hw, State.rd_raise _ _ hp, State.rd_count_ne _ _ _ low high]
  have bufW : w.rd (DLV_RXBUF c) = s.rd (DLV_RXBUF c) := (plainW _ plain).trans buf
  have link : w.link = s.link := State.getF_of_rd LINK_STATUS_STATE ((plainW _ (by unfold PlainWord; decide)).trans (a.plainKept _ (by unfold PlainWord; decide) (by decide)))
  have flits : ¬ (w.link = 7 || w.link == 8) = true := by
    rw [link]
    unfold State.linkRuns at up
    simp only [Bool.or_eq_true, beq_iff_eq, decide_eq_true_eq] at up ⊢
    omega
  have head : v.rxHead p = w.owesPip c := by
    rw [State.rxHead_one (hc ▸ known) one, hc, a.place, held, if_pos full, hw, State.skipMsg_one (by omega) one flits, hc]
  obtain ⟨dlvY, placeY, pendingY⟩ := w.owesPip_kept c
  have owedDlv : (w.owesPip c).dlv = v.dlv := dlvY.trans dlv
  have noPart : v.dlv.part = [] := by rw [a.dlv]; exact part
  have noDue : v.dlv.due = 0 := by rw [a.dlv]; exact due
  have after : (v.rxHead p).dlv.part = [] := by rw [head, owedDlv, noPart]
  have counts : w.cnt CNT_CR_OVER = (v.count CNT_CR_OVER).cnt CNT_CR_OVER := by
    rw [← hw]
    exact State.cnt_of_rd32 rfl (State.rd_raise_low _ _ (by decide))
  have ne : ∀ off, off ∈ [DLV_SEQ, CNT_CR_OVER.off, EVT_LAST] → off ≠ DLV_RXBUF c := by
    intro off hm
    simp only [List.mem_cons, List.not_mem_nil, or_false, DLV_SEQ, CNT_CR_OVER, EVT_LAST, DLV_RXBUF] at hm ⊢
    omega
  rw [State.rxSlots_one noPart noDue after, head]
  refine ⟨_, done_eq_next ?_ ?_, ?_, ?_, ?_, ?_, ?_, ?_, fun off hp hout => ?_⟩
  · exact pendingY.trans (by rw [← hw, State.raise_pending, State.count_pending, a.pending])
  · exact placeY.trans (by rw [← hw, State.raise_place, State.count_place, a.place])
  · exact (State.getF_of_rd DLV_SEQ_RXSEQ ((w.owesPip_rd (ne _ (by decide))).trans (plainW _ (by unfold PlainWord; decide)))).trans a.rxseq
  · rw [owedDlv, a.dlv]
  · exact (w.owesPip_held c).trans (State.getF_of_rd _ bufW)
  · have owed : w.getF (DLV_RXBUF_OWED c) = s.getF (DLV_RXBUF_OWED c) := State.getF_of_rd _ bufW
    exact (w.owesPip_owed (by omega)).trans (by rw [owed])
  · exact counted_narrow rfl (State.cnt_of_rd32 rfl (a.rd _ (.inr (by decide)) (by decide)))
      ((State.cnt_of_rd32 rfl (w.owesPip_rd (ne _ (by decide)))).trans counts)
  · exact (w.owesPip_rd (ne _ (by decide))).trans last
  · simp only [List.mem_cons, not_or] at hout
    exact (w.owesPip_rd hout.2.2.1).trans ((plainW off hp).trans
      (a.plainKept off hp (by simp only [List.mem_cons, not_or]; exact ⟨hout.1, hout.2.1, hout.2.2.2⟩)))

end OnePip

end Sys2Proof.Machine

namespace Sys2Proof

open Machine

/-! ### The obligation -/

/-- Settles O38: the decoder's notes, time and the arrival leave delivery as it was; then each flit does what its CRC, its KIND and its SEQ call for. -/
theorem flitsAreReceived : Obligations.FlitsAreReceived := by
  unfold Obligations.FlitsAreReceived
  refine ⟨fun s wire closed running empty => exec_flitReceive_closed wire closed running empty, fun s dt wire isOpen up => ⟨?_, ?_⟩⟩
  · intro d _ bad
    obtain ⟨u, arrived, run⟩ := bad_flit dt wire isOpen up bad
    rw [run]
    exact arrived.crcFails
  · intro f carries quiet h d
    obtain ⟨u, arrived, run⟩ := good_flit dt isOpen up carries
    have quietU := arrived.quiet quiet
    have fits : h.seq < 2 ^ 16 := Nat.mod_lt _ (by decide)
    refine ⟨fun idle => ?_, fun payload => ?_⟩
    · rw [run, State.onFlit_idle quietU idle]
      exact ⟨u, arrived.done, arrived.dlv, arrived.trn, arrived.plainKept⟩
    · have does := State.onFlit_payload quietU payload
      rw [arrived.rxseq] at does
      have next : d = 0 → u.onFlit f = u.acceptPayload h f := fun hd => does.trans (if_pos hd)
      refine ⟨fun behind => ?_, fun ahead near => ?_, fun hd stream stopped => ?_, ?_⟩
      · rw [run, does, if_neg (show ¬ d = 0 by omega), if_neg (show ¬ d < 0x8000 by omega)]
        exact duplicate_counted arrived
      · rw [run, does, if_neg (show ¬ d = 0 by omega), if_pos near]
        exact early_counted arrived
      · rw [run, next hd, State.acceptPayload_quiet quietU, if_pos stream]
        exact (arrived.accepts fits).drops stopped _
      · intro p hd message firsthead part due inside slots known one
        have accepted := arrived.accepts fits
        have does : exec (.flitReceive dt wire) s = done s ((u.accepts h).rxSlots 0 (p :: List.replicate 14 nulPip)) := by
          rw [run, next hd, State.acceptPayload_quiet quietU, if_neg (ne_true_of_eq_false message), firsthead, slots]
        rw [does]
        exact ⟨fun room => accepted.takes part due known one inside room, fun full owed => accepted.overflows part due known one up full owed⟩

end Sys2Proof
end

section
/-! SUPPORT. What a sample of corrected symbols, an estimate, a reading of the sensor and a sweep's point leave (R45, R46, R271, R275, R276). -/

namespace Sys2Proof.Machine

/-! ### Histograms -/

theorem State.bin_regs (s : State) (i : Nat) : (s.bin i).regs = s.regs := rfl

theorem State.bin_kept (s : State) (i : Nat) : (s.bin i).lnk = s.lnk ∧ (s.bin i).pending = s.pending ∧ (s.bin i).place = s.place
    ∧ (s.bin i).age.csrBase = s.age.csrBase := ⟨rfl, rfl, rfl, rfl⟩

theorem State.bin_temps (s : State) (i : Nat) : (s.bin i).age.temps = s.age.temps := rfl

/-- A bin counts, and holds at all ones. -/
theorem State.bin_counts (s : State) (i : Nat) : ((s.bin i).age.hist.get i).toNat = min (2 ^ 32 - 1) ((s.age.hist.get i).toNat + 1) := by
  unfold State.bin
  simp only
  rw [Sparse.get_set, if_pos rfl, BitVec.toNat_ofNat]
  exact Nat.mod_eq_of_lt (by omega)

/-! ### Samples, R275, R276 -/

theorem State.takeCorr_regs (s : State) (l : Nat) : (s.takeCorr l).2.regs = s.regs := rfl

theorem State.takeCorr_kept (s : State) (l : Nat) : (s.takeCorr l).2.pending = s.pending ∧ (s.takeCorr l).2.place = s.place
    ∧ (s.takeCorr l).2.age.hist = s.age.hist := ⟨rfl, rfl, rfl⟩

/-- What a lane's counter showed at its last sample. -/
def State.corrBase (s : State) (l : Nat) : Nat := (s.age.csrBase.get (2 * l)).toNat + 2 ^ 32 * (s.age.csrBase.get (2 * l + 1)).toNat

theorem State.takeCorr_fst (s : State) (l : Nat) : (s.takeCorr l).1 = s.getW (LANE_FECCORR l) - s.corrBase l := rfl

/-- A sample notes what the lane's counter shows. -/
theorem State.takeCorr_base (s : State) (l : Nat) : (s.takeCorr l).2.corrBase l = s.getW (LANE_FECCORR l) := by
  have low := s.rd_lt (LANE_FECCORR l).off
  have high := s.rd_lt ((LANE_FECCORR l).off + 4)
  have base : (s.takeCorr l).2.age.csrBase = (s.age.csrBase.set (2 * l) (BitVec.ofNat 32 (s.getW (LANE_FECCORR l)))).set (2 * l + 1)
      (BitVec.ofNat 32 (s.getW (LANE_FECCORR l) / 2 ^ 32)) := rfl
  unfold State.corrBase
  rw [base, Sparse.get_set, if_neg (by omega), Sparse.get_set, if_pos rfl, Sparse.get_set, if_pos rfl, BitVec.toNat_ofNat, BitVec.toNat_ofNat]
  unfold State.getW
  omega

/-- What a sample of `c` corrected symbols leaves before the lane is judged. -/
def State.sampled (s : State) (l c n : Nat) : State := ((s.takeCorr l).2.setF (AGE_LANE_CSR_CORR l) (min (2 ^ 32 - 1) c)).bin (histCsr l + csrBin c n)

theorem State.sampled_regs (s : State) (l c n : Nat) : (s.sampled l c n).regs = ((s.takeCorr l).2.setF (AGE_LANE_CSR_CORR l) (min (2 ^ 32 - 1) c)).regs := rfl

theorem State.sampled_rd (s : State) {l off : Nat} (c n : Nat) (h : off ≠ AGE_LANE_CSR l) : (s.sampled l c n).rd off = s.rd off := by
  rw [State.rd_of_regs (s.sampled_regs l c n) off, State.rd_setF_ne _ _ _ h, State.rd_of_regs (s.takeCorr_regs l)]

theorem State.sampled_corr (s : State) (l c n : Nat) : (s.sampled l c n).getF (AGE_LANE_CSR_CORR l) = min (2 ^ 32 - 1) c := by
  rw [State.getF_of_rd _ (State.rd_of_regs (s.sampled_regs l c n) _), State.getF_setF _ _ (of_decide_eq_true rfl)]
  exact Nat.mod_eq_of_lt (by simp only [AGE_LANE_CSR_CORR]; omega)

theorem State.sampled_kept (s : State) (l c n : Nat) : (s.sampled l c n).pending = s.pending ∧ (s.sampled l c n).place = s.place := by
  obtain ⟨_, pending, place, _⟩ := ((s.takeCorr l).2.setF (AGE_LANE_CSR_CORR l) (min (2 ^ 32 - 1) c)).bin_kept (histCsr l + csrBin c n)
  exact ⟨pending.trans (State.setF_pending _ _ _), place.trans (State.setF_place _ _ _)⟩

theorem State.sampled_counts (s : State) (l c n : Nat) : ((s.sampled l c n).age.hist.get (histCsr l + csrBin c n)).toNat
    = min (2 ^ 32 - 1) ((s.age.hist.get (histCsr l + csrBin c n)).toNat + 1) := by
  have same : ((s.takeCorr l).2.setF (AGE_LANE_CSR_CORR l) (min (2 ^ 32 - 1) c)).age.hist = s.age.hist := by
    rw [State.setF_age]; rfl
  unfold State.sampled
  rw [State.bin_counts, same]

theorem State.sampled_base (s : State) (l c n : Nat) : (s.sampled l c n).corrBase l = s.getW (LANE_FECCORR l) := by
  have same : (s.sampled l c n).age.csrBase = (s.takeCorr l).2.age.csrBase := by
    rw [State.sampled, (State.bin_kept _ _).2.2.2, State.setF_age]
  have := s.takeCorr_base l
  unfold State.corrBase at this ⊢
  rw [same, this]

/-- A lane's projection follows its recorded heights and the floor. -/
theorem State.projectsBelow_of_rd {s t : State} {l : Nat} (n : Nat) (trend : t.rd (AGE_LANE_TREND l) = s.rd (AGE_LANE_TREND l))
    (heights : ∀ k < 4, t.rd (AGE_LANE_HIST l k) = s.rd (AGE_LANE_HIST l k)) (floor : t.rd AGE_FLOOR = s.rd AGE_FLOOR) :
    t.projectsBelow l n = s.projectsBelow l n := by
  have hs : t.heights l = s.heights l := by
    refine List.flatMap_congr fun k hk => ?_
    have := heights k (List.mem_range.1 hk)
    rw [State.getF_of_rd (AGE_LANE_HIST_HEVEN l k) this, State.getF_of_rd (AGE_LANE_HIST_HODD l k) this]
  unfold State.projectsBelow
  rw [hs, State.getF_of_rd (AGE_LANE_TREND_NHIST l) trend, State.getF_of_rd AGE_FLOOR_EYEMIN floor]

/-- A healthy lane whose sample does not fail, and that projects above its floor, is judged as before. -/
theorem State.judgeSample_healthy {s : State} {l c n : Nat} (healthy : s.getF (AGE_LANE_STAT_VERDICT l) = 0)
    (above : s.projectsBelow l (2 * s.horizon) = false) (log : c * 2 ^ s.getF AGE_FLOOR_CSRLOG ≤ n) (hard : c * 2 ^ s.getF AGE_FLOOR_CSRHARD ≤ n) (lane : l < 18) :
    s.judgeSample l c n = s.setF (AGE_LANE_STAT_RUN l) 0 := by
  have verdict : (s.setF (AGE_LANE_STAT_RUN l) 0).getF (AGE_LANE_STAT_VERDICT l) = 0 :=
    (State.getF_setF_beside s (f := AGE_LANE_STAT_RUN l) (g := AGE_LANE_STAT_VERDICT l) 0 (of_decide_eq_true rfl) (.inr (of_decide_eq_true rfl))).trans healthy
  have rd : ∀ off, off ≠ AGE_LANE_STAT l → (s.setF (AGE_LANE_STAT_RUN l) 0).rd off = s.rd off := fun off ne => State.rd_setF_ne s _ _ ne
  have floor : (s.setF (AGE_LANE_STAT_RUN l) 0).rd AGE_FLOOR = s.rd AGE_FLOOR := rd _ (by simp only [AGE_FLOOR, AGE_LANE_STAT]; omega)
  have horizon : (s.setF (AGE_LANE_STAT_RUN l) 0).horizon = s.horizon := by
    unfold State.horizon
    rw [State.getF_of_rd AGE_FLOOR_HORIZON floor]
  have projection : (s.setF (AGE_LANE_STAT_RUN l) 0).projectsBelow l (2 * s.horizon) = false :=
    (State.projectsBelow_of_rd _ (rd _ (by simp only [AGE_LANE_TREND, AGE_LANE_STAT]; omega))
      (fun k hk => rd _ (by simp only [AGE_LANE_HIST, AGE_LANE_STAT]; omega)) floor).trans above
  have watched : (s.setF (AGE_LANE_STAT_RUN l) 0).watchLane l false = s.setF (AGE_LANE_STAT_RUN l) 0 := by
    unfold State.watchLane
    simp only
    rw [verdict, horizon, projection]
    rfl
  have noFail : decide (n < c * 2 ^ s.getF AGE_FLOOR_CSRLOG) = false := decide_eq_false (by omega)
  have notHard : decide (n < c * 2 ^ s.getF AGE_FLOOR_CSRHARD) = false := decide_eq_false (by omega)
  unfold State.judgeSample
  simp only
  rw [noFail, notHard, if_neg Bool.false_ne_true, verdict, if_neg (by decide), if_neg Bool.false_ne_true, Bool.false_and, if_neg Bool.false_ne_true, watched]

/-- What a sample of a healthy lane that does not fail leaves. -/
def State.sampleStands (s : State) (l c n : Nat) : State := (s.sampled l c n).setF (AGE_LANE_STAT_RUN l) 0

theorem State.sampleStands_rd (s : State) {l off : Nat} (c n : Nat) (stat : off ≠ AGE_LANE_STAT l) (csr : off ≠ AGE_LANE_CSR l) :
    (s.sampleStands l c n).rd off = s.rd off := (State.rd_setF_ne _ _ _ stat).trans (s.sampled_rd c n csr)

/-- A field of the lane's state beside the run of failing samples. -/
theorem State.sampleStands_stat (s : State) {l : Nat} (c n : Nat) {g : Fld} (word : g.off = AGE_LANE_STAT l)
    (beside : g.lo + g.w ≤ 19 ∨ 22 ≤ g.lo) : (s.sampleStands l c n).getF g = s.getF g :=
  (State.getF_setF_beside (s.sampled l c n) (f := AGE_LANE_STAT_RUN l) 0 (of_decide_eq_true rfl) beside).trans
    (State.getF_of_rd g (s.sampled_rd c n (by rw [word]; simp only [AGE_LANE_STAT, AGE_LANE_CSR]; omega)))

theorem State.sampleStands_corr (s : State) {l : Nat} (c n : Nat) : (s.sampleStands l c n).getF (AGE_LANE_CSR_CORR l) = min (2 ^ 32 - 1) c :=
  (State.getF_setF_apart (s.sampled l c n) (f := AGE_LANE_STAT_RUN l) (g := AGE_LANE_CSR_CORR l) 0
    (by simp only [AGE_LANE_CSR_CORR, AGE_LANE_STAT_RUN]; omega)).trans (s.sampled_corr l c n)

/-- Nothing more has been corrected since. -/
theorem State.sampleStands_takeCorr (s : State) {l : Nat} (c n : Nat) (lane : l < 18) : ((s.sampleStands l c n).takeCorr l).1 = 0 := by
  have word : ∀ off, off < 0x4900 → (s.sampleStands l c n).rd off = s.rd off := fun off h =>
    s.sampleStands_rd c n (by simp only [AGE_LANE_STAT]; omega) (by simp only [AGE_LANE_CSR]; omega)
  have shown : (s.sampleStands l c n).getW (LANE_FECCORR l) = s.getW (LANE_FECCORR l) := by
    unfold State.getW
    rw [word _ (by simp only [LANE_FECCORR]; omega), word _ (by simp only [LANE_FECCORR]; omega)]
  have base : (s.sampleStands l c n).corrBase l = s.getW (LANE_FECCORR l) := by
    have age : (s.sampleStands l c n).age = (s.sampled l c n).age := State.setF_age _ _ _
    have := s.sampled_base l c n
    unfold State.corrBase at this ⊢
    rw [age, this]
  rw [State.takeCorr_fst, shown, base, Nat.sub_self]

theorem csrSample_healthy {s : State} {l : Fin 18} {n : Nat} (active : s.laneState l = 3) (has : l.val ∈ s.lanes)
    (healthy : s.getF (AGE_LANE_STAT_VERDICT l) = 0) (above : s.projectsBelow l (2 * s.horizon) = false)
    (log : (s.takeCorr l).1 * 2 ^ s.getF AGE_FLOOR_CSRLOG ≤ n) (hard : (s.takeCorr l).1 * 2 ^ s.getF AGE_FLOOR_CSRHARD ≤ n) :
    exec (.csrSample l n) s = .next (s.sampleStands l (s.takeCorr l).1 n) := by
  have lane := l.isLt
  generalize hc : (s.takeCorr l).1 = c at *
  have rd : ∀ off, off ≠ AGE_LANE_CSR l → (s.sampled l c n).rd off = s.rd off := fun off ne => s.sampled_rd c n ne
  have floor : (s.sampled l c n).rd AGE_FLOOR = s.rd AGE_FLOOR := rd _ (by simp only [AGE_FLOOR, AGE_LANE_CSR]; omega)
  have judged : (s.sampled l c n).judgeSample l c n = s.sampleStands l c n := by
    have horizon : (s.sampled l c n).horizon = s.horizon := by
      unfold State.horizon
      rw [State.getF_of_rd AGE_FLOOR_HORIZON floor]
    refine State.judgeSample_healthy ?_ ?_ ?_ ?_ lane
    · rw [State.getF_of_rd (AGE_LANE_STAT_VERDICT l) (rd _ (by simp only [AGE_LANE_STAT_VERDICT, AGE_LANE_CSR]; omega)), healthy]
    · rw [horizon, State.projectsBelow_of_rd _ (rd _ (by simp only [AGE_LANE_TREND, AGE_LANE_CSR]; omega))
        (fun k hk => rd _ (by simp only [AGE_LANE_HIST, AGE_LANE_CSR]; omega)) floor, above]
    · rw [State.getF_of_rd AGE_FLOOR_CSRLOG floor]; exact log
    · rw [State.getF_of_rd AGE_FLOOR_CSRHARD floor]; exact hard
  have taken : (s.laneState l != 3 || !s.lanes.contains l.val) = false := by
    rw [active, List.contains_iff_mem.2 has]; rfl
  obtain ⟨pending, place⟩ := s.sampled_kept l c n
  have run : exec (.csrSample l n) s = done s ((s.sampled l c n).judgeSample l c n) := by
    rw [← hc]
    exact congrArg (done s) (if_neg (ne_true_of_eq_false taken))
  rw [run, judged]
  exact done_eq_next ((State.setF_pending _ _ _).trans pending) ((State.setF_place _ _ _).trans place)

/-! ### Estimates and readings, R45, R271 -/

theorem onlyRegs_snrShown (s : State) (l v : Nat) : OnlyRegs [LANE_SNR l] s (s.snrShown l v) :=
  (onlyRegs_setF s (f := LANE_SNR_SNR l) (List.mem_singleton.2 rfl) v).trans
    (onlyRegs_setF (s.setF (LANE_SNR_SNR l) v) (f := LANE_SNR_VALID l) (List.mem_singleton.2 rfl) 1)

theorem snrRefresh_active {s : State} {l : Fin 18} {v : BitVec 16} (active : s.laneState l = 3) (has : l.val ∈ s.lanes) :
    exec (.snrRefresh l v) s = .next (s.snrShown l v.toNat) := by
  have taken : (s.laneState l != 3 || !s.lanes.contains l.val) = false := by
    rw [active, List.contains_iff_mem.2 has]; rfl
  have run : exec (.snrRefresh l v) s = done s (s.snrShown l v.toNat) := congrArg (done s) (if_neg (ne_true_of_eq_false taken))
  rw [run, (onlyRegs_snrShown s l v.toNat).done]

/-- A reading and the highest one. -/
def State.tempShown (s : State) (v top : Nat) : State := s.setFs [(AGE_TEMP_TEMP, v), (AGE_TEMP_MAXTEMP, top)]

theorem State.tempShown_rd (s : State) (v top : Nat) {off : Nat} (h : off ≠ AGE_TEMP) : (s.tempShown v top).rd off = s.rd off := by
  unfold State.tempShown
  rw [State.setFs_two, State.rd_setF_ne, State.rd_setF_ne]
  · exact h
  · exact h

theorem State.tempShown_temp (s : State) {v : Nat} (top : Nat) (fits : v < 2 ^ 16) : (s.tempShown v top).getF AGE_TEMP_TEMP = v := by
  unfold State.tempShown
  rw [State.setFs_two, State.getF_setF_beside _ _ (of_decide_eq_true rfl) (.inl (of_decide_eq_true rfl)), State.getF_setF _ _ (of_decide_eq_true rfl)]
  exact Nat.mod_eq_of_lt fits

theorem State.tempShown_max (s : State) (v : Nat) {top : Nat} (fits : top < 2 ^ 16) : (s.tempShown v top).getF AGE_TEMP_MAXTEMP = top := by
  unfold State.tempShown
  rw [State.setFs_two, State.getF_setF _ _ (of_decide_eq_true rfl)]
  exact Nat.mod_eq_of_lt fits

/-- One reading more. -/
def State.tempCounted (s : State) : State := { s with age := { s.age with temps := s.age.temps + 1 } }

theorem State.tempCounted_regs (s : State) : s.tempCounted.regs = s.regs := rfl

theorem State.tempCounted_kept (s : State) : s.tempCounted.pending = s.pending ∧ s.tempCounted.place = s.place ∧ s.tempCounted.age.hist = s.age.hist
    ∧ s.tempCounted.age.temps = s.age.temps + 1 := ⟨rfl, rfl, rfl, rfl⟩

/-- The highest reading there has been, with one of `v`. -/
def State.tempTop (s : State) (v : BitVec 16) : Nat :=
  if s.age.temps = 0 || decide (signed 16 (s.getF AGE_TEMP_MAXTEMP) < v.toInt) then v.toNat else s.getF AGE_TEMP_MAXTEMP

theorem State.tempTop_lt (s : State) (v : BitVec 16) : s.tempTop v < 2 ^ 16 := by
  unfold State.tempTop
  split
  · exact v.isLt
  · exact Nat.mod_lt _ (by decide)

/-- A reading of the sensor stands, is compared and counted. -/
def State.tempRead (s : State) (v : BitVec 16) : State := (s.tempShown v.toNat (s.tempTop v)).tempCounted

theorem State.tempRead_regs (s : State) (v : BitVec 16) : (s.tempRead v).regs = (s.tempShown v.toNat (s.tempTop v)).regs := State.tempCounted_regs _

theorem State.tempRead_kept (s : State) (v : BitVec 16) : (s.tempRead v).pending = s.pending ∧ (s.tempRead v).place = s.place
    ∧ (s.tempRead v).age.hist = s.age.hist ∧ (s.tempRead v).age.temps = s.age.temps + 1 := by
  obtain ⟨pending, place, hist, temps⟩ := (s.tempShown v.toNat (s.tempTop v)).tempCounted_kept
  have age : (s.tempShown v.toNat (s.tempTop v)).age = s.age := State.setFs_age _ _
  exact ⟨pending.trans (State.setFs_pending _ _), place.trans (State.setFs_place _ _), hist.trans (by rw [age]), temps.trans (by rw [age])⟩

theorem State.tempTop_eq (s : State) (v : BitVec 16) : s.tempTop v
    = if s.age.temps = 0 ∨ signed 16 (s.getF AGE_TEMP_MAXTEMP) < v.toInt then v.toNat else s.getF AGE_TEMP_MAXTEMP := by
  unfold State.tempTop
  simp only [Bool.or_eq_true, decide_eq_true_eq]

/-- A reading, and every 4,096th of them in its histogram. -/
def State.tempEnds (s : State) (v : BitVec 16) : State :=
  if (s.age.temps + 1) % 4096 = 0 then (s.tempRead v).bin (histTemp + tempBin v.toInt) else s.tempRead v

section TempEnds

variable (s : State) (v : BitVec 16)

theorem State.tempEnds_cases : s.tempEnds v = (s.tempRead v).bin (histTemp + tempBin v.toInt) ∨ s.tempEnds v = s.tempRead v := by
  unfold State.tempEnds
  by_cases h : (s.age.temps + 1) % 4096 = 0
  · exact .inl (if_pos h)
  · exact .inr (if_neg h)

theorem State.tempEnds_regs : (s.tempEnds v).regs = (s.tempRead v).regs := by
  rcases s.tempEnds_cases v with h | h
  · rw [h, State.bin_regs]
  · rw [h]

theorem State.tempEnds_temps : (s.tempEnds v).age.temps = s.age.temps + 1 := by
  obtain ⟨_, _, _, temps⟩ := s.tempRead_kept v
  rcases s.tempEnds_cases v with h | h
  · rw [h, State.bin_temps, temps]
  · rw [h, temps]

theorem State.tempEnds_other (other : (s.age.temps + 1) % 4096 ≠ 0) : (s.tempEnds v).age.hist = s.age.hist := by
  obtain ⟨_, _, hist, _⟩ := s.tempRead_kept v
  rw [State.tempEnds, if_neg other, hist]

theorem State.tempEnds_due (due : (s.age.temps + 1) % 4096 = 0) : ((s.tempEnds v).age.hist.get (histTemp + tempBin v.toInt)).toNat
    = min (2 ^ 32 - 1) ((s.age.hist.get (histTemp + tempBin v.toInt)).toNat + 1) := by
  obtain ⟨_, _, hist, _⟩ := s.tempRead_kept v
  rw [State.tempEnds, if_pos due, State.bin_counts, hist]

theorem temperatureReading_ends : exec (.temperatureReading v) s = .next (s.tempEnds v) := by
  have age : (s.tempShown v.toNat (s.tempTop v)).age = s.age := State.setFs_age _ _
  have run : exec (.temperatureReading v) s = done s (if ((s.tempShown v.toNat (s.tempTop v)).age.temps + 1) % 4096 = 0
      then (s.tempRead v).bin (histTemp + tempBin v.toInt) else s.tempRead v) := rfl
  obtain ⟨pending, place, _, _⟩ := s.tempRead_kept v
  obtain ⟨_, pendingB, placeB, _⟩ := (s.tempRead v).bin_kept (histTemp + tempBin v.toInt)
  have ends : exec (.temperatureReading v) s = done s (s.tempEnds v) := by rw [run, age, State.tempEnds]
  rw [ends]
  rcases s.tempEnds_cases v with h | h
  · rw [h]; exact done_eq_next (pendingB.trans pending) (placeB.trans place)
  · rw [h]; exact done_eq_next pending place

end TempEnds

/-- What a reading leaves of the registers stands in `AGE_TEMP`. -/
theorem tempRead_shown {s t : State} {v : BitVec 16} (regs : t.regs = (s.tempRead v).regs) : t.getF AGE_TEMP_TEMP = v.toNat
    ∧ t.getF AGE_TEMP_MAXTEMP = s.tempTop v ∧ WordsKept [AGE_TEMP] s t := by
  have word : ∀ off, t.rd off = (s.tempShown v.toNat (s.tempTop v)).rd off := fun off => State.rd_of_regs (regs.trans (s.tempRead_regs v)) off
  refine ⟨(State.getF_of_rd _ (word _)).trans (State.tempShown_temp _ _ v.isLt),
    (State.getF_of_rd _ (word _)).trans (State.tempShown_max _ _ (s.tempTop_lt v)), fun off out => (word off).trans (State.tempShown_rd _ _ _ ?_)⟩
  simpa using out

/-! ### Points of a sweep, R46 -/

/-- While a sweep is in hand, no epoch goes on to its next lane. -/
theorem State.epochNext_sweep {s : State} {w : Sweep} (h : s.age.sweep = some w) (n : Nat) : s.epochNext n = s := by
  cases n with
  | zero => rfl
  | succ n =>
    unfold State.epochNext
    rw [h]
    simp

/-- A point of the sweep begins. -/
def State.pointStarts (s : State) (w : Sweep) : State :=
  { s.setB (LANE_STATUS_SWEEP w.lane) true with age := { s.age with sweep := some { w with busy := true, at_ := s.now } } }

theorem State.pointStarts_regs (s : State) (w : Sweep) : (s.pointStarts w).regs = (s.setB (LANE_STATUS_SWEEP w.lane) true).regs := rfl

theorem State.pointStarts_kept (s : State) (w : Sweep) : (s.pointStarts w).age.sweep = some { w with busy := true, at_ := s.now }
    ∧ (s.pointStarts w).pending = s.pending ∧ (s.pointStarts w).place = s.place := ⟨rfl, rfl, rfl⟩

theorem sweepPointStart_starts {s : State} {l : Fin 18} {w : Sweep} (sweep : s.age.sweep = some w) (lane : w.lane = l) (idle : w.busy = false)
    (may : s.pointMay l = true) (epoch : s.age.order.contains w.lane = true → s.epochMay = true) :
    exec (.sweepPointStart l) s = .next (s.pointStarts w) := by
  have free : (w.lane != l.val || w.busy || !s.pointMay w.lane || (s.age.order.contains w.lane && !s.epochMay)) = false := by
    rw [idle, lane, may]
    rw [lane] at epoch
    cases ho : s.age.order.contains l.val with
    | false => simp
    | true => rw [epoch ho]; simp
  obtain ⟨_, pending, place⟩ := s.pointStarts_kept w
  have run : exec (.sweepPointStart l) s = done s (match (s.epochNext 32).age.sweep with
    | none => s.epochNext 32
    | some w => if w.lane != l.val || w.busy || !(s.epochNext 32).pointMay w.lane || ((s.epochNext 32).age.order.contains w.lane && !(s.epochNext 32).epochMay)
        then s.epochNext 32 else (s.epochNext 32).pointStarts w) := rfl
  rw [run, State.epochNext_sweep sweep, sweep]
  simp only
  rw [if_neg (ne_true_of_eq_false free)]
  exact done_eq_next pending place

theorem pointStarts_shown {s : State} {w : Sweep} : (s.pointStarts w).getB (LANE_STATUS_SWEEP w.lane) = true
    ∧ (s.pointStarts w).laneState w.lane = s.laneState w.lane ∧ WordsKept [LANE_STATUS w.lane] s (s.pointStarts w) := by
  have word : ∀ off, (s.pointStarts w).rd off = (s.setB (LANE_STATUS_SWEEP w.lane) true).rd off := fun off => State.rd_of_regs (s.pointStarts_regs w) off
  refine ⟨(State.getB_of_rd _ (word _)).trans (State.getB_setB s (LANE_STATUS_SWEEP w.lane) (of_decide_eq_true rfl) rfl true),
    (State.getF_of_rd (LANE_STATUS_STATE w.lane) (word _)).trans
      (State.getF_setB_beside s (f := LANE_STATUS_SWEEP w.lane) (g := LANE_STATUS_STATE w.lane) true (of_decide_eq_true rfl) (.inl (of_decide_eq_true rfl))),
    fun off out => (word off).trans (State.rd_setB_ne s (LANE_STATUS_SWEEP w.lane) true (fun e => out (List.mem_singleton.2 e)))⟩

end Sys2Proof.Machine
end

section
/-! SUPPORT. The end of a sweep: its eye, and the lane's recorded heights (R46, R277). -/

namespace Sys2Proof.Machine

/-! ### Recorded heights -/

/-- Two heights next to each other are recorded. -/
def State.heightPair (s : State) (l n a b : Nat) : State := (s.setF (AGE_LANE_HIST_HEVEN l n) a).setF (AGE_LANE_HIST_HODD l n) b

theorem State.heightPair_even (s : State) (l n b : Nat) {a : Nat} (fits : a < 2 ^ 16) : (s.heightPair l n a b).getF (AGE_LANE_HIST_HEVEN l n) = a := by
  unfold State.heightPair
  rw [State.getF_setF_beside _ _ (of_decide_eq_true rfl) (.inl (of_decide_eq_true rfl)), State.getF_setF _ _ (of_decide_eq_true rfl)]
  exact Nat.mod_eq_of_lt fits

theorem State.heightPair_odd (s : State) (l n a : Nat) {b : Nat} (fits : b < 2 ^ 16) : (s.heightPair l n a b).getF (AGE_LANE_HIST_HODD l n) = b := by
  unfold State.heightPair
  rw [State.getF_setF _ _ (of_decide_eq_true rfl)]
  exact Nat.mod_eq_of_lt fits

theorem State.heightPair_rd (s : State) (l n a b : Nat) {off : Nat} (h : off ≠ AGE_LANE_HIST l n) : (s.heightPair l n a b).rd off = s.rd off :=
  (State.rd_setF_ne _ _ _ h).trans (State.rd_setF_ne _ _ _ h)

theorem State.setHeights_fold (s : State) (l : Nat) (h : List Nat) :
    s.setHeights l h = (List.range 4).foldl (fun s n => s.heightPair l n (h.getD (2 * n) 0) (h.getD (2 * n + 1) 0)) s := by
  unfold State.setHeights State.heightPair
  rfl

theorem State.setHeights_pairs (s : State) (l : Nat) (h : List Nat) : s.setHeights l h
    = (((s.heightPair l 0 (h.getD 0 0) (h.getD 1 0)).heightPair l 1 (h.getD 2 0) (h.getD 3 0)).heightPair l 2 (h.getD 4 0) (h.getD 5 0)).heightPair l 3
      (h.getD 6 0) (h.getD 7 0) := by
  have four : List.range 4 = [0, 1, 2, 3] := rfl
  rw [State.setHeights_fold, four]
  simp only [List.foldl_cons, List.foldl_nil, Nat.mul_zero, Nat.zero_add, Nat.mul_one, Nat.reduceMul, Nat.reduceAdd]

/-- Pairs recorded elsewhere leave a height as it is. -/
theorem State.heightPair_getF (s : State) {l n : Nat} (a b : Nat) {f : Fld} (h : f.off ≠ AGE_LANE_HIST l n) : (s.heightPair l n a b).getF f = s.getF f :=
  State.getF_of_rd f (s.heightPair_rd l n a b h)

theorem State.setHeights_rd (s : State) {l off : Nat} (h : List Nat) (out : ∀ n < 4, off ≠ AGE_LANE_HIST l n) : (s.setHeights l h).rd off = s.rd off := by
  rw [State.setHeights_pairs, State.heightPair_rd _ _ _ _ _ (out 3 (by omega)), State.heightPair_rd _ _ _ _ _ (out 2 (by omega)),
    State.heightPair_rd _ _ _ _ _ (out 1 (by omega)), State.heightPair_rd _ _ _ _ _ (out 0 (by omega))]

theorem hist_apart {l n m : Nat} (h : n ≠ m) : AGE_LANE_HIST l n ≠ AGE_LANE_HIST l m := by simp only [AGE_LANE_HIST]; omega

/-- Eight heights are read as they were recorded. -/
theorem State.setHeights_heights (s : State) (l a b c d e f g h : Nat) (fits : ∀ x ∈ [a, b, c, d, e, f, g, h], x < 2 ^ 16) :
    (s.setHeights l [a, b, c, d, e, f, g, h]).heights l = [a, b, c, d, e, f, g, h] := by
  have four : List.range 4 = [0, 1, 2, 3] := rfl
  have pairs := s.setHeights_pairs l [a, b, c, d, e, f, g, h]
  simp only [List.getD_cons_zero, List.getD_cons_succ] at pairs
  unfold State.heights
  rw [pairs, four]
  simp only [List.flatMap_cons, List.flatMap_nil, List.append_nil, List.cons_append, List.nil_append]
  rw [State.heightPair_even _ _ _ _ (fits g (by simp)), State.heightPair_odd _ _ _ _ (fits h (by simp))]
  rw [State.heightPair_getF _ _ _ (f := AGE_LANE_HIST_HEVEN l 2) (hist_apart (n := 2) (m := 3) (by decide)), State.heightPair_even _ _ _ _ (fits e (by simp)),
    State.heightPair_getF _ _ _ (f := AGE_LANE_HIST_HODD l 2) (hist_apart (n := 2) (m := 3) (by decide)), State.heightPair_odd _ _ _ _ (fits f (by simp))]
  rw [State.heightPair_getF _ _ _ (f := AGE_LANE_HIST_HEVEN l 1) (hist_apart (n := 1) (m := 3) (by decide)),
    State.heightPair_getF _ _ _ (f := AGE_LANE_HIST_HEVEN l 1) (hist_apart (n := 1) (m := 2) (by decide)), State.heightPair_even _ _ _ _ (fits c (by simp)),
    State.heightPair_getF _ _ _ (f := AGE_LANE_HIST_HODD l 1) (hist_apart (n := 1) (m := 3) (by decide)),
    State.heightPair_getF _ _ _ (f := AGE_LANE_HIST_HODD l 1) (hist_apart (n := 1) (m := 2) (by decide)), State.heightPair_odd _ _ _ _ (fits d (by simp))]
  rw [State.heightPair_getF _ _ _ (f := AGE_LANE_HIST_HEVEN l 0) (hist_apart (n := 0) (m := 3) (by decide)),
    State.heightPair_getF _ _ _ (f := AGE_LANE_HIST_HEVEN l 0) (hist_apart (n := 0) (m := 2) (by decide)),
    State.heightPair_getF _ _ _ (f := AGE_LANE_HIST_HEVEN l 0) (hist_apart (n := 0) (m := 1) (by decide)), State.heightPair_even _ _ _ _ (fits a (by simp)),
    State.heightPair_getF _ _ _ (f := AGE_LANE_HIST_HODD l 0) (hist_apart (n := 0) (m := 3) (by decide)),
    State.heightPair_getF _ _ _ (f := AGE_LANE_HIST_HODD l 0) (hist_apart (n := 0) (m := 2) (by decide)),
    State.heightPair_getF _ _ _ (f := AGE_LANE_HIST_HODD l 0) (hist_apart (n := 0) (m := 1) (by decide)), State.heightPair_odd _ _ _ _ (fits b (by simp))]

theorem State.heightPair_kept (s : State) (l n a b : Nat) : (s.heightPair l n a b).lnk = s.lnk ∧ (s.heightPair l n a b).strt = s.strt
    ∧ (s.heightPair l n a b).lme = s.lme ∧ (s.heightPair l n a b).age = s.age := by
  unfold State.heightPair
  exact ⟨by rw [State.setF_lnk, State.setF_lnk], by rw [State.setF_strt, State.setF_strt], by rw [State.setF_lme, State.setF_lme],
    by rw [State.setF_age, State.setF_age]⟩

theorem State.heights_lt (s : State) (l : Nat) : ∀ x ∈ s.heights l, x < 2 ^ 16 := by
  intro x hx
  obtain ⟨n, _, hn⟩ := List.mem_flatMap.1 hx
  simp only [List.mem_cons, List.not_mem_nil, or_false] at hn
  rcases hn with rfl | rfl
  · exact Nat.mod_lt _ (of_decide_eq_true rfl)
  · exact Nat.mod_lt _ (of_decide_eq_true rfl)

theorem State.heights_length (s : State) (l : Nat) : (s.heights l).length = 8 := rfl

theorem State.setHeights_shifted (s t : State) (l : Nat) {h : Nat} (fits : h < 2 ^ 16) :
    (t.setHeights l ((s.heights l).drop 1 ++ [h])).heights l = (s.heights l).drop 1 ++ [h] := by
  have bound : ∀ x ∈ (s.heights l).drop 1 ++ [h], x < 2 ^ 16 := by
    intro x hx
    rcases List.mem_append.1 hx with hx | hx
    · exact s.heights_lt l x (List.mem_of_mem_drop hx)
    · rw [List.mem_singleton.1 hx]; exact fits
  have eight : ((s.heights l).drop 1 ++ [h]).length = 8 := by
    rw [List.length_append, List.length_drop, s.heights_length]; rfl
  generalize (s.heights l).drop 1 ++ [h] = hs at *
  match hs, eight with
  | [a, b, c, d, e, f, g, h], _ => exact t.setHeights_heights l a b c d e f g h bound

/-- What a new height leaves beside the heights: how many there are, their slope, and the lane's eye. -/
def State.heightShown (s : State) (l n slope h : Nat) : State :=
  ((s.setF (AGE_LANE_TREND_NHIST l) n).setF (AGE_LANE_TREND_SLOPE l) slope).setF (AGE_LANE_STAT_EYE l) h

theorem State.heightShown_rd (s : State) {l off : Nat} (n slope h : Nat) (trend : off ≠ AGE_LANE_TREND l) (stat : off ≠ AGE_LANE_STAT l) :
    (s.heightShown l n slope h).rd off = s.rd off :=
  (State.rd_setF_ne _ _ _ stat).trans ((State.rd_setF_ne _ _ _ trend).trans (State.rd_setF_ne _ _ _ trend))

theorem trend_apart (l : Nat) : AGE_LANE_TREND l ≠ AGE_LANE_STAT l := by simp only [AGE_LANE_TREND, AGE_LANE_STAT]; omega

theorem State.heightShown_nhist (s : State) (l slope h : Nat) {n : Nat} (fits : n < 2 ^ 4) : (s.heightShown l n slope h).getF (AGE_LANE_TREND_NHIST l) = n := by
  unfold State.heightShown
  rw [State.getF_setF_apart _ (f := AGE_LANE_STAT_EYE l) (g := AGE_LANE_TREND_NHIST l) _ (trend_apart l),
    State.getF_setF_beside _ _ (of_decide_eq_true rfl) (.inl (of_decide_eq_true rfl)), State.getF_setF _ _ (of_decide_eq_true rfl)]
  exact Nat.mod_eq_of_lt fits

theorem State.heightShown_eye (s : State) (l n slope : Nat) {h : Nat} (fits : h < 2 ^ 16) : (s.heightShown l n slope h).getF (AGE_LANE_STAT_EYE l) = h := by
  unfold State.heightShown
  rw [State.getF_setF _ _ (of_decide_eq_true rfl)]
  exact Nat.mod_eq_of_lt fits

theorem State.heightShown_verdict (s : State) (l n slope h : Nat) : (s.heightShown l n slope h).getF (AGE_LANE_STAT_VERDICT l) = s.getF (AGE_LANE_STAT_VERDICT l) := by
  unfold State.heightShown
  rw [State.getF_setF_beside _ _ (of_decide_eq_true rfl) (.inr (of_decide_eq_true rfl)),
    State.getF_setF_apart _ (f := AGE_LANE_TREND_SLOPE l) (g := AGE_LANE_STAT_VERDICT l) _ (trend_apart l).symm,
    State.getF_setF_apart _ (f := AGE_LANE_TREND_NHIST l) (g := AGE_LANE_STAT_VERDICT l) _ (trend_apart l).symm]

theorem State.heightShown_kept (s : State) (l n slope h : Nat) : (s.heightShown l n slope h).lnk = s.lnk ∧ (s.heightShown l n slope h).strt = s.strt
    ∧ (s.heightShown l n slope h).lme = s.lme ∧ (s.heightShown l n slope h).age = s.age := by
  unfold State.heightShown
  exact ⟨by rw [State.setF_lnk, State.setF_lnk, State.setF_lnk], by rw [State.setF_strt, State.setF_strt, State.setF_strt],
    by rw [State.setF_lme, State.setF_lme, State.setF_lme], by rw [State.setF_age, State.setF_age, State.setF_age]⟩

/-- The slope that a lane's heights show. -/
def slopeOf (hs : List Nat) : Nat := unsigned 16 (clampS 16 (trendSum hs / 84))

theorem State.addHeight_eq (s : State) (l h : Nat) : s.addHeight l h = (s.setHeights l ((s.heights l).drop 1 ++ [h])).heightShown l
    (min 8 (s.getF (AGE_LANE_TREND_NHIST l) + 1)) (slopeOf ((s.heights l).drop 1 ++ [h])) h := by
  unfold State.addHeight State.heightShown slopeOf
  rfl

/-- What a new height of a lane leaves. -/
structure HeightAdded (l h : Nat) (s t : State) : Prop where
  rd : ∀ off, off ≠ AGE_LANE_TREND l → off ≠ AGE_LANE_STAT l → (∀ n < 4, off ≠ AGE_LANE_HIST l n) → t.rd off = s.rd off
  heights : t.heights l = (s.heights l).drop 1 ++ [h]
  nhist : t.getF (AGE_LANE_TREND_NHIST l) = min 8 (s.getF (AGE_LANE_TREND_NHIST l) + 1)
  eye : t.getF (AGE_LANE_STAT_EYE l) = h
  verdict : t.getF (AGE_LANE_STAT_VERDICT l) = s.getF (AGE_LANE_STAT_VERDICT l)
  lnk : t.lnk = s.lnk
  strt : t.strt = s.strt
  lme : t.lme = s.lme
  age : t.age = s.age

theorem State.setHeights_kept (s : State) (l : Nat) (h : List Nat) : (s.setHeights l h).lnk = s.lnk ∧ (s.setHeights l h).strt = s.strt
    ∧ (s.setHeights l h).lme = s.lme ∧ (s.setHeights l h).age = s.age := by
  rw [State.setHeights_pairs]
  simp only [State.heightPair_kept, and_self]

theorem hist_trend_apart (l n : Nat) (h : n < 4) : AGE_LANE_TREND l ≠ AGE_LANE_HIST l n ∧ AGE_LANE_STAT l ≠ AGE_LANE_HIST l n := by
  simp only [AGE_LANE_TREND, AGE_LANE_HIST, AGE_LANE_STAT]; omega

theorem State.addHeight_adds (s : State) (l : Nat) {h : Nat} (fits : h < 2 ^ 16) : HeightAdded l h s (s.addHeight l h) := by
  have rd : ∀ off, (∀ n < 4, off ≠ AGE_LANE_HIST l n) → (s.setHeights l ((s.heights l).drop 1 ++ [h])).rd off = s.rd off := fun off out =>
    s.setHeights_rd _ out
  have heights := s.setHeights_shifted s l fits
  obtain ⟨lnk, strt, lme, age⟩ := s.setHeights_kept l ((s.heights l).drop 1 ++ [h])
  rw [State.addHeight_eq]
  generalize s.setHeights l ((s.heights l).drop 1 ++ [h]) = v at *
  have verdict : v.getF (AGE_LANE_STAT_VERDICT l) = s.getF (AGE_LANE_STAT_VERDICT l) := State.getF_of_rd _ (rd _ (fun n hn => (hist_trend_apart l n hn).2))
  generalize slopeOf ((s.heights l).drop 1 ++ [h]) = slope
  obtain ⟨lnk', strt', lme', age'⟩ := v.heightShown_kept l (min 8 (s.getF (AGE_LANE_TREND_NHIST l) + 1)) slope h
  have shown : ∀ n < 4, (v.heightShown l (min 8 (s.getF (AGE_LANE_TREND_NHIST l) + 1)) slope h).rd (AGE_LANE_HIST l n) = v.rd (AGE_LANE_HIST l n) := fun n hn =>
    v.heightShown_rd _ _ _ (hist_trend_apart l n hn).1.symm (hist_trend_apart l n hn).2.symm
  refine ⟨fun off trend stat out => (v.heightShown_rd _ _ _ trend stat).trans (rd off out), ?_, State.heightShown_nhist _ _ _ _ (by omega),
    State.heightShown_eye _ _ _ _ fits, (v.heightShown_verdict _ _ _ _).trans verdict, lnk'.trans lnk, strt'.trans strt, lme'.trans lme, age'.trans age⟩
  rw [← heights]
  refine List.flatMap_congr fun n hn => ?_
  have word := shown n (List.mem_range.1 hn)
  rw [State.getF_of_rd (AGE_LANE_HIST_HEVEN l n) word, State.getF_of_rd (AGE_LANE_HIST_HODD l n) word]

/-! ### A sweep's eye -/

/-- An eye is shown for a lane. -/
def State.eyeShown (s : State) (l which width h : Nat) : State :=
  s.setFs [(LANE_EYE_VALID l, 1), (LANE_EYE_WHICH l, which), (LANE_EYE_WIDTH l, width), (LANE_EYE_HEIGHT l, h)]

theorem State.eyeShown_rd (s : State) {l off : Nat} (which width h : Nat) (out : off ≠ LANE_EYE l) : (s.eyeShown l which width h).rd off = s.rd off := by
  refine State.rd_setFs_ne s _ fun p hp => ?_
  simp only [List.mem_cons, List.not_mem_nil, or_false] at hp
  rcases hp with rfl | rfl | rfl | rfl <;> exact out

theorem State.eyeShown_kept (s : State) (l which width h : Nat) : (s.eyeShown l which width h).lnk = s.lnk ∧ (s.eyeShown l which width h).strt = s.strt
    ∧ (s.eyeShown l which width h).lme = s.lme ∧ (s.eyeShown l which width h).age = s.age :=
  ⟨State.setFs_lnk _ _, State.setFs_strt _ _, State.setFs_lme _ _, State.setFs_age _ _⟩

section EyeFields

variable (s : State) (l : Nat) {which width h : Nat}

theorem State.eyeShown_valid : (s.eyeShown l which width h).getB (LANE_EYE_VALID l) = true := by
  have : (s.eyeShown l which width h).getF (LANE_EYE_VALID l) = 1 := by
    simp (disch := exact of_decide_eq_true rfl) only [State.eyeShown, State.setFs, List.foldl_cons, List.foldl_nil, State.getF_setF, State.getF_setF_beside]
    rfl
  unfold State.getB
  rw [this]
  rfl

theorem State.eyeShown_which (fits : which < 4) : (s.eyeShown l which width h).getF (LANE_EYE_WHICH l) = which := by
  simp (disch := exact of_decide_eq_true rfl) only [State.eyeShown, State.setFs, List.foldl_cons, List.foldl_nil, State.getF_setF, State.getF_setF_beside]
  exact Nat.mod_eq_of_lt fits

theorem State.eyeShown_width (fits : width < 128) : (s.eyeShown l which width h).getF (LANE_EYE_WIDTH l) = width := by
  simp (disch := exact of_decide_eq_true rfl) only [State.eyeShown, State.setFs, List.foldl_cons, List.foldl_nil, State.getF_setF, State.getF_setF_beside]
  exact Nat.mod_eq_of_lt fits

theorem State.eyeShown_height (fits : h < 2 ^ 16) : (s.eyeShown l which width h).getF (LANE_EYE_HEIGHT l) = h := by
  simp (disch := exact of_decide_eq_true rfl) only [State.eyeShown, State.setFs, List.foldl_cons, List.foldl_nil, State.getF_setF]
  exact Nat.mod_eq_of_lt fits

end EyeFields

/-- No sweep is in hand. -/
def State.sweepGone (s : State) : State := { s with age := { s.age with sweep := none } }

theorem State.sweepGone_regs (s : State) : s.sweepGone.regs = s.regs := rfl

theorem State.sweepGone_kept (s : State) : s.sweepGone.lnk = s.lnk ∧ s.sweepGone.strt = s.strt ∧ s.sweepGone.lme = s.lme ∧ s.sweepGone.age.sweep = none :=
  ⟨rfl, rfl, rfl, rfl⟩

/-- Which eye of its mode a sweep of the lanes reports. -/
def State.eyeWhich (s : State) (e : Eye) : Nat := if s.laneMode = 2 then 0 else e.which.toNat

theorem State.sweepGone_which (s : State) (e : Eye) : s.sweepGone.eyeWhich e = s.eyeWhich e := rfl

theorem State.eyeWhich_lt (s : State) (e : Eye) : s.eyeWhich e < 4 := by
  unfold State.eyeWhich
  split
  · decide
  · exact e.which.isLt

/-- The eye of a whole sweep stands in its word and histogram, and its height behind those recorded. -/
def State.eyeRecorded (s : State) (l : Nat) (e : Eye) : State :=
  ((s.sweepGone.eyeShown l (s.sweepGone.eyeWhich e) e.width.toNat e.height.toNat).bin (histEye l + min 31 (e.height.toNat / 16))).addHeight l e.height.toNat

/-- What the eye of a whole sweep leaves. -/
structure EyeStands (l : Nat) (e : Eye) (s t : State) : Prop where
  rd : ∀ off, off ≠ LANE_EYE l → off < 0x4900 → t.rd off = s.rd off
  valid : t.getB (LANE_EYE_VALID l) = true
  height : t.getF (LANE_EYE_HEIGHT l) = e.height.toNat
  width : t.getF (LANE_EYE_WIDTH l) = e.width.toNat
  which : t.getF (LANE_EYE_WHICH l) = s.eyeWhich e
  eye : t.getF (AGE_LANE_STAT_EYE l) = e.height.toNat
  verdict : t.getF (AGE_LANE_STAT_VERDICT l) = s.getF (AGE_LANE_STAT_VERDICT l)
  heights : t.heights l = (s.heights l).drop 1 ++ [e.height.toNat]
  nhist : t.getF (AGE_LANE_TREND_NHIST l) = min 8 (s.getF (AGE_LANE_TREND_NHIST l) + 1)
  lnk : t.lnk = s.lnk
  strt : t.strt = s.strt
  lme : t.lme = s.lme
  sweep : t.age.sweep = none

/-- A lane's heights follow their words. -/
theorem State.heights_of_rd {s t : State} {l : Nat} (h : ∀ n < 4, t.rd (AGE_LANE_HIST l n) = s.rd (AGE_LANE_HIST l n)) : t.heights l = s.heights l := by
  refine List.flatMap_congr fun n hn => ?_
  have word := h n (List.mem_range.1 hn)
  rw [State.getF_of_rd (AGE_LANE_HIST_HEVEN l n) word, State.getF_of_rd (AGE_LANE_HIST_HODD l n) word]

theorem State.bin_others (s : State) (i : Nat) : (s.bin i).lnk = s.lnk ∧ (s.bin i).strt = s.strt ∧ (s.bin i).lme = s.lme
    ∧ (s.bin i).age.sweep = s.age.sweep := ⟨rfl, rfl, rfl, rfl⟩

theorem State.eyeRecorded_stands (s : State) {l : Nat} (e : Eye) (lane : l < 18) : EyeStands l e s (s.eyeRecorded l e) := by
  have wf := s.eyeWhich_lt e
  unfold State.eyeRecorded
  rw [State.sweepGone_which]
  generalize hu : s.sweepGone.eyeShown l (s.eyeWhich e) e.width.toNat e.height.toNat = u
  obtain ⟨lnk, strt, lme, age⟩ := s.sweepGone.eyeShown_kept l (s.eyeWhich e) e.width.toNat e.height.toNat
  obtain ⟨lnkG, strtG, lmeG, sweepG⟩ := s.sweepGone_kept
  rw [hu] at lnk strt lme age
  have added := (u.bin (histEye l + min 31 (e.height.toNat / 16))).addHeight_adds l e.height.isLt
  have binned : ∀ off, (u.bin (histEye l + min 31 (e.height.toNat / 16))).rd off = u.rd off := fun off => State.rd_of_regs (State.bin_regs _ _) off
  obtain ⟨lnkB, strtB, lmeB, sweepB⟩ := u.bin_others (histEye l + min 31 (e.height.toNat / 16))
  generalize u.bin (histEye l + min 31 (e.height.toNat / 16)) = v at *
  have shown : ∀ off, off ≠ LANE_EYE l → v.rd off = s.rd off := fun off out => by
    rw [binned, ← hu, State.eyeShown_rd _ _ _ _ out, State.rd_of_regs s.sweepGone_regs]
  have late : ∀ off, off < 0x4900 → (v.addHeight l e.height.toNat).rd off = v.rd off := fun off low =>
    added.rd off (by simp only [AGE_LANE_TREND]; omega) (by simp only [AGE_LANE_STAT]; omega) (fun n _ => by simp only [AGE_LANE_HIST]; omega)
  have eyeWord : (v.addHeight l e.height.toNat).rd (LANE_EYE l) = u.rd (LANE_EYE l) := (late _ (by simp only [LANE_EYE]; omega)).trans (binned _)
  have stat : v.rd (AGE_LANE_STAT l) = s.rd (AGE_LANE_STAT l) := shown _ (by simp only [AGE_LANE_STAT, LANE_EYE]; omega)
  refine ⟨fun off out low => (late off low).trans (shown off out), ?_, ?_, ?_, ?_, added.eye, added.verdict.trans (State.getF_of_rd (AGE_LANE_STAT_VERDICT l) stat), ?_, ?_,
    ?_, ?_, ?_, ?_⟩
  · rw [State.getB_of_rd (LANE_EYE_VALID l) eyeWord, ← hu, State.eyeShown_valid]
  · rw [State.getF_of_rd (LANE_EYE_HEIGHT l) eyeWord, ← hu, State.eyeShown_height _ _ e.height.isLt]
  · rw [State.getF_of_rd (LANE_EYE_WIDTH l) eyeWord, ← hu, State.eyeShown_width _ _ e.width.isLt]
  · rw [State.getF_of_rd (LANE_EYE_WHICH l) eyeWord, ← hu, State.eyeShown_which _ _ wf]
  · rw [added.heights, State.heights_of_rd (fun n _ => shown _ (by simp only [AGE_LANE_HIST, LANE_EYE]; omega))]
  · rw [added.nhist, State.getF_of_rd (AGE_LANE_TREND_NHIST l) (shown _ (by simp only [AGE_LANE_TREND_NHIST, LANE_EYE]; omega))]
  · rw [added.lnk, lnkB, lnk, lnkG]
  · rw [added.strt, strtB, strt, strtG]
  · rw [added.lme, lmeB, lme, lmeG]
  · rw [added.age, sweepB, age, sweepG]

theorem State.runEnds_none {s : State} (h : s.lme.runs = []) (opc status : Nat) (data : List Byte) : s.runEnds opc status data = s := by
  have same : { s with lme := { s.lme with runs := [] } } = s := by rw [← h]
  unfold State.runEnds State.runsEnd
  simp only
  rw [h]
  exact same

/-- A lane whose height passes every floor is judged as before. -/
theorem State.eyeFloors_passed {s : State} {l h : Nat} (healthy : s.getF (AGE_LANE_STAT_VERDICT l) = 0) (floor : s.getF AGE_FLOOR_EYEMIN ≤ h)
    (few : s.getF (AGE_LANE_TREND_NHIST l) ≠ 8) : s.eyeFloors l h = s := by
  have above : ∀ n, s.projectsBelow l n = false := by
    intro n
    unfold State.projectsBelow
    rw [beq_false_of_ne few, Bool.false_and]
  unfold State.eyeFloors
  rw [healthy, if_neg (by decide), if_neg (by omega), above, above, Bool.and_false, Bool.and_false, if_neg Bool.false_ne_true, if_neg Bool.false_ne_true]

/-- What follows an eye that has been recorded. -/
def State.eyeFollows (s : State) (w : Sweep) (e : Eye) : State :=
  let l := w.lane
  let h := e.height.toNat
  if s.strt.eyes.isSome then
    (if h < 2 * s.getF AGE_FLOOR_EYEMIN then s.mfgFails (2 ^ l) else (s.setLane l 2).mfgEye)
  else
    let hand := (match s.lnk.repair with | none => false | some r => (r.phase == 2 && r.s == l) || (r.phase == 1 && r.x == l))
    let castled := s.getB LINK_STATUS_CASTLING
    let s := (s.eyeFloors l h).runEnds 0x15 0 (beBytes 2 h ++ beBytes 1 e.width.toNat ++ beBytes 1 0)
    if w.quiMeasured then ((s.quiTrim l).countLane l false true).epochNext 32
    else if s.getF (AGE_LANE_STAT_VERDICT l) = 3 && hand then s.countLane l castled false
    else if s.lnk.repair.isNone then s
    else if s.getF (AGE_LANE_STAT_VERDICT l) = 3 then s.tellLane l 4
    else if s.laneState l = 4 then s.replan l
    else s

theorem State.sweepDone_eq (s : State) (w : Sweep) (e : Eye) : s.sweepDone w e = (s.eyeRecorded w.lane e).eyeFollows w e := by
  unfold State.sweepDone State.eyeRecorded State.eyeFollows State.eyeShown State.sweepGone State.eyeWhich
  rfl

/-- With nothing else in hand, and every floor passed, nothing follows. -/
theorem State.eyeFollows_nothing {s : State} {w : Sweep} {e : Eye} (eyes : s.strt.eyes = none) (runs : s.lme.runs = []) (qui : w.quiMeasured = false)
    (repair : s.lnk.repair = none) (healthy : s.getF (AGE_LANE_STAT_VERDICT w.lane) = 0) (floor : s.getF AGE_FLOOR_EYEMIN ≤ e.height.toNat)
    (few : s.getF (AGE_LANE_TREND_NHIST w.lane) ≠ 8) : s.eyeFollows w e = s := by
  unfold State.eyeFollows
  simp only
  rw [State.eyeFloors_passed healthy floor few, State.runEnds_none runs, eyes, qui, healthy, repair]
  rfl

end Sys2Proof.Machine
end

section
/-! SUPPORT. What the end of a sweep can bring about takes no time: none of it changes the tick counter. -/

namespace Sys2Proof.Machine

/-- A step that takes no time, repeated over a list, takes none. -/
theorem State.foldl_now {α : Type} (f : State → α → State) (h : ∀ s x, (f s x).now = s.now) (l : List α) : ∀ s : State, (l.foldl f s).now = s.now := by
  induction l with
  | nil => exact fun _ => rfl
  | cons x l ih => exact fun s => (ih (f s x)).trans (h s x)

/-! ### Histograms, heights and records -/

@[simp] theorem State.bin_now (s : State) (i : Nat) : (s.bin i).now = s.now := rfl

@[simp] theorem State.heightPair_now (s : State) (l n a b : Nat) : (s.heightPair l n a b).now = s.now := by
  unfold State.heightPair
  exact (State.setF_now _ _ _).trans (State.setF_now _ _ _)

@[simp] theorem State.setHeights_now (s : State) (l : Nat) (h : List Nat) : (s.setHeights l h).now = s.now := by
  rw [State.setHeights_fold]
  exact State.foldl_now _ (fun s n => s.heightPair_now _ _ _ _) _ s

@[simp] theorem State.heightShown_now (s : State) (l n m h : Nat) : (s.heightShown l n m h).now = s.now := by
  unfold State.heightShown
  exact (State.setF_now _ _ _).trans ((State.setF_now _ _ _).trans (State.setF_now _ _ _))

@[simp] theorem State.addHeight_now (s : State) (l h : Nat) : (s.addHeight l h).now = s.now := by
  rw [State.addHeight_eq, State.heightShown_now, State.setHeights_now]

@[simp] theorem State.takeIseq_now (s : State) : s.takeIseq.now = s.now := rfl

@[simp] theorem State.queueRecord_now (s : State) (ty : Nat) (p : List Byte) : (s.queueRecord ty p).now = s.now := by
  unfold State.queueRecord
  simp -implicitDefEqProofs [apply_ite State.now]

@[simp] theorem State.recLane_now (s : State) (l old new why : Nat) : (s.recLane l old new why).now = s.now := State.queueRecord_now _ _ _

@[simp] theorem State.recInstret_now (s : State) (r u : Nat) : (s.recInstret r u).now = s.now := State.queueRecord_now _ _ _

@[simp] theorem State.recEpoch_now (s : State) : s.recEpoch.now = s.now := State.queueRecord_now _ _ _

@[simp] theorem State.putRecord_now (s : State) (b : Nat) (r : List Byte) : (s.putRecord b r).now = s.now := by
  unfold State.putRecord
  exact State.foldl_now _ (fun s w => State.wr_now _ _ _) _ s

@[simp] theorem State.stageOut_now (s : State) (k o : Nat) : (s.stageOut k o).now = s.now := rfl

@[simp] theorem State.endStart_now (s : State) (r n : Nat) : (s.endStart r n).now = s.now := by
  unfold State.endStart
  simp -implicitDefEqProofs [apply_ite State.now]

@[simp] theorem State.setVerdict_now (s : State) (l new why : Nat) : (s.setVerdict l new why).now = s.now := by
  unfold State.setVerdict
  simp -implicitDefEqProofs [apply_ite State.now]

@[simp] theorem State.recPreset_now (s : State) (l : Nat) : (s.recPreset l).now = s.now := by
  unfold State.recPreset
  simp -implicitDefEqProofs

/-! ### What is sent -/

@[simp] theorem State.say_now (s : State) (c : Nat) (b : List Byte) : (s.say c b).now = s.now := by
  unfold State.say
  simp -implicitDefEqProofs

@[simp] theorem State.hush_now (s : State) : s.hush.now = s.now := rfl

@[simp] theorem State.sayUntil_now (s : State) (c : Nat) (b : List Byte) : (s.sayUntil c b).now = s.now := by
  unfold State.sayUntil
  simp -implicitDefEqProofs

@[simp] theorem State.queueMsg_now (s : State) (m : List Pip) (b : Bool) : (s.queueMsg m b).now = s.now := rfl

@[simp] theorem State.queueLc_now (s : State) (b : List Byte) : (s.queueLc b).now = s.now := rfl

@[simp] theorem State.wvCounted_now (s : State) (n : Nat) : (s.wvCounted n).now = s.now := by
  unfold State.wvCounted
  simp -implicitDefEqProofs [apply_ite State.now]

@[simp] theorem State.wvLog_now (s : State) (e : WvLog) : (s.wvLog e).now = s.now := by
  unfold State.wvLog
  rfl

@[simp] theorem State.packetLeaves_now (s : State) (p : WvPath) (l : List Byte) : (s.packetLeaves p l).now = s.now := by
  unfold State.packetLeaves
  split <;> simp -implicitDefEqProofs

@[simp] theorem State.mbxShows_now (s : State) : s.mbxShows.now = s.now := by
  unfold State.mbxShows
  split <;> simp -implicitDefEqProofs

@[simp] theorem State.packetToCore_now (s : State) (p : List Byte) : (s.packetToCore p).now = s.now := by
  unfold State.packetToCore
  simp -implicitDefEqProofs [apply_ite State.now]

@[simp] theorem State.sendPacket_now (s : State) (p : WvPath) (r : Bool) (l : List Byte) : (s.sendPacket p r l).now = s.now := by
  unfold State.sendPacket
  split <;> simp -implicitDefEqProofs [apply_ite State.now]

@[simp] theorem State.sendPackets_now (s : State) (p : WvPath) (l : List (List Byte)) : (s.sendPackets p l).now = s.now := by
  unfold State.sendPackets
  exact State.foldl_now _ (fun s q => s.sendPacket_now p true q) _ s

@[simp] theorem State.wvReply_now (s : State) (h : CmdHdr) (o st : Nat) (d : List Byte) (b : Bool) : (s.wvReply h o st d b).now = s.now := by
  unfold State.wvReply
  simp -implicitDefEqProofs

@[simp] theorem State.runsEnd_now (s : State) (p : WvRun → Bool) (st : Nat) (d : List Byte) : (s.runsEnd p st d).now = s.now := by
  unfold State.runsEnd
  exact State.foldl_now _ (fun s r => s.wvReply_now _ _ _ _ _) _ _

@[simp] theorem State.runEnds_now (s : State) (o st : Nat) (d : List Byte) : (s.runEnds o st d).now = s.now := s.runsEnd_now _ _ _

/-! ### Lanes -/

@[simp] theorem State.patEnds_now (s : State) (l : Nat) : (s.patEnds l).now = s.now := by
  unfold State.patEnds
  simp -implicitDefEqProofs [apply_ite State.now]

@[simp] theorem State.applyRx_now (s : State) (l v : Nat) : (s.applyRx l v).now = s.now := s.setFs_now _

@[simp] theorem State.adapted_now (s : State) (l : Nat) : (s.adapted l).now = s.now := (State.takeFree_now _).trans (s.applyRx_now _ _)

@[simp] theorem State.applyPending_now (s : State) (l : Nat) : (s.applyPending l).now = s.now := by
  unfold State.applyPending
  simp only
  split <;> split <;> simp -implicitDefEqProofs [State.applyTx_now]

@[simp] theorem State.setLane_now (s : State) (l st : Nat) : (s.setLane l st).now = s.now := by
  unfold State.setLane
  simp -implicitDefEqProofs [apply_ite State.now]

@[simp] theorem State.setLanes_now (s : State) (ls : List Nat) (st : Nat) : (s.setLanes ls st).now = s.now := by
  unfold State.setLanes
  exact State.foldl_now _ (fun s l => s.setLane_now l st) _ s

@[simp] theorem State.refree_now (s : State) : s.refree.now = s.now := by
  unfold State.refree
  simp -implicitDefEqProofs

@[simp] theorem State.exclude_now (s : State) (m : Nat) : (s.exclude m).now = s.now := by
  unfold State.exclude
  simp -implicitDefEqProofs

@[simp] theorem State.setMap_now (s : State) (m : List Nat) : (s.setMap m).now = s.now := by
  unfold State.setMap
  exact (State.foldl_now _ (fun s l => State.setF_now _ _ _) _ _).trans (State.foldl_now _ (fun s p => State.setF_now _ _ _) _ s)

@[simp] theorem State.powerDown_now (s : State) : s.powerDown.now = s.now := by
  unfold State.powerDown
  simp -implicitDefEqProofs

@[simp] theorem State.setAsked_now (s : State) (l w : Nat) : (s.setAsked l w).now = s.now := rfl

@[simp] theorem State.setSearch_now (s : State) (l : Nat) (q : Option Search) : (s.setSearch l q).now = s.now := rfl

@[simp] theorem State.hushLane_now (s : State) (l : Nat) : (s.hushLane l).now = s.now := rfl

@[simp] theorem State.hushShifted_now (s : State) (m : ShiftMsg) : (s.hushShifted m).now = s.now := rfl

@[simp] theorem State.sendLaneEq_now (s : State) (r l o : Nat) (v : EqVals) : (s.sendLaneEq r l o v).now = s.now := rfl

@[simp] theorem State.askLane_now (s : State) (l o : Nat) (v : EqVals) : (s.askLane l o v).now = s.now := rfl

@[simp] theorem State.tellLane_now (s : State) (l o : Nat) : (s.tellLane l o).now = s.now := rfl

@[simp] theorem State.askVals_now (s : State) (l w : Nat) : (s.askVals l w).now = s.now := by
  unfold State.askVals
  simp only
  split <;> simp [State.takeReqid]

@[simp] theorem State.startSearch_now (s : State) (l : Nat) (b : Bool) (ws : List Nat) : (s.startSearch l b ws).now = s.now := by
  unfold State.startSearch
  split <;> simp -implicitDefEqProofs

@[simp] theorem State.tuneLane_now (s : State) (l m : Nat) (b : Bool) : (s.tuneLane l m b).now = s.now := by
  unfold State.tuneLane
  split <;> simp -implicitDefEqProofs

@[simp] theorem State.setTune_now (s : State) (t : Tune) : (s.setTune t).now = s.now := rfl

@[simp] theorem State.freshTune_now (s : State) (l : Nat) : (s.freshTune l).now = s.now := s.setTune_now _

@[simp] theorem State.setLink_now (s : State) (st c : Nat) : (s.setLink st c).now = s.now := by
  unfold State.setLink
  simp -implicitDefEqProofs [apply_ite State.now]

end Sys2Proof.Machine
end

section
/-! SUPPORT. What the end of a sweep can bring about takes no time: none of it changes the tick counter. -/

namespace Sys2Proof.Machine

/-! ### Repairs and Shifts -/

@[simp] theorem State.unprepare_now (s : State) (l : Nat) : (s.unprepare l).now = s.now := by
  unfold State.unprepare
  simp -implicitDefEqProofs [apply_ite State.now]

@[simp] theorem State.dropRepair_now (s : State) : s.dropRepair.now = s.now := by
  unfold State.dropRepair
  simp only
  split
  · simp -implicitDefEqProofs
  · rw [State.foldl_now _ (fun s p => s.unprepare_now (Prod.fst p))]
    simp -implicitDefEqProofs

@[simp] theorem State.cancelRepair_now (s : State) : s.cancelRepair.now = s.now := by
  unfold State.cancelRepair
  simp -implicitDefEqProofs

@[simp] theorem State.unswitch_now (s : State) : s.unswitch.now = s.now := by
  unfold State.unswitch
  simp -implicitDefEqProofs [apply_ite State.now]

@[simp] theorem State.cancelShift_now (s : State) : s.cancelShift.now = s.now := by
  unfold State.cancelShift
  simp -implicitDefEqProofs

@[simp] theorem State.abandonSweep_now (s : State) : s.abandonSweep.now = s.now := by
  unfold State.abandonSweep
  split <;> simp -implicitDefEqProofs [apply_ite State.now]

/-! ### Going down, R117 -/

@[simp] theorem State.holdEnds_now (s : State) (b : Bool) : (s.holdEnds b).now = s.now := State.setFs_now _ _

@[simp] theorem State.dropDelivery_now (s : State) : s.dropDelivery.now = s.now := by
  unfold State.dropDelivery
  simp only
  rw [State.foldl_now _ (fun s c => (State.setF_now _ _ _).trans (State.setF_now _ _ _))]
  split <;> simp -implicitDefEqProofs [apply_ite State.now]

@[simp] theorem State.setCtx_now (s : State) (c : Nat) (x : Ctx) : (s.setCtx c x).now = s.now := rfl

@[simp] theorem State.noteRound_now (s : State) (c n : Nat) : (s.noteRound c n).now = s.now := by
  unfold State.noteRound
  simp -implicitDefEqProofs [apply_ite State.now]

@[simp] theorem State.ctxFlag_now (s : State) (c f : Nat) : (s.ctxFlag c f).now = s.now := by
  unfold State.ctxFlag
  simp -implicitDefEqProofs [apply_ite State.now]

@[simp] theorem State.feedPoison_now (s : State) (c n : Nat) : (s.feedPoison c n).now = s.now := by
  unfold State.feedPoison
  simp -implicitDefEqProofs

@[simp] theorem State.feedIn_now (s : State) (c : Nat) (d : List Byte) : (s.feedIn c d).now = s.now := by
  unfold State.feedIn
  simp -implicitDefEqProofs [apply_ite State.now]

@[simp] theorem State.intoFold_now (s : State) (c n : Nat) (d : List (Option Byte)) : (s.intoFold c n d).now = s.now := by
  unfold State.intoFold
  simp -implicitDefEqProofs [apply_ite State.now]

@[simp] theorem State.toFold_now (s : State) (c n : Nat) (d : List (Option Byte)) : (s.toFold c n d).now = s.now := by
  unfold State.toFold
  simp -implicitDefEqProofs [apply_ite State.now]

@[simp] theorem State.feedVoid_now (s : State) (n i k : Nat) : (s.feedVoid n i k).now = s.now := by
  unfold State.feedVoid
  simp -implicitDefEqProofs [apply_ite State.now]

@[simp] theorem State.emptyBuffer_now (s : State) : s.emptyBuffer.now = s.now := by
  unfold State.emptyBuffer
  simp only
  rw [State.foldl_now _ (fun s e => s.feedVoid_now _ _ _)]
  exact State.count_now _ _ _

@[simp] theorem State.voidPositions_now (s : State) (b : Bool) : (s.voidPositions b).now = s.now := by
  unfold State.voidPositions
  simp -implicitDefEqProofs

@[simp] theorem State.parentLost_now (s : State) : s.parentLost.now = s.now := by
  unfold State.parentLost
  simp -implicitDefEqProofs [apply_ite State.now]

/-! ### Requests and their tags -/

@[simp] theorem State.sendReq_now (s : State) (o : Bool) (g r : Nat) (m : List Pip) : (s.sendReq o g r m).now = s.now := by
  unfold State.sendReq
  simp -implicitDefEqProofs [apply_ite State.now]

theorem State.issue_now {s t : State} {kind owner ring arg vi ga : Nat} {mk : Nat → Nat → List Pip} {route : Nat}
    (h : s.issue kind owner ring arg vi ga mk route = some t) : t.now = s.now := by
  unfold State.issue at h
  split at h
  · exact absurd h (by simp)
  · rw [← Option.some.inj h, State.sendReq_now]

@[simp] theorem State.pumpWrites_now (s : State) (n : Nat) : (s.pumpWrites n).now = s.now := by
  induction n generalizing s with
  | zero => rfl
  | succ n ih =>
    unfold State.pumpWrites
    split
    · rfl
    · split
      · rfl
      · rename_i h
        have same := State.issue_now h
        exact (ih _).trans same

@[simp] theorem State.dropTag_now (s : State) (t : Tag) : (s.dropTag t).now = s.now := by
  unfold State.dropTag
  simp -implicitDefEqProofs

/-- Requests asked for one after another, as far as tags are free, take no time. -/
theorem issueList_now {l : List (State → Option State)} (h : ∀ f ∈ l, ∀ s t : State, f s = some t → t.now = s.now) :
    ∀ s : State, (issueList s l).1.now = s.now := by
  induction l with
  | nil => exact fun _ => rfl
  | cons f l ih =>
    intro s
    unfold issueList
    split
    · rfl
    · rename_i t ht
      exact (ih (fun g hg => h g (List.mem_cons_of_mem _ hg)) t).trans (h f List.mem_cons_self s t ht)

@[simp] theorem State.setJob_now (s : State) (j : Nat) (x : Job) : (s.setJob j x).now = s.now := rfl

theorem State.jobStep_now {s t : State} {j : Nat} (h : s.jobStep j = some t) : t.now = s.now := by
  unfold State.jobStep at h
  simp only at h
  split at h
  · exact absurd h (by simp)
  · split at h
    · split at h
      · exact absurd h (by simp)
      · rw [← Option.some.inj h, State.setJob_now]
    · split at h
      · obtain ⟨u, hu, rfl⟩ := Option.map_eq_some_iff.1 h
        exact (State.setJob_now _ _ _).trans (State.issue_now hu)
      · split at h
        · obtain ⟨u, hu, rfl⟩ := Option.map_eq_some_iff.1 h
          exact (State.setJob_now _ _ _).trans (State.issue_now hu)
        · exact absurd h (by simp)

@[simp] theorem State.jobRun_now (s : State) (j n : Nat) : (s.jobRun j n).now = s.now := by
  induction n generalizing s with
  | zero => rfl
  | succ n ih =>
    unfold State.jobRun
    split
    · rfl
    · rename_i h
      exact (ih _).trans (State.jobStep_now h)

@[simp] theorem State.jobsRun_now (s : State) : s.jobsRun.now = s.now := by
  unfold State.jobsRun
  exact State.foldl_now _ (fun s j => s.jobRun_now j 4096) _ s

@[simp] theorem State.setEng_now (s : State) (m : Nat) (e : Eng) : (s.setEng m e).now = s.now := rfl

@[simp] theorem State.releaseDone_now (s : State) (m : Nat) : (s.releaseDone m).now = s.now := by
  unfold State.releaseDone
  simp -implicitDefEqProofs

theorem State.joinWset_now {s t : State} {ring ga route : Nat} (h : s.joinWset ring ga route = some t) : t.now = s.now := by
  unfold State.joinWset at h
  simp only at h
  split at h
  · rw [← Option.some.inj h]
  · split at h
    · exact absurd h (by simp)
    · rw [← Option.some.inj h]

@[simp] theorem State.startRelease_now (s : State) (m : Nat) : (s.startRelease m).now = s.now := s.setEng_now _ _

/-- A piece of a window is asked for, and noted as on its way. -/
def State.askAhead (kind key vi : Nat) (p : Nat × Nat) (t : State) : Option State :=
  (t.issue kind key 64 p.2 vi p.1 (msgRead p.1)).map (fun u =>
    let tag := (u.mov.tags.getLast?.map (·.tag)).getD 0
    { u with trn := { u.trn with ahead := u.trn.ahead ++ [⟨key, tag, p.1 % 128, p.2, 0, 0, none⟩] } })

theorem State.askAhead_now {kind key vi : Nat} {p : Nat × Nat} {s t : State} (h : State.askAhead kind key vi p s = some t) : t.now = s.now := by
  obtain ⟨u, hu, ht⟩ := Option.map_eq_some_iff.1 h
  have same : t.now = u.now := by rw [← ht]
  exact same.trans (State.issue_now hu)

/-- What a refill asks of a window. -/
def State.windowAsks (s : State) (key w limit vi : Nat) : List (State → Option State) :=
  let out := s.aheadOf key
  let lead := if key < 0x20000 then out else out + s.stagedOf key
  let room := if key < 0x10000 then limit else s.ctxFree (key % 0x10000)
  let want := min (min (s.winHeld w - lead) (limit - (s.stagedOf key + out))) room
  let kind := if key < 0x10000 then 12 else if key < 0x20000 then 13 else 14
  (winPieces (s.getW (MOV_SWIN_BASE w)) (s.winSize w) ((s.winCons w + lead) % 2 ^ 32) want).map (State.askAhead kind key vi)

theorem State.mem_windowAsks {s : State} {key w limit vi : Nat} {f : State → Option State} (h : f ∈ s.windowAsks key w limit vi) :
    ∃ kind p, f = State.askAhead kind key vi p := by
  unfold State.windowAsks at h
  extract_lets at h
  rw [List.mem_map] at h
  obtain ⟨p, _, rfl⟩ := h
  exact ⟨_, p, rfl⟩

/-- What a refill does, by what it asks for of a window. -/
def State.refillBy (s : State) (asks : Nat → Nat → Nat → List (State → Option State)) : Option (Nat × Nat × Nat) → State
  | none => s
  | some (w, limit, vi) => (issueList s (asks w limit vi)).1

theorem State.refillBy_now (s : State) {asks : Nat → Nat → Nat → List (State → Option State)}
    (h : ∀ w limit vi, ∀ f ∈ asks w limit vi, ∀ s t : State, f s = some t → t.now = s.now) (o : Option (Nat × Nat × Nat)) :
    (s.refillBy asks o).now = s.now := by
  match o with
  | none => rfl
  | some (w, limit, vi) => exact issueList_now (h w limit vi) s

theorem State.refill_eq (s : State) (key : Nat) : s.refill key = s.refillBy (s.windowAsks key) (s.keyWindow key) := by
  unfold State.refill State.windowAsks State.askAhead
  rfl

@[simp] theorem State.refill_now (s : State) (k : Nat) : (s.refill k).now = s.now := by
  rw [State.refill_eq]
  refine State.refillBy_now s (fun w limit vi f hf s t ht => ?_) _
  obtain ⟨kind, p, rfl⟩ := State.mem_windowAsks hf
  exact State.askAhead_now ht

@[simp] theorem State.refillWindow_now (s : State) (w : Nat) : (s.refillWindow w).now = s.now := by
  unfold State.refillWindow
  exact State.foldl_now _ (fun s k => s.refill_now k) _ s

@[simp] theorem State.copyDone_now (s : State) (e : Eng) : (s.copyDone e).now = s.now := by
  unfold State.copyDone
  simp -implicitDefEqProofs [apply_ite State.now]

end Sys2Proof.Machine
end

section
/-! SUPPORT. What the end of a sweep can bring about takes no time: none of it changes the tick counter. -/

namespace Sys2Proof.Machine

/-! ### The Mover's engines -/

theorem State.copyStep_now {s t : State} {m : Nat} (h : s.copyStep m = some t) : t.now = s.now := by
  unfold State.copyStep at h
  simp only at h
  split at h
  · split at h
    · cases h
    · rw [← Option.some.inj h, State.setEng_now]
  · split at h
    · split at h
      · cases h
      · split at h
        · cases h
        · split at h
          · rw [← Option.some.inj h, State.startRelease_now, apply_ite State.now, State.trace_now, State.count_now, ite_self]
          · rename_i u hu
            obtain ⟨v, hv, rfl⟩ := Option.map_eq_some_iff.1 h
            exact (State.setEng_now _ _ _).trans ((State.issue_now hv).trans (State.joinWset_now hu))
    · split at h
      · split at h
        · cases h
        · obtain ⟨v, hv, rfl⟩ := Option.map_eq_some_iff.1 h
          exact (State.setEng_now _ _ _).trans (State.issue_now hv)
      · split at h
        · rw [← Option.some.inj h, State.setEng_now, State.copyDone_now]
        · cases h

theorem State.engStep_now {s t : State} {m : Nat} (h : s.engStep m = some t) : t.now = s.now := by
  have mapped : ∀ {o : Option State} {e : Eng}, o.map (fun u => u.setEng m e) = some t → (∀ u, o = some u → u.now = s.now) → t.now = s.now := by
    intro o e h ho
    obtain ⟨u, hu, rfl⟩ := Option.map_eq_some_iff.1 h
    exact (State.setEng_now _ _ _).trans (ho u hu)
  unfold State.engStep at h
  extract_lets e d vi at h
  rcases ite_eq_iff.1 h with ⟨_, h⟩ | ⟨_, h⟩
  · cases h
  rcases ite_eq_iff.1 h with ⟨_, h⟩ | ⟨_, h⟩
  · cases h
  rcases ite_eq_iff.1 h with ⟨_, h⟩ | ⟨_, h⟩
  · exact mapped h (fun u hu => State.issue_now hu)
  rcases ite_eq_iff.1 h with ⟨_, h⟩ | ⟨_, h⟩
  · rcases ite_eq_iff.1 h with ⟨_, h⟩ | ⟨_, h⟩
    · rw [← Option.some.inj h, State.setEng_now]
    · cases h
  rcases ite_eq_iff.1 h with ⟨_, h⟩ | ⟨_, h⟩
  · split at h
    · rcases ite_eq_iff.1 h with ⟨_, h⟩ | ⟨_, h⟩
      · cases h
      · rw [← Option.some.inj h, State.releaseDone_now]
    · rcases ite_eq_iff.1 h with ⟨_, h⟩ | ⟨_, h⟩
      · cases h
      · exact mapped h (fun u hu => State.issue_now hu)
  rcases ite_eq_iff.1 h with ⟨_, h⟩ | ⟨_, h⟩
  · exact State.copyStep_now h
  rcases ite_eq_iff.1 h with ⟨_, h⟩ | ⟨_, h⟩
  · rcases ite_eq_iff.1 h with ⟨_, h⟩ | ⟨_, h⟩
    · rw [← Option.some.inj h, State.startRelease_now, State.setEng_now]
    rcases ite_eq_iff.1 h with ⟨_, h⟩ | ⟨_, h⟩
    · split at h
      · cases h
      · rename_i u hu
        exact mapped h (fun v hv => (State.issue_now hv).trans (State.joinWset_now hu))
    · cases h
  rcases ite_eq_iff.1 h with ⟨_, h⟩ | ⟨_, h⟩
  · rcases ite_eq_iff.1 h with ⟨_, h⟩ | ⟨_, h⟩
    · obtain ⟨u, hu, rfl⟩ := Option.map_eq_some_iff.1 h
      exact (State.setEng_now _ _ _).trans ((State.count_now _ _ _).trans (State.issue_now hu))
    · cases h
  rcases ite_eq_iff.1 h with ⟨_, h⟩ | ⟨_, h⟩
  · rw [← Option.some.inj h, State.startRelease_now, State.setEng_now]
  · rw [← Option.some.inj h, State.setEng_now]

@[simp] theorem State.engRun_now (s : State) (m n : Nat) : (s.engRun m n).now = s.now := by
  induction n generalizing s with
  | zero => rfl
  | succ n ih =>
    unfold State.engRun
    simp only
    split
    · rfl
    · split
      · rfl
      · rename_i h
        exact (ih _).trans (State.engStep_now h)

@[simp] theorem State.served_now (s : State) (r : Nat) : (s.served r).now = s.now := rfl

@[simp] theorem State.startOn_now (s : State) (m r c : Nat) (d : BitVec 512) : (s.startOn m r c d).now = s.now := by
  unfold State.startOn
  simp -implicitDefEqProofs

@[simp] theorem State.startBad_now (s : State) (n : Nat) : (s.startBad n).now = s.now := by
  induction n generalizing s with
  | zero => rfl
  | succ n ih =>
    unfold State.startBad
    split
    · split
      · split
        · rw [ih, State.engRun_now, State.startOn_now]
        · rfl
      · rfl
    · rfl

@[simp] theorem State.descDone_now (s : State) (m : Nat) : (s.descDone m).now = s.now := by
  unfold State.descDone
  simp -implicitDefEqProofs [apply_ite State.now]

@[simp] theorem State.engFail_now (s : State) (m c : Nat) : (s.engFail m c).now = s.now := by
  unfold State.engFail
  simp -implicitDefEqProofs [apply_ite State.now]

@[simp] theorem State.acquired_now (s : State) (m : Nat) : (s.acquired m).now = s.now := by
  unfold State.acquired
  simp -implicitDefEqProofs [apply_ite State.now]

@[simp] theorem State.engAnswer_now (s : State) (t : Tag) (e : Nat) (p : Bool) (l : BitVec 1024) : (s.engAnswer t e p l).now = s.now := by
  unfold State.engAnswer
  simp -implicitDefEqProofs [apply_ite State.now]

@[simp] theorem State.fetchAnswer_now (s : State) (t : Tag) (e : Nat) (l : BitVec 1024) : (s.fetchAnswer t e l).now = s.now := State.startBad_now _ 4

/-! ### Jobs, windows and loads -/

@[simp] theorem State.jobConvert_now (s : State) (j n : Nat) : (s.jobConvert j n).now = s.now := by
  induction n generalizing s with
  | zero => rfl
  | succ n ih =>
    unfold State.jobConvert
    simp only
    split
    · rw [ih, State.setJob_now]
    · rw [apply_ite State.now, State.setJob_now, State.setF_now, State.setF_now, ite_self]

@[simp] theorem State.jobAnswer_now (s : State) (t : Tag) (e : Nat) (p : Bool) (l : BitVec 1024) : (s.jobAnswer t e p l).now = s.now := by
  unfold State.jobAnswer
  simp -implicitDefEqProofs [apply_ite State.now]

@[simp] theorem State.setReady_now (s : State) (i : Nat) (l : List Byte) : (s.setReady i l).now = s.now := rfl

@[simp] theorem State.staged_now (s : State) (k : Nat) (l : List Byte) : (s.stage_ k l).now = s.now := by
  unfold State.stage_
  simp -implicitDefEqProofs [apply_ite State.now]

@[simp] theorem State.winReleased_now (s : State) (w : Nat) : (s.winReleased w).now = s.now := rfl

@[simp] theorem State.pubDone_now (s : State) (w n : Nat) : (s.pubDone w n).now = s.now := rfl

theorem State.pubFlag_now {s t : State} {w n : Nat} (h : s.pubFlag w n = some t) : t.now = s.now := (State.issue_now h).trans s.takeFree_now

@[simp] theorem State.loadFails_now (s : State) : s.loadFails.now = s.now := State.runEnds_now _ _ _ _

@[simp] theorem State.uncheck_now (s : State) : s.uncheck.now = s.now := State.setFs_now _ _

@[simp] theorem State.refused_now (s : State) (o : Nat) (b : Bool) : (s.refused o b).now = s.now := State.raiseD_now _ _ _ _

@[simp] theorem State.putDesc_now (s : State) (i : Nat) (ws : List (Nat × Word)) : (s.putDesc i ws).now = s.now := by
  unfold State.putDesc
  simp -implicitDefEqProofs [apply_ite State.now]

@[simp] theorem State.writeDesc_now (s : State) (i o : Nat) (ws : List (Nat × Word)) : (s.writeDesc i o ws).now = s.now := by
  unfold State.writeDesc
  simp -implicitDefEqProofs [apply_ite State.now]

@[simp] theorem State.validate_now (s : State) (c : Nat) : (s.validate c).now = s.now := by
  unfold State.validate
  simp -implicitDefEqProofs [apply_ite State.now]

@[simp] theorem State.validateAll_now (s : State) : s.validateAll.now = s.now := by
  unfold State.validateAll
  exact State.foldl_now _ State.validate_now _ s

@[simp] theorem State.startCheck_now (s : State) : s.startCheck.now = s.now := by
  unfold State.startCheck
  simp -implicitDefEqProofs [apply_ite State.now]

end Sys2Proof.Machine
end

section
/-! SUPPORT. What the end of a sweep can bring about takes no time: none of it changes the tick counter. -/

namespace Sys2Proof.Machine

/-! ### Answers to requests -/

@[simp] theorem State.settleAhead_now (s : State) (k n : Nat) : (s.settleAhead k n).now = s.now := by
  induction n generalizing s with
  | zero => rfl
  | succ n ih =>
    unfold State.settleAhead
    split
    · rfl
    · split
      · rfl
      · simp only
        by_cases hk : k < 0x30000
        · rw [if_pos hk]
          split
          · rw [ih]
          · rw [ih, apply_ite State.now, State.setF_now, ite_self, State.staged_now]
        · rw [if_neg hk, ih, State.setF_now]

@[simp] theorem State.aheadAnswer_now (s : State) (t : Nat) (l : List Byte) : (s.aheadAnswer t l).now = s.now := by
  unfold State.aheadAnswer
  split <;> simp -implicitDefEqProofs

@[simp] theorem State.loadIssue_now (s : State) : s.loadIssue.now = s.now := by
  unfold State.loadIssue
  split
  · rfl
  · refine issueList_now (fun f hf s t ht => ?_) s
    obtain ⟨i, _, rfl⟩ := List.mem_map.1 hf
    exact State.issue_now ht

@[simp] theorem State.loadAnswer_now (s : State) (i e : Nat) (l : BitVec 1024) : (s.loadAnswer i e l).now = s.now := by
  unfold State.loadAnswer
  split
  · rfl
  · simp -implicitDefEqProofs [apply_ite State.now, State.foldl_now _ (fun s e => State.writeDesc_now s _ _ _)]

theorem State.pubFlag_getD_now (s : State) (w n : Nat) : ((s.pubFlag w n).getD s).now = s.now := by
  cases h : s.pubFlag w n with
  | none => rfl
  | some t => exact State.pubFlag_now h

@[simp] theorem State.serve_now (s : State) (t : Tag) (e : Nat) (p : Bool) (l : BitVec 1024) : (s.serve t e p l).now = s.now := by
  unfold State.serve
  simp -implicitDefEqProofs [apply_ite State.now, State.pubFlag_getD_now]

@[simp] theorem State.failTag_now (s : State) (t : Tag) (c : Nat) (k : Bool) : (s.failTag t c k).now = s.now := by
  unfold State.failTag
  simp -implicitDefEqProofs [apply_ite State.now]

@[simp] theorem State.failLinkTags_now (s : State) : s.failLinkTags.now = s.now := by
  unfold State.failLinkTags
  exact (State.foldl_now _ State.dropTag_now _ _).trans (State.foldl_now _ (fun s t => s.failTag_now t 5 false) _ s)

/-! ### Down, and the end of a start -/

@[simp] theorem State.enterDown_now (s : State) (r : Nat) : (s.enterDown r).now = s.now := by
  unfold State.enterDown
  simp -implicitDefEqProofs [apply_ite State.now]

@[simp] theorem State.scrapped_now (s : State) (c : Nat) : (s.scrapped c).now = s.now := by
  unfold State.scrapped
  rw [State.raise_now, State.endStart_now, State.setF_now, State.stageOut_now]

@[simp] theorem State.startScrap_now (s : State) (c : Nat) : (s.startScrap c).now = s.now := by
  rw [State.startScrap_eq, State.enterDown_now, State.takeFree_now, State.scrapped_now]

@[simp] theorem State.mfgFails_now (s : State) (b : Nat) : (s.mfgFails b).now = s.now := by
  unfold State.mfgFails
  simp -implicitDefEqProofs

@[simp] theorem State.startFail_now (s : State) (c : Nat) : (s.startFail c).now = s.now := by
  unfold State.startFail
  simp -implicitDefEqProofs [apply_ite State.now]

@[simp] theorem State.linkDown_now (s : State) (r : Nat) (b : Bool) : (s.linkDown r b).now = s.now := by
  unfold State.linkDown
  simp -implicitDefEqProofs [apply_ite State.now]

/-! ### Training -/

@[simp] theorem State.beginSweep_now (s : State) (l : Nat) (b : Bool) : (s.beginSweep l b).now = s.now := by
  unfold State.beginSweep
  simp -implicitDefEqProofs [apply_ite State.now]

@[simp] theorem State.resync_now (s : State) (l : List Nat) : (s.resync l).now = s.now := by
  unfold State.resync
  simp -implicitDefEqProofs

@[simp] theorem State.startDetect_now (s : State) : s.startDetect.now = s.now := by
  unfold State.startDetect
  simp -implicitDefEqProofs

/-- A lane takes the verdict that the memory of starts holds for it. -/
def State.restoreLane (s : State) (l : Nat) : State :=
  let v := s.getF (START_LANEMEM_VERDICT l)
  let s := s.setFs [(AGE_LANE_STAT_VERDICT l, v), (AGE_LANE_STAT_RETURNS l, s.getF (START_LANEMEM_RETURNS l))]
  if v = 3 then (s.exclude (2 ^ l)).setLane l 5 else if v = 2 then (s.exclude (2 ^ l)).setLane l 1 else s

@[simp] theorem State.restoreLane_now (s : State) (l : Nat) : (s.restoreLane l).now = s.now := by
  unfold State.restoreLane
  simp only
  split
  · rw [State.setLane_now, State.exclude_now, State.setFs_now]
  · split
    · rw [State.setLane_now, State.exclude_now, State.setFs_now]
    · exact State.setFs_now _ _

/-- A lane that is not retired goes on probation, and back to Standby. -/
def State.putOnProbation (s : State) (l : Nat) : State :=
  if s.getF (AGE_LANE_STAT_VERDICT l) = 3 then s else (s.setVerdict l 2 6).setLane l 1

@[simp] theorem State.putOnProbation_now (s : State) (l : Nat) : (s.putOnProbation l).now = s.now := by
  unfold State.putOnProbation
  rw [apply_ite State.now, State.setLane_now, State.setVerdict_now, ite_self]

/-- A lane that failed in the last start is kept out. -/
def State.restoreFailed (s : State) (l : Nat) : State := (s.exclude (2 ^ l)).putOnProbation l

@[simp] theorem State.restoreFailed_now (s : State) (l : Nat) : (s.restoreFailed l).now = s.now :=
  (State.putOnProbation_now _ l).trans (s.exclude_now _)

theorem State.restoreLanes_eq (s : State) : s.restoreLanes
    = (((s.lanes.foldl State.restoreLane s).lanes.filter (fun l => bitOf ((s.lanes.foldl State.restoreLane s).getF START_MEM_LANES) l)).foldl
      State.restoreFailed (s.lanes.foldl State.restoreLane s)) := by
  unfold State.restoreLanes State.restoreLane State.restoreFailed State.putOnProbation
  rfl

@[simp] theorem State.restoreLanes_now (s : State) : s.restoreLanes.now = s.now := by
  rw [State.restoreLanes_eq]
  exact (State.foldl_now _ State.restoreFailed_now _ _).trans (State.foldl_now _ State.restoreLane_now _ s)

@[simp] theorem State.tuneAll_now (s : State) : s.tuneAll.now = s.now := by
  unfold State.tuneAll
  simp only
  rw [State.foldl_now _ (fun s l => (State.tuneLane_now _ _ _ _).trans (s.setLane_now l 2))]

@[simp] theorem State.enterEqualise_now (s : State) : s.enterEqualise.now = s.now := by
  unfold State.enterEqualise
  split <;> simp -implicitDefEqProofs

@[simp] theorem State.negotiateStart_now (s : State) : s.negotiateStart.now = s.now := by
  unfold State.negotiateStart
  simp -implicitDefEqProofs

@[simp] theorem State.stageEnter_now (s : State) (k : Nat) : (s.stageEnter k).now = s.now := by
  unfold State.stageEnter
  simp -implicitDefEqProofs [apply_ite State.now]

@[simp] theorem State.stagePass_now (s : State) (k o : Nat) : (s.stagePass k o).now = s.now := by
  unfold State.stagePass
  simp -implicitDefEqProofs [apply_ite State.now]

@[simp] theorem State.modeStands_now (s : State) (m u : Nat) : (s.modeStands m u).now = s.now := by
  unfold State.modeStands
  simp -implicitDefEqProofs

@[simp] theorem State.mfgEye_now (s : State) : s.mfgEye.now = s.now := by
  unfold State.mfgEye
  split <;> simp -implicitDefEqProofs

/-! ### Lane repair -/

@[simp] theorem State.showShift_now (s : State) (m : ShiftMsg) (p : Nat) : (s.showShift m p).now = s.now := by
  unfold State.showShift
  simp -implicitDefEqProofs

@[simp] theorem State.propose_now (s : State) (r w m e : Nat) (l : List Nat) : (s.propose r w m e l).now = s.now := by
  unfold State.propose
  split
  · rfl
  · split
    · rfl
    · simp -implicitDefEqProofs

theorem State.atQui_now (s : State) (d : Deferred) {f : State → State} (h : (f s).now = s.now) : (s.atQui d f).now = s.now := by
  unfold State.atQui
  split
  · exact h
  · split <;> rfl

@[simp] theorem State.narrow_now (s : State) (m : Nat) : (s.narrow m).now = s.now := by
  unfold State.narrow
  split
  · exact s.propose_now _ _ _ _ _
  · exact s.atQui_now _ (s.linkDown_now 2 true)

@[simp] theorem State.keepShift_now (s : State) (l : Nat) : (s.keepShift l).now = s.now := by
  unfold State.keepShift
  extract_lets mask
  split <;> simp -implicitDefEqProofs

@[simp] theorem State.tellRetire_now (s : State) (x : Nat) : (s.tellRetire x).now = s.now := by
  unfold State.tellRetire
  simp -implicitDefEqProofs [apply_ite State.now]

@[simp] theorem State.remapShift_now (s : State) (x : Nat) : (s.remapShift x).now = s.now := by
  unfold State.remapShift
  extract_lets mask
  split <;> simp -implicitDefEqProofs

@[simp] theorem State.prepare_now (s : State) (c : Bool) (x l : Nat) (m : List Nat) : (s.prepare c x l m).now = s.now := by
  unfold State.prepare
  simp only
  rw [State.foldl_now _ (fun s m => s.askLane_now m 0 noVals)]
  simp -implicitDefEqProofs

@[simp] theorem State.remapStart_now (s : State) (x : Nat) (b : Option Nat) : (s.remapStart x b).now = s.now := by
  unfold State.remapStart
  split
  · simp only
    split <;> split <;> simp -implicitDefEqProofs [apply_ite State.now]
  · simp -implicitDefEqProofs

@[simp] theorem State.releaseIdle_now (s : State) (l : Nat) : (s.releaseIdle l).now = s.now := by
  unfold State.releaseIdle
  simp -implicitDefEqProofs [apply_ite State.now]

end Sys2Proof.Machine
end

section
/-! SUPPORT. What the end of a sweep can bring about takes no time: none of it changes the tick counter. -/

namespace Sys2Proof.Machine

/-! ### Lane repair, to the end -/

/-- The lane out comes home as the Shift of its repair gives way to another lane's (R136). -/
@[simp] theorem State.repairNext_now (s : State) : s.repairNext.now = s.now := by
  unfold State.repairNext
  split
  · rfl
  extract_lets +onlyGivenNames first
  clear_value first
  split
  · split
    · rw [apply_ite State.now, State.keepShift_now, ite_self]
    · rfl
  extract_lets +onlyGivenNames mask
  clear_value mask
  split
  · rfl
  split
  · exact s.narrow_now _
  split
  · split
    · simp -implicitDefEqProofs [apply_ite State.now]
    · split
      · simp -implicitDefEqProofs [apply_ite State.now]
      · rw [apply_ite State.now, State.remapShift_now, ite_self]
  · exact s.remapStart_now _ _

@[simp] theorem State.outNow_now (s : State) (l : Nat) : (s.outNow l).now = s.now := by
  unfold State.outNow
  simp -implicitDefEqProofs [apply_ite State.now]

@[simp] theorem State.keepOut_now (s : State) (l : Nat) : (s.keepOut l).now = s.now := by
  unfold State.keepOut
  simp -implicitDefEqProofs [apply_ite State.now]

@[simp] theorem State.qualifiedBoth_now (s : State) : s.qualifiedBoth.now = s.now := by
  unfold State.qualifiedBoth
  split
  · rfl
  · simp -implicitDefEqProofs [apply_ite State.now]

@[simp] theorem State.castleStart_now (s : State) (x : Nat) : (s.castleStart x).now = s.now := by
  unfold State.castleStart
  split <;> simp -implicitDefEqProofs [apply_ite State.now]

theorem State.loseLane_now (s : State) (l : Nat) {mark : State → State} (h : ∀ u : State, (mark u).now = u.now) : (s.loseLane l mark).now = s.now := by
  unfold State.loseLane
  split
  · exact h s
  · simp -implicitDefEqProofs [apply_ite State.now, h]

@[simp] theorem State.retireLane_now (s : State) (l w : Nat) : (s.retireLane l w).now = s.now := by
  unfold State.retireLane
  have lost : ∀ u : State, ((((u.exclude (2 ^ l)).setLane l 5).refree).now = u.now) := fun u => by
    rw [State.refree_now, State.setLane_now, State.exclude_now]
  simp -implicitDefEqProofs [apply_ite State.now, State.loseLane_now _ _ lost]

@[simp] theorem State.probation_now (s : State) (l w : Nat) : (s.probation l w).now = s.now := by
  unfold State.probation
  simp -implicitDefEqProofs [apply_ite State.now, State.loseLane_now _ _ (fun u => u.exclude_now (2 ^ l))]

@[simp] theorem State.eyeFloors_now (s : State) (l h : Nat) : (s.eyeFloors l h).now = s.now := by
  unfold State.eyeFloors
  simp -implicitDefEqProofs [apply_ite State.now]

/-! ### Epochs, R277 -/

@[simp] theorem State.epochBegin_now (s : State) : s.epochBegin.now = s.now := by
  unfold State.epochBegin
  simp -implicitDefEqProofs

@[simp] theorem State.epochEnd_now (s : State) : s.epochEnd.now = s.now := by
  unfold State.epochEnd
  simp -implicitDefEqProofs

@[simp] theorem State.countLane_now (s : State) (l : Nat) (c q : Bool) : (s.countLane l c q).now = s.now := by
  unfold State.countLane
  simp -implicitDefEqProofs [apply_ite State.now]

@[simp] theorem State.quiTrim_now (s : State) (l : Nat) : (s.quiTrim l).now = s.now := by
  unfold State.quiTrim
  simp -implicitDefEqProofs [apply_ite State.now]

@[simp] theorem State.epochNext_now (s : State) (n : Nat) : (s.epochNext n).now = s.now := by
  induction n generalizing s with
  | zero => rfl
  | succ n ih =>
    unfold State.epochNext
    split
    · rfl
    · split
      · simp -implicitDefEqProofs [apply_ite State.now, ih]
      · simp only
        split
        · rw [ih, State.setF_now]
        · split
          · simp -implicitDefEqProofs [apply_ite State.now]
          · split
            · rfl
            · split
              · simp -implicitDefEqProofs
              · rfl

@[simp] theorem State.standbyDone_now (s : State) (l : Nat) (b : Bool) : (s.standbyDone l b).now = s.now := by
  unfold State.standbyDone
  simp -implicitDefEqProofs [apply_ite State.now]

@[simp] theorem State.judged_now (s : State) : s.judged.now = s.now := by
  unfold State.judged
  split
  · rfl
  · simp -implicitDefEqProofs [apply_ite State.now]

@[simp] theorem State.ownVerdict_now (s : State) (l : Nat) (b : Bool) : (s.ownVerdict l b).now = s.now := by
  unfold State.ownVerdict
  extract_lets t
  have told : t.now = s.now := s.tellLane_now _ _
  split
  · rw [apply_ite State.now, told, ite_self]
  · exact told

@[simp] theorem State.replan_now (s : State) (l : Nat) : (s.replan l).now = s.now := by
  unfold State.replan
  simp -implicitDefEqProofs [apply_ite State.now]

/-! ### The end of a sweep -/

theorem State.eyeFollows_now (s : State) (w : Sweep) (e : Eye) : (s.eyeFollows w e).now = s.now := by
  unfold State.eyeFollows
  simp -implicitDefEqProofs [apply_ite State.now]

theorem State.eyeRecorded_now (s : State) (l : Nat) (e : Eye) : (s.eyeRecorded l e).now = s.now := by
  unfold State.eyeRecorded
  rw [State.addHeight_now, State.bin_now]
  exact State.setFs_now _ _

/-- However a sweep ends, no time passes. -/
theorem State.sweepDone_now (s : State) (w : Sweep) (e : Eye) : (s.sweepDone w e).now = s.now := by
  rw [State.sweepDone_eq, State.eyeFollows_now, State.eyeRecorded_now]
end Sys2Proof.Machine
end

section
/-! What a sample, an estimate, a reading and the end of a sweep's point do (R45, R46, R271, R275, R276, R277). -/

namespace Sys2Proof.Machine

/-! ### The end of a point -/

/-- A point of the sweep `w` has been measured. -/
def State.pointMeasured (s : State) (w : Sweep) : State := (s.advanceTo (w.at_ + 1024)).setB (LANE_STATUS_SWEEP w.lane) false

/-- The sweep goes on to its next point. -/
def State.nextPoint (s : State) (w : Sweep) : State := { s with age := { s.age with sweep := some { w with pt := w.pt + 1, busy := false } } }

theorem State.nextPoint_regs (s : State) (w : Sweep) : (s.nextPoint w).regs = s.regs := rfl

theorem State.nextPoint_kept (s : State) (w : Sweep) : (s.nextPoint w).now = s.now ∧ (s.nextPoint w).age.sweep = some { w with pt := w.pt + 1, busy := false } :=
  ⟨rfl, rfl⟩

/-- What the end of a point leaves, before what follows it. -/
structure PointEnded (w : Sweep) (s t : State) : Prop where
  rd : ∀ off, PlainWord off → off ∉ [LANE_STATUS w.lane] ++ PassingWords → t.rd off = s.rd off
  shown : t.getB (LANE_STATUS_SWEEP w.lane) = false
  now : t.now = max s.now (w.at_ + 1024)
  age : t.age = s.age
  lnk : t.lnk = s.lnk
  strt : t.strt = s.strt
  lme : t.lme = s.lme

theorem State.pointMeasured_ended {s : State} (w : Sweep) (running : s.clockRuns = true) : PointEnded w s (s.pointMeasured w) := by
  have only := s.elapse_only (w.at_ + 1024 - s.now)
  have now := s.elapse_now (w.at_ + 1024 - s.now) running
  have words := s.rd_elapse (w.at_ + 1024 - s.now)
  unfold State.pointMeasured State.advanceTo
  generalize s.elapse (w.at_ + 1024 - s.now) = u at *
  refine ⟨fun off plain out => ?_, State.getB_setB u (LANE_STATUS_SWEEP w.lane) (of_decide_eq_true rfl) rfl false, ?_, ?_, ?_, ?_, ?_⟩
  · rw [List.mem_append, not_or, List.mem_singleton] at out
    exact (State.rd_setB_ne u (LANE_STATUS_SWEEP w.lane) false out.1).trans (words off plain out.2)
  · rw [State.setB_now, now]; omega
  · rw [State.setB_age, only]
  · rw [State.setB_lnk, only]
  · rw [State.setB_strt, only]
  · rw [State.setB_lme, only]

/-- Words from the lanes' projections on, and those below the lanes', stand as a point ends. -/
theorem PointEnded.word {w : Sweep} {s t : State} (h : PointEnded w s t) {off : Nat} (plain : PlainWord off) (out : off < 0x804 ∨ 0x1000 ≤ off) (lane : w.lane < 18) :
    t.rd off = s.rd off := by
  refine h.rd off plain fun hm => ?_
  simp only [List.mem_append, List.mem_singleton, PassingWords, List.mem_map, List.mem_range, LANE_STATUS, LANE_PAT] at hm
  omega

theorem PointEnded.laneMode {w : Sweep} {s t : State} (h : PointEnded w s t) (lane : w.lane < 18) : t.laneMode = s.laneMode := by
  unfold State.laneMode
  rw [h.lnk, State.getF_of_rd LINK_STATUS_MODE (h.word (by unfold PlainWord; decide) (by decide) lane)]

theorem exec_sweepPointEnd {s : State} {w : Sweep} (e : Eye) (sweep : s.age.sweep = some w) (busy : w.busy = true) (lane : w.lane < 18)
    (free : s.eqPending w.lane = false) (running : s.clockRuns = true) : exec (.sweepPointEnd e) s
      = done s (if w.pt + 1 < s.sweepPoints then (s.pointMeasured w).nextPoint w else (s.pointMeasured w).sweepDone w e) := by
  have ended := s.pointMeasured_ended w running
  have points : (s.pointMeasured w).sweepPoints = s.sweepPoints := by
    unfold State.sweepPoints
    rw [ended.laneMode lane]
  have pending : (s.pointMeasured w).eqPending w.lane = false := by
    unfold State.eqPending at free ⊢
    rw [ended.age, free]
  have goes : (!w.busy) = false := by rw [busy]; rfl
  have run : exec (.sweepPointEnd e) s = done s (match s.age.sweep with
    | none => s
    | some w => if !w.busy then s else
        if (s.pointMeasured w).eqPending w.lane then ((s.pointMeasured w).applyPending w.lane).sweepRestart w.lane
        else if w.pt + 1 < (s.pointMeasured w).sweepPoints then (s.pointMeasured w).nextPoint w else (s.pointMeasured w).sweepDone w e) := rfl
  rw [run, sweep]
  simp only
  rw [if_neg (ne_true_of_eq_false goes), pending, if_neg Bool.false_ne_true, points]

theorem now_of_done {s u t : State} (h : done s u = .next t) : t.now = u.now := by
  obtain rfl := Host.Outcome.next.inj h; rfl

/-- With nothing else in hand, a whole sweep whose height passes every floor leaves its eye. -/
theorem sweepDone_passes {s v : State} {w : Sweep} {e : Eye} (ended : PointEnded w s v) (lane : w.lane < 18) (eyes : s.strt.eyes = none) (runs : s.lme.runs = [])
    (qui : w.quiMeasured = false) (repair : s.lnk.repair = none) (healthy : s.getF (AGE_LANE_STAT_VERDICT w.lane) = 0)
    (floor : s.getF AGE_FLOOR_EYEMIN ≤ e.height.toNat) (few : s.getF (AGE_LANE_TREND_NHIST w.lane) < 7) :
    v.sweepDone w e = v.eyeRecorded w.lane e := by
  have stands := v.eyeRecorded_stands e lane
  have aging : ∀ off, 0x1000 ≤ off → off < 0x5000 → v.rd off = s.rd off := fun off low high =>
    ended.word (.inl high) (.inr low) lane
  rw [State.sweepDone_eq]
  refine State.eyeFollows_nothing ?_ ?_ qui ?_ ?_ ?_ ?_
  · rw [stands.strt, ended.strt, eyes]
  · rw [stands.lme, ended.lme, runs]
  · rw [stands.lnk, ended.lnk, repair]
  · rw [stands.verdict, State.getF_of_rd (AGE_LANE_STAT_VERDICT w.lane)
      (aging _ (by simp only [AGE_LANE_STAT_VERDICT]; omega) (by simp only [AGE_LANE_STAT_VERDICT]; omega)), healthy]
  · rw [State.getF_of_rd AGE_FLOOR_EYEMIN (stands.rd _ (by simp only [AGE_FLOOR_EYEMIN, LANE_EYE]; omega) (by decide)),
      State.getF_of_rd AGE_FLOOR_EYEMIN (aging _ (by decide) (by decide))]
    exact floor
  · rw [stands.nhist, State.getF_of_rd (AGE_LANE_TREND_NHIST w.lane)
      (aging _ (by simp only [AGE_LANE_TREND_NHIST]; omega) (by simp only [AGE_LANE_TREND_NHIST]; omega))]
    omega

/-- What stands behind a whole sweep, told of the state before its last point ended. -/
theorem EyeStands.of_ended {s v t : State} {w : Sweep} {e : Eye} (stands : EyeStands w.lane e v t) (ended : PointEnded w s v) (lane : w.lane < 18)
    (few : s.getF (AGE_LANE_TREND_NHIST w.lane) < 7) :
    t.getB (LANE_STATUS_SWEEP w.lane) = false ∧ t.getF (LANE_EYE_WHICH w.lane) = s.eyeWhich e
      ∧ t.getF (AGE_LANE_STAT_VERDICT w.lane) = s.getF (AGE_LANE_STAT_VERDICT w.lane) ∧ t.heights w.lane = (s.heights w.lane).drop 1 ++ [e.height.toNat]
      ∧ t.getF (AGE_LANE_TREND_NHIST w.lane) = s.getF (AGE_LANE_TREND_NHIST w.lane) + 1 := by
  have aging : ∀ off, 0x1000 ≤ off → off < 0x5000 → v.rd off = s.rd off := fun off low high =>
    ended.word (.inl high) (.inr low) lane
  refine ⟨?_, ?_, ?_, ?_, ?_⟩
  · rw [State.getB_of_rd (LANE_STATUS_SWEEP w.lane) (stands.rd _ (by simp only [LANE_STATUS_SWEEP, LANE_EYE]; omega) (by simp only [LANE_STATUS_SWEEP]; omega))]
    exact ended.shown
  · rw [stands.which]
    unfold State.eyeWhich
    rw [ended.laneMode lane]
  · rw [stands.verdict]
    exact State.getF_of_rd (AGE_LANE_STAT_VERDICT w.lane)
      (aging _ (by simp only [AGE_LANE_STAT_VERDICT]; omega) (by simp only [AGE_LANE_STAT_VERDICT]; omega))
  · rw [stands.heights, State.heights_of_rd (fun n hn => aging _ (by simp only [AGE_LANE_HIST]; omega) (by simp only [AGE_LANE_HIST]; omega))]
  · rw [stands.nhist, State.getF_of_rd (AGE_LANE_TREND_NHIST w.lane)
      (aging _ (by simp only [AGE_LANE_TREND_NHIST]; omega) (by simp only [AGE_LANE_TREND_NHIST]; omega))]
    omega

end Sys2Proof.Machine

namespace Sys2Proof

open Machine

/-! ### The obligation -/

/-- Settles O49: each command is brought to the state it leaves, whose words are read; that the end of a sweep takes no time, whatever follows it, is `sweepDone_now`. -/
theorem samplesSweepsAndSensors : Obligations.SamplesSweepsAndSensors := by
  unfold Obligations.SamplesSweepsAndSensors
  refine fun s => ⟨?_, ?_, ?_, ?_, ?_⟩
  · intro l n active has healthy above c log hard
    refine ⟨_, csrSample_healthy active has healthy above log hard, s.sampleStands_corr c n, ?_, ?_, ?_, ?_, s.sampleStands_takeCorr c n l.isLt, fun off out => ?_⟩
    · exact State.getF_setF (s.sampled l c n) (AGE_LANE_STAT_RUN l) (of_decide_eq_true rfl) 0
    · exact (s.sampleStands_stat c n rfl (.inr (of_decide_eq_true rfl))).trans healthy
    · exact s.sampleStands_stat c n rfl (.inl (of_decide_eq_true rfl))
    · have age : (s.sampleStands l c n).age = (s.sampled l c n).age := State.setF_age _ _ _
      rw [age]
      exact s.sampled_counts l c n
    · simp only [List.mem_cons, List.not_mem_nil, or_false, not_or] at out
      exact s.sampleStands_rd c n out.1 out.2
  · intro l v active has
    exact ⟨_, snrRefresh_active active has, s.snrShown_snr l v, s.snrShown_valid l v.toNat, onlyRegs_snrShown s l v.toNat⟩
  · intro v
    obtain ⟨temp, max, words⟩ := tempRead_shown (s.tempEnds_regs v)
    exact ⟨_, temperatureReading_ends s v, temp, max.trans (s.tempTop_eq v), s.tempEnds_temps v, words, fun other => s.tempEnds_other v other,
      fun due => s.tempEnds_due v due⟩
  · intro l w sweep lane idle may epoch
    obtain ⟨shown, state, words⟩ := pointStarts_shown (s := s) (w := w)
    rw [lane] at shown state words
    exact ⟨_, sweepPointStart_starts sweep lane idle may epoch, shown, (s.pointStarts_kept w).1, state, words⟩
  · intro w e sweep has busy free running
    have lane := lanes_lt has
    have ended := s.pointMeasured_ended w running
    have run := exec_sweepPointEnd e sweep busy lane free running
    obtain ⟨t, ht⟩ := done_next s (if w.pt + 1 < s.sweepPoints then (s.pointMeasured w).nextPoint w else (s.pointMeasured w).sweepDone w e)
    have word := rd_of_done ht
    have age := age_of_done ht
    refine ⟨t, run.trans ht, ?_, fun more => ?_, fun last eyes runs qui repair healthy floor few => ?_⟩
    · rw [now_of_done ht, apply_ite State.now, ((s.pointMeasured w).nextPoint_kept w).1, State.sweepDone_now, ite_self, ended.now]
    · rw [if_pos more] at word age
      have same : ∀ off, t.rd off = (s.pointMeasured w).rd off := fun off => (word off).trans (State.rd_of_regs (State.nextPoint_regs _ _) off)
      exact ⟨(State.getB_of_rd _ (same _)).trans ended.shown, (congrArg Age.sweep age).trans ((s.pointMeasured w).nextPoint_kept w).2,
        fun off plain out => (same off).trans (ended.rd off plain out)⟩
    · rw [if_neg (by omega), sweepDone_passes ended lane eyes runs qui repair healthy floor few] at word age
      have stands := (s.pointMeasured w).eyeRecorded_stands e lane
      obtain ⟨shown, which, verdict, heights, nhist⟩ := stands.of_ended ended lane few
      refine ⟨(State.getB_of_rd _ (word _)).trans shown, (congrArg Age.sweep age).trans stands.sweep, (State.getB_of_rd _ (word _)).trans stands.valid,
        (State.getF_of_rd _ (word _)).trans stands.height, (State.getF_of_rd _ (word _)).trans stands.width, (State.getF_of_rd _ (word _)).trans which,
        (State.getF_of_rd _ (word _)).trans stands.eye, (State.getF_of_rd _ (word _)).trans (verdict.trans healthy),
        (State.heights_of_rd (fun n _ => word _)).trans heights, (State.getF_of_rd _ (word _)).trans nhist⟩

end Sys2Proof
end

section
/-! SUPPORT. Layouts read back: headers of flits and heads of messages are numbers in a mixed radix, flits and bodies are bytes one after another
(R53, R54, R59, R60, R111, R124, R161, R233). -/

namespace Sys2Proof.Machine

/-! ### Bits -/

theorem toNat_mul (b : Bool) (n : Nat) : (if b then n else 0) = b.toNat * n := by cases b <;> simp

/-- A flag is the bit that it was written as. -/
theorem bitOf_eq {v i : Nat} {b : Bool} (h : v / 2 ^ i % 2 = b.toNat) : bitOf v i = b := by
  unfold bitOf
  rw [h]
  cases b <;> rfl

/-- A header whose fields fit is read as it was written (R54). -/
theorem hdrOf_bits {h : Hdr} (seq : h.seq < 2 ^ 16) (ack : h.ack < 2 ^ 16) (cch : h.cch < 16) (cpips : h.cpips < 1024) (kind : h.kind < 4)
    (firsthead : h.firsthead < 16) : hdrOf h.bits = h ∧ h.bits < 2 ^ 64 := by
  obtain ⟨s, a, c, p, k, beat, strm, nak, f⟩ := h
  have b1 := beat.toNat_le
  have b2 := strm.toNat_le
  have b3 := nak.toNat_le
  unfold Hdr.bits
  simp only [toNat_mul] at *
  refine ⟨?_, by omega⟩
  unfold hdrOf bitsOf
  simp only [Hdr.mk.injEq]
  refine ⟨?_, ?_, ?_, ?_, ?_, bitOf_eq ?_, bitOf_eq ?_, bitOf_eq ?_, ?_⟩ <;> omega

theorem msgHead_mkMsg {chan op tag : Nat} (b : Nat) {rest : List Pip} (hchan : chan < 16) (hop : op < 64) (htag : tag < 2 ^ 16) (short : rest.length < 64) :
    msgHead (mkMsg chan op tag b rest) = ⟨chan, rest.length + 1, op, tag⟩ := by
  unfold msgHead mkMsg headOf
  simp only [List.headD_cons, BitVec.toNat_ofNat, Head.mk.injEq, Nat.add_right_cancel_iff]
  have hb := Nat.mod_lt b (Nat.two_pow_pos 96)
  generalize rest.length = n at *
  generalize b % 2 ^ 96 = m at *
  refine ⟨?_, ?_, ?_, ?_⟩ <;> unfold bitsOf <;> omega

/-! ### CRC -/

theorem crcBit_lt {w poly c : Nat} (pos : 0 < w) (hp : poly < 2 ^ w) (hc : c < 2 ^ w) : crcBit w poly c < 2 ^ w := by
  obtain ⟨k, rfl⟩ : ∃ k, w = k + 1 := ⟨w - 1, by omega⟩
  unfold crcBit
  rw [Nat.add_sub_cancel, Nat.pow_succ] at *
  split
  · exact Nat.xor_lt_two_pow (n := k + 1) (by rw [Nat.pow_succ]; omega) (by rw [Nat.pow_succ]; omega)
  · omega

theorem crcByte_lt {w poly c : Nat} (byte : 8 ≤ w) (hp : poly < 2 ^ w) (hc : c < 2 ^ w) (b : Byte) : crcByte w poly c b < 2 ^ w := by
  have bits : ∀ (l : List Nat) (c : Nat), c < 2 ^ w → l.foldl (fun c _ => crcBit w poly c) c < 2 ^ w := by
    intro l
    induction l with
    | nil => exact fun _ hc => hc
    | cons _ l ih => exact fun c hc => ih _ (crcBit_lt (by omega) hp hc)
  have high : b.toNat * 2 ^ (w - 8) < 2 ^ w := by
    calc b.toNat * 2 ^ (w - 8) < 2 ^ 8 * 2 ^ (w - 8) := Nat.mul_lt_mul_of_pos_right b.isLt (Nat.two_pow_pos _)
      _ = 2 ^ w := by rw [← Nat.pow_add]; congr 1; omega
  exact bits _ _ (Nat.xor_lt_two_pow hc high)

theorem crcFold_lt {w poly : Nat} (byte : 8 ≤ w) (hp : poly < 2 ^ w) (l : List Byte) {c : Nat} (hc : c < 2 ^ w) : l.foldl (crcByte w poly) c < 2 ^ w := by
  induction l generalizing c with
  | nil => exact hc
  | cons b l ih => exact ih (crcByte_lt byte hp hc b)

theorem crc64_lt (l : List Byte) : crc64 l < 2 ^ 64 := by
  unfold crc64
  exact crcFold_lt (of_decide_eq_true rfl) (of_decide_eq_true rfl) l (Nat.two_pow_pos 64)

/-! ### Pips as bytes -/

theorem padTo_of_length {n : Nat} {l : List Byte} (h : l.length = n) : padTo n l = l := by
  unfold padTo
  rw [List.take_of_length_le (by omega), h, Nat.sub_self, List.replicate_zero, List.append_nil]

theorem pipsBytes_length (m : List Pip) : (pipsBytes m).length = 16 * m.length := by
  unfold pipsBytes pipBytes
  induction m with
  | nil => rfl
  | cons p m ih => rw [List.flatMap_cons, List.length_append, ih, beBytes_length, List.length_cons]; omega

/-- The first 16 bytes are a pip of their own. -/
theorem bytesPips_append {p l : List Byte} (h : p.length = 16) : bytesPips (p ++ l) = BitVec.ofNat 128 (ofBytes p) :: bytesPips l := by
  have count : ((p ++ l).length + 15) / 16 = (l.length + 15) / 16 + 1 := by rw [List.length_append]; omega
  unfold bytesPips
  rw [count, List.range_succ_eq_map, List.map_cons, List.map_map]
  congr 1
  · rw [Nat.mul_zero, List.drop_zero, List.take_left' h, padTo_of_length h]
  · refine List.map_congr_left fun i _ => ?_
    have skip : List.drop (16 * (i + 1)) (p ++ l) = List.drop (16 * i) l := by
      rw [List.drop_append, List.drop_of_length_le (by omega), List.nil_append, show 16 * (i + 1) - p.length = 16 * i by omega]
    simp only [Function.comp_apply, Nat.succ_eq_add_one]
    rw [skip]

/-- Pips come back from their bytes. -/
theorem bytesPips_pipsBytes (m : List Pip) : bytesPips (pipsBytes m) = m := by
  induction m with
  | nil => rfl
  | cons p m ih =>
    have first : BitVec.ofNat 128 (ofBytes (pipBytes p)) = p := by
      unfold pipBytes
      rw [ofBytes_beBytes (by have := p.isLt; omega), BitVec.ofNat_toNat, BitVec.setWidth_eq]
    calc bytesPips (pipsBytes (p :: m)) = bytesPips (pipBytes p ++ pipsBytes m) := rfl
      _ = p :: m := by rw [bytesPips_append (show (pipBytes p).length = 16 from beBytes_length 16 _), first, ih]

/-! ### Flits, R53 and R59 -/

/-- What stands before the CRC of a flit. -/
def flitHead (n : Nat) (slots : List Pip) : List Byte := beBytes 8 n ++ pipsBytes slots

theorem flitBytes_eq (n : Nat) {slots : List Pip} (h : slots.length = 15) :
    flitBytes n slots = flitHead n slots ++ beBytes 8 (crc64 (flitHead n slots)) := by
  unfold flitBytes flitHead
  simp only
  rw [padTo_of_length (by rw [pipsBytes_length, h])]

theorem flitHead_length (n : Nat) {slots : List Pip} (h : slots.length = 15) : (flitHead n slots).length = 248 := by
  unfold flitHead
  rw [List.length_append, beBytes_length, pipsBytes_length, h]

theorem flitBytes_length (n : Nat) {slots : List Pip} (h : slots.length = 15) : (flitBytes n slots).length = 256 := by
  rw [flitBytes_eq n h, List.length_append, flitHead_length n h, beBytes_length]

/-- The header stands in the first 8 bytes. -/
theorem flitBytes_header {n : Nat} {slots : List Pip} (h : slots.length = 15) (fits : n < 2 ^ 64) : bytesAt (flitBytes n slots) 0 8 = n := by
  have cut := bytesAt_append [] (beBytes 8 n) (pipsBytes slots ++ beBytes 8 (crc64 (flitHead n slots)))
  rw [beBytes_length, ofBytes_beBytes (by omega)] at cut
  rw [flitBytes_eq n h]
  unfold flitHead at cut ⊢
  rw [List.append_assoc]
  exact cut

theorem flitSlots_flitBytes (n : Nat) {slots : List Pip} (h : slots.length = 15) : flitSlots (flitBytes n slots) = slots := by
  have len : (pipsBytes slots).length = 240 := by rw [pipsBytes_length, h]
  have body : padTo 240 ((flitBytes n slots).drop 8) = pipsBytes slots := by
    rw [flitBytes_eq n h]
    unfold flitHead padTo
    rw [List.append_assoc, List.drop_left' (beBytes_length 8 n), List.take_left' len, List.length_append, len, beBytes_length]
    exact List.append_nil _
  unfold flitSlots
  rw [body, bytesPips_pipsBytes]

/-- The CRC at the end is that of what stands before it. -/
theorem flitBytes_crc (n : Nat) {slots : List Pip} (h : slots.length = 15) : crc64 ((flitBytes n slots).take 248) = bytesAt (flitBytes n slots) 248 8 := by
  have len := flitHead_length n h
  have cut := bytesAt_append (flitHead n slots) (beBytes 8 (crc64 (flitHead n slots))) []
  rw [beBytes_length, len, List.append_nil, ofBytes_beBytes (crc64_lt _)] at cut
  rw [flitBytes_eq n h, cut, List.take_left' len]

/-! ### Bodies -/

theorem beBytes_one (n : Nat) : beBytes 1 n = [BitVec.ofNat 8 n] := by simp [beBytes]

theorem ofNat_ofBytes_beBytes {w : Nat} (n : Nat) (v : BitVec w) (fits : w ≤ 8 * n) : BitVec.ofNat w (ofBytes (beBytes n v.toNat)) = v := by
  rw [ofBytes_beBytes (v.isLt.trans_le (Nat.pow_le_pow_right (by decide) fits)), BitVec.ofNat_toNat, BitVec.setWidth_eq]

/-- The two flags of a body are its lowest bits. -/
theorem flags_of_byte (low high : Bool) : bitOf (BitVec.ofNat 8 ((if low then 1 else 0) + (if high then 2 else 0))).toNat 0 = low
    ∧ bitOf (BitVec.ofNat 8 ((if low then 1 else 0) + (if high then 2 else 0))).toNat 1 = high := by
  revert low high; decide

theorem readEq_eqBody (m : EqMsg) :
    readEq (eqBody m.reqid.toNat m.lane.toNat m.mode.toNat m.vals.swing.toNat m.vals.pre2.toNat m.vals.pre1.toNat m.vals.post1.toNat) = m := by
  unfold eqBody readEq readVals
  simp [beBytes_one]

/-- A number between other bytes of a body. -/
theorem bytesAt_field {l p r : List Byte} {at_ n w : Nat} {v : BitVec w} (body : l = p ++ (beBytes n v.toNat ++ r)) (place : p.length = at_) (fits : w ≤ 8 * n) :
    BitVec.ofNat w (bytesAt l at_ n) = v := by
  have cut := bytesAt_append p (beBytes n v.toNat) r
  rw [beBytes_length, place] at cut
  rw [body, cut, ofNat_ofBytes_beBytes n v fits]

theorem readStretch_stretchBody (m : StretchMsg) : readStretch (stretchBody m.got m.lower m.k.toNat m.seq.toNat m.origin.toNat m.e.toNat) = m := by
  obtain ⟨low, high⟩ := flags_of_byte m.lower m.got
  generalize flags : BitVec.ofNat 8 ((if m.lower then 1 else 0) + (if m.got then 2 else 0)) = x at low high
  have bytes : stretchBody m.got m.lower m.k.toNat m.seq.toNat m.origin.toNat m.e.toNat
      = [0x26, x, m.k, m.seq] ++ (beBytes 2 m.origin.toNat ++ (beBytes 2 0 ++ (beBytes 8 m.e.toNat ++ []))) := by
    unfold stretchBody
    simp [beBytes_one, flags]
  have origin := bytesAt_field (at_ := 4) (w := 9) bytes rfl (by decide)
  have e := bytesAt_field (at_ := 8) (n := 8) (v := m.e) (p := [0x26, x, m.k, m.seq] ++ beBytes 2 m.origin.toNat ++ beBytes 2 0) (r := [])
    (bytes.trans (by simp only [List.append_assoc])) (by simp) (by decide)
  unfold readStretch
  rw [origin, e, bytes]
  simp [byteAt, low, high]

theorem readGen_genBody (m : GenMsg) : readGen (genBody m.got m.origin.toNat m.vi.toNat m.gen.toNat m.nseq.toNat) = m := by
  obtain ⟨-, got⟩ := flags_of_byte false m.got
  generalize flags : BitVec.ofNat 8 ((if false then 1 else 0) + (if m.got then 2 else 0)) = x at got
  have bytes : genBody m.got m.origin.toNat m.vi.toNat m.gen.toNat m.nseq.toNat
      = [0x27, x] ++ (beBytes 2 m.origin.toNat ++ ([m.vi, 0] ++ (beBytes 2 m.gen.toNat ++ ([m.nseq] ++ beBytes 15 0)))) := by
    unfold genBody
    simp [beBytes_one, ← flags]
  have origin := bytesAt_field (at_ := 2) (w := 9) bytes rfl (by decide)
  have gen := bytesAt_field (at_ := 6) (n := 2) (v := m.gen) (p := [0x27, x] ++ beBytes 2 m.origin.toNat ++ [m.vi, 0])
    (r := [m.nseq] ++ beBytes 15 0) (bytes.trans (by simp only [List.append_assoc])) (by simp) (by decide)
  unfold readGen
  rw [origin, gen, bytes]
  simp [byteAt, got]

theorem readShift_shiftBody (ty : Nat) {m : ShiftMsg} (full : m.map.length = 16) : readShift (shiftBody ty m) = m := by
  have map : (List.range 16).map (fun p => m.map.getD p 0x1F) = m.map := by
    refine List.ext_getElem (by simp [full]) fun i hi _ => ?_
    simp at hi
    simp [full, hi]
  have bytes : shiftBody ty m = [BitVec.ofNat 8 ty, m.id, m.reason, m.width, m.mode, m.status, 0, 0]
      ++ (beBytes 4 m.effg.toNat ++ (beBytes 3 m.excl.toNat ++ ([0] ++ m.map))) := by
    unfold shiftBody
    rw [map]
    simp only [List.append_assoc]
  have effg := bytesAt_field (at_ := 8) (w := 32) bytes rfl (by decide)
  have excl := bytesAt_field (at_ := 12) (n := 3) (v := m.excl) (r := [0] ++ m.map)
    (p := [BitVec.ofNat 8 ty, m.id, m.reason, m.width, m.mode, m.status, 0, 0] ++ beBytes 4 m.effg.toNat) (bytes.trans (by simp only [List.append_assoc])) (by simp) (by decide)
  have rest : ((shiftBody ty m).drop 16).take 16 = m.map := by
    have before : ([BitVec.ofNat 8 ty, m.id, m.reason, m.width, m.mode, m.status, 0, 0] ++ beBytes 4 m.effg.toNat ++ beBytes 3 m.excl.toNat ++ [0]).length = 16 := by
      simp
    rw [bytes, ← List.append_assoc, ← List.append_assoc, ← List.append_assoc, List.drop_left' before, List.take_of_length_le full.le]
  unfold readShift
  rw [effg, excl, rest, bytes]
  simp

end Sys2Proof.Machine

namespace Sys2Proof

open Machine

/-- Settles O37: headers and heads are read digit by digit, flits and bodies byte by byte. -/
theorem headersAndBodiesRoundTrip : Obligations.HeadersAndBodiesRoundTrip := by
  unfold Obligations.HeadersAndBodiesRoundTrip
  exact ⟨fun _ seq ack cch cpips kind firsthead => hdrOf_bits seq ack cch cpips kind firsthead,
    fun n _ fits full => ⟨flitBytes_length n full, flitBytes_header full fits, flitSlots_flitBytes n full, flitBytes_crc n full⟩,
    fun _ _ _ b _ hchan hop htag short => msgHead_mkMsg b hchan hop htag short,
    fun ty _ full => readShift_shiftBody ty full, readStretch_stretchBody, readGen_genBody, readEq_eqBody⟩

end Sys2Proof
end

section
/-! SUPPORT. Ticks that pass before a command acts: which words they count in, and what of clocks, crossings and schedule they leave (R6, R139, R252). -/

namespace Sys2Proof.Machine

/-! ### What ticks change -/

/-- The counters of ticks. -/
def TickCounters : List Cnt :=
  (List.range 6).map CNT_CRSTALL ++ [CNT_BANK_FULL, CNT_STR_STARVE, CNT_MOV_FETCH_STALL, CNT_MOV_TAG_STALL, CNT_FOLD_OPWAIT, CNT_XJ_WAIT, CNT_FW_PACE]

/-- The words of the counters of ticks. -/
def TickWords : List Nat := TickCounters.flatMap (fun c => [c.off, c.off + 4])

theorem State.rd_countIf_uncounted (s : State) (b : Bool) {c : Cnt} (d : Nat) (hc : c ∈ TickCounters) {off : Nat} (h : off ∉ TickWords) :
    (s.countIf b c d).rd off = s.rd off := by
  refine State.rd_countIf s b c d (fun e => h ?_) (fun e => h ?_) <;> exact List.mem_flatMap.2 ⟨c, hc, by simp [e]⟩

theorem State.rd_tickCounts_uncounted (s : State) (d : Nat) {off : Nat} (h : off ∉ TickWords) : (s.tickCounts d).rd off = s.rd off := by
  have other : ∀ (t : State) (b : Bool) (c : Cnt), c ∈ TickCounters → (t.countIf b c d).rd off = t.rd off :=
    fun t b _ hc => State.rd_countIf_uncounted t b d hc h
  unfold State.tickCounts
  simp only
  rw [other, other, other, other, other, other, other, State.rd_foldl]
  · exact fun t c hc => other t _ _ (List.mem_append_left _ (List.mem_map_of_mem hc))
  all_goals decide

/-- Time changes the counters of ticks and the words of the checkers alone. -/
theorem State.rd_elapse_uncounted (s : State) (d : Nat) {off : Nat} (h : off ∉ TickWords) (h' : off ∉ PassingWords) : (s.elapse d).rd off = s.rd off := by
  unfold State.elapse; split
  · rfl
  · exact (State.rd_patLocks _ h').trans (State.rd_tickCounts_uncounted s d h)

@[simp] theorem State.elapse_pending (s : State) (d : Nat) : (s.elapse d).pending = s.pending := by rw [s.elapse_only d]
@[simp] theorem State.elapse_place (s : State) (d : Nat) : (s.elapse d).place = s.place := by rw [s.elapse_only d]
@[simp] theorem State.elapse_dlv (s : State) (d : Nat) : (s.elapse d).dlv = s.dlv := by rw [s.elapse_only d]
@[simp] theorem State.elapse_lnk (s : State) (d : Nat) : (s.elapse d).lnk = s.lnk := by rw [s.elapse_only d]
@[simp] theorem State.elapse_tim (s : State) (d : Nat) : (s.elapse d).tim = s.tim := by rw [s.elapse_only d]
@[simp] theorem State.elapse_trn (s : State) (d : Nat) : (s.elapse d).trn = s.trn := by rw [s.elapse_only d]
@[simp] theorem State.elapse_mov (s : State) (d : Nat) : (s.elapse d).mov = s.mov := by rw [s.elapse_only d]
@[simp] theorem State.elapse_isl (s : State) (d : Nat) : (s.elapse d).isl = s.isl := by rw [s.elapse_only d]
@[simp] theorem State.elapse_out (s : State) (d : Nat) : (s.elapse d).out = s.out := by rw [s.elapse_only d]

@[simp] theorem State.elapse_far (s : State) (d : Nat) : (s.elapse d).far = s.far := by unfold State.far; rw [State.elapse_place]
@[simp] theorem State.elapse_guestEdge (s : State) (d : Nat) : (s.elapse d).guestEdge = s.guestEdge := by unfold State.guestEdge; rw [State.elapse_place]
@[simp] theorem State.elapse_clockRuns (s : State) (d : Nat) : (s.elapse d).clockRuns = s.clockRuns := by unfold State.clockRuns; rw [State.elapse_isl]

theorem State.elapse_getF (s : State) (d : Nat) (f : Fld) (plain : PlainWord f.off) (still : f.off ∉ PassingWords) : (s.elapse d).getF f = s.getF f :=
  State.getF_of_rd f (s.rd_elapse d _ plain still)

theorem State.elapse_getB (s : State) (d : Nat) (f : Fld) (plain : PlainWord f.off) (still : f.off ∉ PassingWords) : (s.elapse d).getB f = s.getB f :=
  State.getB_of_rd f (s.rd_elapse d _ plain still)

@[simp] theorem State.elapse_clkSeen (s : State) (d : Nat) (c : Clk) : (s.elapse d).clkSeen c = s.clkSeen c := by
  cases c with
  | mgmt => unfold State.clkSeen; rw [State.elapse_isl]
  | linkCore | arith | core => exact s.elapse_getB d _ (.inl (by decide)) (by decide)

/-- Time opens and closes no crossing. -/
@[simp] theorem State.elapse_xOpen (s : State) (d x : Nat) : (s.elapse d).xOpen x = s.xOpen x := by
  unfold State.xOpen
  rw [State.elapse_clockRuns, State.elapse_isl, funext (s.elapse_clkSeen d)]

@[simp] theorem State.elapse_linkRuns (s : State) (d : Nat) : (s.elapse d).linkRuns = s.linkRuns :=
  State.linkRuns_of_rd (s.rd_elapse d _ (.inl (by decide)) (by decide))

@[simp] theorem State.elapse_link (s : State) (d : Nat) : (s.elapse d).link = s.link := s.elapse_getF d LINK_STATUS_STATE (.inl (by decide)) (by decide)

theorem State.elapse_die (s : State) (d : Nat) (running : s.clockRuns = true) : (s.elapse d).die = s.die + BitVec.ofNat 64 d := by
  unfold State.elapse
  split
  · rename_i still
    have : d = 0 := by
      unfold State.clockRuns at running
      simp only [Bool.and_eq_true, Bool.not_eq_true'] at running
      simpa [running.1, running.2] using still
    simp [this]
  · rfl

theorem State.advanceTo_now {s : State} (running : s.clockRuns = true) (t : Nat) : (s.advanceTo t).now = max s.now t := by
  unfold State.advanceTo
  rw [s.elapse_now _ running]
  omega

/-- The die counter comes to a value that lies ahead of it. -/
theorem State.advanceDie_tick {s : State} (running : s.clockRuns = true) {t : Nat} (ahead : s.tick ≤ t) (fits : t < 2 ^ 64) : (s.advanceDie t).tick = t := by
  unfold State.advanceDie State.tick at *
  rw [s.elapse_die _ running, BitVec.toNat_add, BitVec.toNat_ofNat]
  omega

/-! ### The schedule as ticks pass -/

theorem State.elapse_run (s : State) (d : Nat) : (s.elapse d).run = s.run := s.elapse_getB d TURN_CTRL_RUN (.inl (by decide)) (by decide)

theorem State.elapse_dueOf (s : State) (d n off : Nat) : (s.elapse d).dueOf n off = s.dueOf n off := by
  have decl : (s.elapse d).decl = s.decl := s.elapse_getF d TIME_DECL_DECL (.inl (by decide)) (by decide)
  unfold State.dueOf State.sigma State.roundStart
  rw [decl, State.elapse_tim, State.elapse_place]

theorem State.elapse_turnEntry (s : State) (d : Nat) : (s.elapse d).turnEntry = s.turnEntry := by
  have deck : (s.elapse d).getF TURN_DECK_NDECK = s.getF TURN_DECK_NDECK := s.elapse_getF d TURN_DECK_NDECK (.inl (by decide)) (by decide)
  funext i
  unfold State.turnEntry State.pageFrame
  rw [deck, State.elapse_trn, State.elapse_place]

theorem State.progOf_lt (s : State) (n : Nat) : s.progOf n < 32 := by
  have : s.getF TURN_LEN_CYCLE < 2 ^ 5 := Nat.mod_lt _ (by decide)
  exact (Nat.mod_lt _ (Nat.succ_pos _)).trans_le (by omega)

theorem State.elapse_roundRuns (s : State) (d : Nat) (tx : Bool) (n : Nat) : (s.elapse d).roundRuns tx n = s.roundRuns tx n := by
  have cycle : (s.elapse d).getF TURN_LEN_CYCLE = s.getF TURN_LEN_CYCLE := s.elapse_getF d TURN_LEN_CYCLE (.inl (by decide)) (by decide)
  have len : (s.elapse d).getF TURN_LEN_LEN = s.getF TURN_LEN_LEN := s.elapse_getF d TURN_LEN_LEN (.inl (by decide)) (by decide)
  have prog : (s.elapse d).progOf n = s.progOf n := by unfold State.progOf; rw [cycle, State.elapse_trn]
  have times : (s.elapse d).roundTimes = s.roundTimes := by unfold State.roundTimes; rw [len, State.elapse_place]
  have start : ∀ c < 32, (s.elapse d).getF (if tx then TURN_DIR_TX_START c else TURN_DIR_RX_START c)
      = s.getF (if tx then TURN_DIR_TX_START c else TURN_DIR_RX_START c) := by
    intro c hc
    refine s.elapse_getF d _ (.inl ?_) (fun hm => ?_)
    · split <;> simp only [TURN_DIR_TX_START, TURN_DIR_RX_START] <;> omega
    · simp only [PassingWords, List.mem_map, List.mem_range, LANE_PAT] at hm
      split at hm <;> simp only [TURN_DIR_TX_START, TURN_DIR_RX_START] at hm <;> omega
  unfold State.roundRuns State.progRuns
  rw [prog, times, s.elapse_turnEntry, start _ (s.progOf_lt n)]

theorem State.elapse_nextPos (s : State) (d : Nat) (tx : Bool) (fuel n i : Nat) : (s.elapse d).nextPos tx fuel n i = s.nextPos tx fuel n i := by
  induction fuel generalizing n i with
  | zero => rfl
  | succ fuel ih =>
    simp only [State.nextPos, s.elapse_roundRuns, ih]

/-- What falls due next is the same before and after ticks that pass. -/
theorem State.elapse_nextDue (s : State) (d : Nat) : (s.elapse d).nextDue = s.nextDue := by
  unfold State.nextDue
  rw [s.elapse_run, State.elapse_trn, s.elapse_nextPos, funext fun n => funext (s.elapse_dueOf d n)]

/-! ### What the core side kept -/

/-- With nothing kept at the crossings the core side has nothing to hand over. -/
theorem State.takeOffers_none {s : State} (empty : s.isl.wait = []) : s.takeOffers = s := by
  have same : { s with isl := { s.isl with wait := [] } } = s := by rw [← empty]
  unfold State.takeOffers
  split
  · rfl
  · rw [empty]
    exact same

/-- Off the guest edge no message of DBG is discarded (R238). -/
theorem State.dropDbg_inside {s : State} (inside : s.guestEdge = false) : s.dropDbg = s := by
  unfold State.dropDbg
  rw [inside]
  rfl

end Sys2Proof.Machine

namespace Sys2Proof

open Machine

theorem ClocksRun.elapse {s : State} (h : ClocksRun s) (d : Nat) : ClocksRun (s.elapse d) := h.of_eq (by simp) (s.elapse_clkSeen d)

end Sys2Proof
end

section
/-! SUPPORT. What the core side hands over and takes: messages on their way in (R61, R238, R252, R265), messages that leave their buffers (R76, R77,
R96, R231, R236), and stream data at its due tick (R153). -/

namespace Sys2Proof.Machine

/-! ### Offers -/

theorem exec_coreMessageOffer {s : State} {m : List Pip} (some : m ≠ []) (chan : (msgHead m).chan ≤ 5) (empty : s.isl.wait = []) :
    exec (.coreMessageOffer m) s = done s (if s.link = 7 then s.hold 7 (.message m) else if s.xOpen 2 then s.offer m else s.offerAt 2 (.message m)) := by
  have good : (decide (5 < (msgHead m).chan) || m.isEmpty) = false := by
    simp only [Bool.or_eq_false_iff, decide_eq_false_iff_not, List.isEmpty_eq_false_iff]
    exact ⟨by omega, some⟩
  have keeps : s.coreKeeps = (s.link == 7) := by
    unfold State.coreKeeps
    rw [empty, List.any_nil, Bool.or_false]
  show execCoreMessageOffer m s = _
  unfold execCoreMessageOffer
  rw [good, if_neg Bool.false_ne_true]
  simp only [State.takeOffers_none empty, keeps, beq_iff_eq]

theorem State.offerAt_empty {s : State} {x : Nat} (e : XEnt) (empty : s.isl.wait = []) (deep : 0 < xDepth x) :
    s.offerAt x e = { s with isl := { s.isl with wait := [(x, e)] } } := by
  unfold State.offerAt State.hold
  rw [empty]
  exact if_pos deep

theorem State.offer_inside {s : State} (inside : s.guestEdge = false) (m : List Pip) : s.offer m = s.queueMsg m true := by
  unfold State.offer
  exact State.dropDbg_inside inside

theorem State.count_regs_congr {s t : State} (h : s.regs = t.regs) (c : Cnt) (n : Nat) : (s.count c n).regs = (t.count c n).regs := by
  have rd : s.rd = t.rd := funext fun off => by unfold State.rd; rw [h]
  have cnt : s.cnt c = t.cnt c := by unfold State.cnt State.getW; rw [rd]
  unfold State.count
  simp only [State.keepOver_regs, cnt]
  split
  · unfold State.putW State.wr
    rw [h]
  · unfold State.wr
    rw [h]

/-- The message is one of DBG. -/
def TxMsg.isDbg (t : TxMsg) : Bool := (msgHead t.m).chan == 4

/-- While DBG is locked a message of DBG that waits alone is dropped and counted (R238). -/
theorem State.dropDbg_one {s : State} (edge : s.guestEdge = true) (locked : s.getB FW_CTRL_DBG_UNLOCK = false) {x : TxMsg}
    (one : s.dlv.tx.filter TxMsg.isDbg = [x]) : s.dropDbg =
    { (s.noteBusy 4).count CNT_FW_QDROP with dlv := { (s.noteBusy 4).dlv with tx := s.dlv.tx.filter (fun t => !t.isDbg) } } := by
  have stops : (!s.guestEdge || (bitOf (s.getF FW_CHAN_ALLOW) 4 && s.getB FW_CTRL_DBG_UNLOCK)) = false := by rw [edge, locked, Bool.and_false]; rfl
  unfold State.dropDbg
  simp only [stops, Bool.false_eq_true, if_false]
  unfold TxMsg.isDbg at one ⊢
  rw [one, List.length_singleton, if_neg Nat.one_ne_zero]
  rfl

/-- One message of DBG that is offered is dropped and counted while DBG is locked, and the others stay (R238). -/
theorem State.offer_locked {s : State} (edge : s.guestEdge = true) (locked : s.getB FW_CTRL_DBG_UNLOCK = false) {m : List Pip}
    (dbg : (msgHead m).chan = 4) (alone : ∀ x ∈ s.dlv.tx, (msgHead x.m).chan ≠ 4) :
    (s.offer m).dlv = { s.dlv with quiet := listSet s.dlv.quiet 4 s.now } ∧ (s.offer m).regs = (s.count CNT_FW_QDROP).regs
      ∧ (s.offer m).pending = s.pending ∧ (s.offer m).place = s.place := by
  have others : s.dlv.tx.filter TxMsg.isDbg = [] := List.filter_eq_nil_iff.2 fun x hx => by simpa [TxMsg.isDbg] using alone x hx
  have kept : s.dlv.tx.filter (fun t => !t.isDbg) = s.dlv.tx := List.filter_eq_self.2 fun x hx => by simpa [TxMsg.isDbg] using alone x hx
  have isDbg : TxMsg.isDbg ⟨m, true⟩ = true := by simpa [TxMsg.isDbg] using dbg
  have tx : (s.queueMsg m true).dlv.tx = s.dlv.tx ++ [⟨m, true⟩] := rfl
  have one : (s.queueMsg m true).dlv.tx.filter TxMsg.isDbg = [⟨m, true⟩] := by
    rw [tx, List.filter_append, others, List.filter_cons_of_pos isDbg, List.filter_nil, List.nil_append]
  have rest : (s.queueMsg m true).dlv.tx.filter (fun t => !t.isDbg) = s.dlv.tx := by
    rw [tx, List.filter_append, kept, List.filter_cons_of_neg (by rw [isDbg]; decide), List.filter_nil, List.append_nil]
  have dropped := State.dropDbg_one (s := s.queueMsg m true) edge locked one
  unfold State.offer
  rw [dropped, rest]
  exact ⟨rfl, State.count_regs_congr (s := (s.queueMsg m true).noteBusy 4) (t := s) rfl CNT_FW_QDROP 1, State.count_pending _ _ _, State.count_place _ _ _⟩

/-! ### A message leaves its buffer -/

/-- The message stands in its buffer no longer. -/
def State.takesOut (s : State) (x : RxMsg) : State := { s with dlv := { s.dlv with rx := s.dlv.rx.filter (fun y => y.order != x.order) } }

/-- The message has left its buffer, and its pips are free (R96). -/
def State.unloads (s : State) (x : RxMsg) : State := (s.takesOut x).freeHeld x.chan x.m.length

theorem State.deliver_eq (s : State) (x : RxMsg) : s.deliver x =
    if ((s.unloads x).staleHere x.m).1 then ((s.unloads x).staleHere x.m).2.count CNT_VI_STALE else ((s.unloads x).staleHere x.m).2.handMessage x.m := rfl

theorem State.owe_eventOnly (s : State) (c n : Nat) : EventOnly s (s.owe c n) := by
  unfold State.owe; split
  · exact EventOnly.refl s
  · exact State.setF_eventOnly s _ _

theorem State.owe_rd (s : State) {c off : Nat} (n : Nat) (h : off ≠ DLV_RXBUF c) : (s.owe c n).rd off = s.rd off := by
  unfold State.owe; split
  · rfl
  · exact State.rd_setF_ne s _ _ h

theorem State.owe_held (s : State) (c n : Nat) : (s.owe c n).getF (DLV_RXBUF_HELD c) = s.getF (DLV_RXBUF_HELD c) := by
  unfold State.owe; split
  · rfl
  · exact State.getF_setF_beside s (f := DLV_RXBUF_OWED c) (g := DLV_RXBUF_HELD c) _ (of_decide_eq_true rfl) (.inr (of_decide_eq_true rfl))

theorem State.owe_owed (s : State) (c n : Nat) : (s.owe c n).getF (DLV_RXBUF_OWED c)
    = if s.link = 7 ∨ s.link = 8 then s.getF (DLV_RXBUF_OWED c) else (s.getF (DLV_RXBUF_OWED c) + n) % 2 ^ 16 := by
  unfold State.owe
  simp only [Bool.or_eq_true, decide_eq_true_eq, beq_iff_eq]
  split
  · rfl
  · exact State.getF_setF s (DLV_RXBUF_OWED c) (of_decide_eq_true rfl) _

/-- Of the state a message that leaves its buffer changes the buffer and its channel's word alone. -/
theorem State.unloads_eventOnly (s : State) (x : RxMsg) : EventOnly (s.takesOut x) (s.unloads x) :=
  (State.setF_eventOnly _ _ _).trans (State.owe_eventOnly _ _ _)

theorem State.unloads_rd (s : State) {x : RxMsg} {off : Nat} (h : off ≠ DLV_RXBUF x.chan) : (s.unloads x).rd off = s.rd off :=
  (State.owe_rd _ _ h).trans (State.rd_setF_ne _ _ _ h)

theorem State.unloads_held (s : State) (x : RxMsg) : (s.unloads x).getF (DLV_RXBUF_HELD x.chan) = s.getF (DLV_RXBUF_HELD x.chan) - x.m.length := by
  have small : s.getF (DLV_RXBUF_HELD x.chan) < 2 ^ 16 := Nat.mod_lt _ (Nat.two_pow_pos 16)
  refine (State.owe_held _ _ _).trans ((State.getF_setF _ (DLV_RXBUF_HELD x.chan) (of_decide_eq_true rfl) _).trans ?_)
  exact Nat.mod_eq_of_lt (lt_of_le_of_lt (Nat.sub_le _ _) small)

theorem State.unloads_owed (s : State) {x : RxMsg} (low : x.chan ≤ 5) : (s.unloads x).getF (DLV_RXBUF_OWED x.chan)
    = if s.link = 7 ∨ s.link = 8 then s.getF (DLV_RXBUF_OWED x.chan) else (s.getF (DLV_RXBUF_OWED x.chan) + x.m.length) % 2 ^ 16 := by
  refine (State.owe_owed _ _ _).trans ?_
  have owed : ∀ t : State, ∀ n, (t.setF (DLV_RXBUF_HELD x.chan) n).getF (DLV_RXBUF_OWED x.chan) = t.getF (DLV_RXBUF_OWED x.chan) := fun t n =>
    State.getF_setF_beside t (f := DLV_RXBUF_HELD x.chan) (g := DLV_RXBUF_OWED x.chan) n (of_decide_eq_true rfl) (.inl (of_decide_eq_true rfl))
  have link : ∀ t : State, ∀ n, (t.setF (DLV_RXBUF_HELD x.chan) n).link = t.link := fun t n =>
    State.getF_of_rd LINK_STATUS_STATE (State.rd_setF_ne t _ n (by simp only [LINK_STATUS_STATE, DLV_RXBUF_HELD]; omega))
  rw [owed, link]
  rfl

/-! ### Stale or not -/

/-- The words of the VI table decide what is stale. -/
theorem State.staleOw_of_rd {s t : State} (h : ∀ off, 0x3800 ≤ off → off < 0x4000 → t.rd off = s.rd off) (ow : Nat) : t.staleOw ow = s.staleOw ow := by
  have vi : owVi ow < 2 ^ 8 := Nat.mod_lt _ (by decide)
  have entry : t.rd (VI_ENT (owVi ow)) = s.rd (VI_ENT (owVi ow)) := h _ (by unfold VI_ENT; omega) (by unfold VI_ENT; omega)
  unfold State.staleOw State.viActive
  rw [State.getF_of_rd (VI_ENT_STATE (owVi ow)) entry, State.getF_of_rd (VI_ENT_GEN (owVi ow)) entry]

/-- The message is no stale one: it carries no OW, or one of this pod whose generation stands (R230, R231). -/
def State.fresh (s : State) (m : List Pip) : Prop := carriesOw m = false ∨ (owPod (msgOw m) = s.pod_ ∧ s.staleOw (msgOw m) = false)

theorem State.staleHere_fresh {s : State} {m : List Pip} (h : s.fresh m) : s.staleHere m = (false, s) := by
  unfold State.staleHere
  simp only
  split
  · rfl
  · rename_i carries
    obtain none | ⟨pod, good⟩ := h
    · exact absurd (by rw [none]; rfl) carries
    · rw [if_pos pod, good]

theorem State.staleHere_stale {s : State} {m : List Pip} (carries : carriesOw m = true) (pod : owPod (msgOw m) = s.pod_)
    (stale : s.staleOw (msgOw m) = true) : s.staleHere m = (true, s) := by
  unfold State.staleHere
  simp only
  rw [if_neg (by rw [carries]; decide), if_pos pod, stale]

/-! ### A message is delivered -/

/-- `v` is `s` as the message `x` may be handed over: the ticks since its acceptance have passed, and perhaps a wait has been counted (R76). -/
structure Ready (s : State) (x : RxMsg) (v : State) : Prop where
  only : TimeOnly s v
  rd : PlainKept PassingWords s v
  stale : v.rd CNT_VI_STALE.off = s.rd CNT_VI_STALE.off ∧ v.rd (CNT_VI_STALE.off + 4) = s.rd (CNT_VI_STALE.off + 4)
  now : v.now = max s.now (x.at_ + 2)

theorem Ready.of_advance {s : State} (running : s.clockRuns = true) (x : RxMsg) : Ready s x (s.advanceTo (x.at_ + 2)) where
  only := s.elapse_only _
  rd := s.rd_elapse _
  stale := ⟨s.rd_elapse_uncounted _ (by decide) (by decide), s.rd_elapse_uncounted _ (by decide) (by decide)⟩
  now := s.advanceTo_now running _

theorem Ready.countWait {s v : State} {x : RxMsg} (h : Ready s x v) (b : Bool) : Ready s x (v.countIf b CNT_FENCE_WAIT 1) where
  only := h.only.trans (v.countIf_only b _ _)
  rd off plain still := by
    obtain ⟨low, high⟩ := PlainWord.ne_counter plain (c := CNT_FENCE_WAIT) (by decide) (by decide)
    exact (v.rd_countIf b _ _ low high).trans (h.rd off plain still)
  stale := ⟨(v.rd_countIf b _ _ (by decide) (by decide)).trans h.stale.1, (v.rd_countIf b _ _ (by decide) (by decide)).trans h.stale.2⟩
  now := by
    have same : (v.countIf b CNT_FENCE_WAIT 1).now = v.now := by unfold State.countIf; split <;> simp
    exact same.trans h.now

/-- `u` is `s` as the message `x` has left its buffer: what is read there. -/
structure Unloaded (s : State) (x : RxMsg) (u : State) : Prop where
  dlv : u.dlv = { s.dlv with rx := s.dlv.rx.filter (fun y => y.order != x.order) }
  held : u.getF (DLV_RXBUF_HELD x.chan) = s.getF (DLV_RXBUF_HELD x.chan) - x.m.length
  owed : u.getF (DLV_RXBUF_OWED x.chan)
    = if s.link = 7 ∨ s.link = 8 then s.getF (DLV_RXBUF_OWED x.chan) else (s.getF (DLV_RXBUF_OWED x.chan) + x.m.length) % 2 ^ 16
  rd : PlainKept (DLV_RXBUF x.chan :: PassingWords) s u
  stale : u.cnt CNT_VI_STALE = s.cnt CNT_VI_STALE
  now : u.now = max s.now (x.at_ + 2)
  out : u.out = s.out
  isl : u.isl = s.isl
  mov : u.mov = s.mov
  place : u.place = s.place
  pending : u.pending = s.pending

theorem Ready.unloads {s v : State} {x : RxMsg} (r : Ready s x v) (low : x.chan ≤ 5) : Unloaded s x (v.unloads x) := by
  have only := v.unloads_eventOnly x
  have buffer : v.rd (DLV_RXBUF x.chan) = s.rd (DLV_RXBUF x.chan) := by
    obtain ⟨plain, outside⟩ := rxbuf_steady low
    exact r.rd _ plain (fun hm => outside (by simp [hm]))
  have link : v.link = s.link := State.getF_of_rd LINK_STATUS_STATE (r.rd _ (.inl (by decide)) (by decide))
  constructor
  case held => rw [v.unloads_held, State.getF_of_rd (DLV_RXBUF_HELD x.chan) buffer]
  case owed => rw [v.unloads_owed low, State.getF_of_rd (DLV_RXBUF_OWED x.chan) buffer, link]
  case rd =>
    intro off plain out
    rw [List.mem_cons, not_or] at out
    exact (v.unloads_rd out.1).trans (r.rd off plain out.2)
  case stale =>
    have ne : CNT_VI_STALE.off ≠ DLV_RXBUF x.chan ∧ CNT_VI_STALE.off + 4 ≠ DLV_RXBUF x.chan := by simp only [CNT_VI_STALE, DLV_RXBUF]; omega
    exact State.cnt_of_rd ((v.unloads_rd ne.1).trans r.stale.1) ((v.unloads_rd ne.2).trans r.stale.2)
  case dlv => rw [only]; unfold State.takesOut; rw [r.only]
  case now => rw [only]; exact r.now
  case isl => exact only.isl.trans (show v.isl = s.isl by rw [r.only])
  case out => rw [only]; show v.out = _; rw [r.only]
  case mov => rw [only]; show v.mov = _; rw [r.only]
  case place => rw [only]; show v.place = _; rw [r.only]
  case pending => rw [only]; show v.pending = _; rw [r.only]

section Delivery

variable {s u : State} {x : RxMsg} (h : Unloaded s x u) (low : x.chan ≤ 5)
include h low

/-- A word that no channel's buffer has. -/
theorem Unloaded.word {off : Nat} (apart : off < 0x10C0 ∨ 0x10D8 ≤ off) (plain : PlainWord off) (still : off ∉ PassingWords) : u.rd off = s.rd off :=
  h.rd off plain (by rw [List.mem_cons, not_or]; exact ⟨by unfold DLV_RXBUF; omega, still⟩)

theorem Unloaded.pod : u.pod_ = s.pod_ := State.getF_of_rd ID_POD_POD (h.word low (by decide) (.inl (by decide)) (by decide))

theorem Unloaded.staleOw (ow : Nat) : u.staleOw ow = s.staleOw ow := by
  refine State.staleOw_of_rd (fun off above below => h.word low (by omega) (.inl (by omega)) fun hm => ?_) ow
  simp only [PassingWords, List.mem_map, List.mem_range, LANE_PAT] at hm
  omega

theorem Unloaded.clocks (clocks : ClocksRun s) : ClocksRun u := by
  refine clocks.of_eq (by rw [h.isl]) fun c => ?_
  cases c with
  | mgmt => unfold State.clkSeen; rw [h.isl]
  | linkCore | arith | core => exact State.getB_of_rd _ (h.word low (by decide) (.inl (by decide)) (by decide))

theorem Unloaded.fresh (fresh : s.fresh x.m) : u.fresh x.m := by
  unfold State.fresh
  rw [h.pod low, h.staleOw low]
  exact fresh

/-- What is no answer and no packet goes to the core side (R76). -/
theorem Unloaded.handMessage (clocks : ClocksRun s) (other : s.ownAnswer x.m = false) (noPacket : (msgHead x.m).chan ≠ 5) :
    u.handMessage x.m = { u with out := .core x.m :: s.out } := by
  have noAnswer : u.ownAnswer x.m = false := by
    unfold State.ownAnswer at other ⊢
    rw [h.pod low, h.mov, h.place]
    exact other
  unfold State.handMessage
  rw [noAnswer, if_neg Bool.false_ne_true, if_neg noPacket, (h.clocks low clocks).emit, h.out]

end Delivery

/-- The message has been handed to the core side. -/
theorem Unloaded.handed {s u : State} {x : RxMsg} (h : Unloaded s x u) : ∃ t, done s { u with out := .core x.m :: s.out } = .next t
      ∧ t.out = .core x.m :: s.out ∧ t.now = max s.now (x.at_ + 2) ∧ t.dlv = { s.dlv with rx := s.dlv.rx.filter (fun y => y.order != x.order) }
      ∧ t.getF (DLV_RXBUF_HELD x.chan) = s.getF (DLV_RXBUF_HELD x.chan) - x.m.length
      ∧ t.getF (DLV_RXBUF_OWED x.chan) = (if s.link = 7 ∨ s.link = 8 then s.getF (DLV_RXBUF_OWED x.chan)
        else (s.getF (DLV_RXBUF_OWED x.chan) + x.m.length) % 2 ^ 16) ∧ PlainKept (DLV_RXBUF x.chan :: PassingWords) s t :=
  ⟨_, done_eq_next h.pending h.place, rfl, h.now, h.dlv, h.held, h.owed, h.rd⟩

/-- A message that is not stale goes to the core side, and its pips are owed (R76, R96, R231). -/
theorem Ready.delivers {s v : State} {x : RxMsg} (r : Ready s x v) (low : x.chan ≤ 5) (clocks : ClocksRun s) (fresh : s.fresh x.m)
    (other : s.ownAnswer x.m = false) (noPacket : (msgHead x.m).chan ≠ 5) : v.deliver x = { v.unloads x with out := .core x.m :: s.out } := by
  have h := r.unloads low
  rw [State.deliver_eq, State.staleHere_fresh (h.fresh low fresh), if_neg Bool.false_ne_true, h.handMessage low clocks other noPacket]

/-- A stale message is discarded as consumed, and counted (R236). -/
theorem Ready.discards {s v : State} {x : RxMsg} (r : Ready s x v) (low : x.chan ≤ 5) (carries : carriesOw x.m = true)
    (pod : owPod (msgOw x.m) = s.pod_) (stale : s.staleOw (msgOw x.m) = true) : ∃ t, done s (v.deliver x) = .next t ∧ t.out = s.out
      ∧ counted CNT_VI_STALE 1 s t ∧ t.dlv = { s.dlv with rx := s.dlv.rx.filter (fun y => y.order != x.order) }
      ∧ t.getF (DLV_RXBUF_OWED x.chan) = (if s.link = 7 ∨ s.link = 8 then s.getF (DLV_RXBUF_OWED x.chan)
        else (s.getF (DLV_RXBUF_OWED x.chan) + x.m.length) % 2 ^ 16) ∧ PlainKept (DLV_RXBUF x.chan :: PassingWords) s t := by
  have h := r.unloads low
  have run : v.deliver x = (v.unloads x).count CNT_VI_STALE := by
    rw [State.deliver_eq, State.staleHere_stale carries (pod.trans (h.pod low).symm) ((h.staleOw low _).trans stale), if_pos rfl]
  have word : ∀ off, PlainWord off → ((v.unloads x).count CNT_VI_STALE).rd off = (v.unloads x).rd off := fun off plain => by
    obtain ⟨low, high⟩ := PlainWord.ne_counter plain (c := CNT_VI_STALE) (by decide) (by decide)
    exact State.rd_count_ne _ _ _ low high
  rw [run]
  refine ⟨_, done_eq_next ((State.count_pending _ _ _).trans h.pending) ((State.count_place _ _ _).trans h.place), (State.count_out _ _ _).trans h.out,
    counted_wide rfl h.stale rfl, (State.count_dlv _ _ _).trans h.dlv, ?_, fun off plain out => (word off plain).trans (h.rd off plain out)⟩
  rw [State.getF_of_rd (DLV_RXBUF_OWED x.chan) (word _ (rxbuf_steady low).1), h.owed]

/-! ### The oldest message of a channel -/

theorem State.deliverFirst_message {s : State} {c : Nat} {x : RxMsg} (first : s.rxFirst c = some x) (noFence : isFence x.m = false)
    (way : s.canDeliver x.m = true) : s.deliverFirst c = (s.advanceTo (x.at_ + 2)).deliver x := by
  unfold State.deliverFirst
  rw [first]
  simp only [way, noFence, Bool.not_true, Bool.false_eq_true, if_false]

/-- A FENCE is delivered as any message once it is free, and waits until then (R77). -/
theorem State.deliverFirst_fence {s : State} {c : Nat} {x : RxMsg} (first : s.rxFirst c = some x) (fence : isFence x.m = true)
    (way : s.canDeliver x.m = true) : s.deliverFirst c = if s.fenceFree x then
      ((s.advanceTo (x.at_ + 2)).countIf (decide (x.at_ + 8 < (s.advanceTo (x.at_ + 2)).now)) CNT_FENCE_WAIT 1).deliver x else s := by
  unfold State.deliverFirst
  rw [first]
  simp only [way, fence, Bool.not_true, Bool.false_eq_true, if_false, if_true]
  cases s.fenceFree x <;> rfl

theorem State.canDeliver_open {s : State} {m : List Pip} (clocks : ClocksRun s) (noPacket : (msgHead m).chan ≠ 5) : s.canDeliver m = true := by
  unfold State.canDeliver
  rw [if_neg noPacket, clocks.xings 2 (by decide), Bool.or_true]

theorem carriesOw_chan {m : List Pip} (h : carriesOw m = true) : (msgHead m).chan ≠ 5 := by
  intro five
  unfold carriesOw at h
  simp [five] at h

/-- A FENCE is a request: it names its source, is no answer and no packet (R68). -/
theorem isFence_request {s : State} {m : List Pip} (h : isFence m = true) : carriesOw m = true ∧ s.ownAnswer m = false ∧ (msgHead m).chan ≠ 5 := by
  unfold isFence at h
  simp only [Bool.and_eq_true, beq_iff_eq] at h
  refine ⟨?_, ?_, by omega⟩
  · unfold carriesOw
    simp [h.1]
  · unfold State.ownAnswer
    simp [h.1]

/-! ### Stream data at its due tick -/

/-- One more flit has been released. -/
def State.releasedOne (s : State) : State := { s with trn := { s.trn with released := s.trn.released + 1 } }

/-- A relay's port is good by what is known of it (R183). -/
theorem State.portOk_relay {s : State} {id : Nat} (relay : s.portKind id = 3) (rx : Bool) : s.portOk id rx =
    (dieOf (s.descPort id % 128) == dieOf s.place && s.descPort id % 128 != s.place && !s.trn.relayBad.contains id) := by
  unfold State.portOk
  simp only [relay]
  rfl

/-- Data of a stream that leads to a relay goes there (R153, R181). -/
theorem State.release_relay {s : State} {n id : Nat} (data : List Byte) (late : Bool) (inside : s.guestEdge = false) (young : s.oldPosition id n = false)
    (relay : s.portKind id = 3) (good : s.portOk id true = true) (clocks : ClocksRun s) : s.release n id data late =
    { s.releasedOne with out := .relayStream (s.descPort id % 128) (bitsOf (s.descPort id) 16 10) data :: .stream id late data :: s.out } := by
  have clocksV : ClocksRun s.releasedOne := clocks.of_eq rfl fun c => rfl
  have insideV : s.releasedOne.guestEdge = false := inside
  have youngV : s.releasedOne.oldPosition id n = false := young
  have relayV : s.releasedOne.portKind id = 3 := relay
  have goodV : s.releasedOne.portOk id true = true := by
    rw [State.portOk_relay relayV]
    exact (State.portOk_relay relay true).symm.trans good
  have relayW : (s.releasedOne.emit (.stream id late data)).portKind id = 3 := by rw [clocksV.emit]; exact relay
  have clocksW : ClocksRun (s.releasedOne.emit (.stream id late data)) := by rw [clocksV.emit]; exact clocks.of_eq rfl fun c => rfl
  have released : ({ s with trn := { s.trn with released := s.trn.released + 1 } } : State) = s.releasedOne := rfl
  unfold State.release
  rw [released]
  simp only [insideV, youngV, goodV, relayW, Bool.false_and, Bool.not_true, Bool.false_eq_true, if_false, Nat.reduceEqDiff]
  rw [clocksW.emit, clocksV.emit]
  rfl

theorem State.nextDue_held {s : State} {e : SbEntry} {r : List SbEntry} {d : Nat} (held : s.trn.sbuf = e :: r) (due : s.dueOf e.round e.off = some d) :
    s.nextDue = some (d, some e, e.round, ⟨⟨0, e.stream, 0, 0⟩, e.off, 0⟩) := by
  unfold State.nextDue
  rw [held]
  simp only [due, Option.map_some]

/-- The held flits are those of a list. -/
def State.holdsFlits (s : State) (r : List SbEntry) : State := { s with trn := { s.trn with sbuf := r } }

/-- The flit held for the due tick is released (R153). -/
theorem State.dueNow_held {s : State} {e : SbEntry} {r : List SbEntry} {d : Nat} (held : s.trn.sbuf = e :: r) (due : s.dueOf e.round e.off = some d) :
    s.dueNow = (s.holdsFlits r).release e.round e.stream e.data false := by
  unfold State.dueNow
  rw [State.nextDue_held held due]
  simp only [held, List.drop_succ_cons, List.drop_zero]
  rfl

/-- The missing flit of a position is late: it is counted, and the position judged (R153). -/
def State.late (s : State) : State := { s.count CNT_LATE with trn := { s.trn with judged := s.trn.judged + 1 } }

theorem State.dueNow_late {s : State} {d n : Nat} {p : Pos} (next : s.nextDue = some (d, none, n, p)) (notVoid : s.trn.void = false) :
    s.dueNow = (let w := s.late.traceLate p.run.stream (s.late.tick - d) d
      if w.trn.lateIn == some n || w.oldPosition p.run.stream n then w
      else ({ w with trn := { w.trn with lateIn := some n } }).raiseD 0x0305 p.run.stream false) := by
  have isVoid : s.isVoid n = false := by unfold State.isVoid; rw [notVoid, Bool.false_and]
  unfold State.dueNow
  rw [next]
  simp only [isVoid, Bool.false_eq_true, if_false]
  rfl

theorem State.rd_raiseD_low (s : State) (c d : Nat) (b : Bool) {off : Nat} (h : off < 0x5200) : (s.raiseD c d b).rd off = s.rd off := by
  unfold State.raiseD
  rw [State.rd_evQueue_low _ _ h]
  unfold State.evTrace
  split
  · rw [State.rd_trace_low _ _ _ h, State.rd_evRegs_low _ _ _ _ _ h]
  · exact State.rd_evRegs_low _ _ _ _ _ h

/-- `t` is `s` but for what a trace record or an event changes. -/
structure Reported (s t : State) : Prop where
  rd : ∀ {off}, off < 0x5200 → t.rd off = s.rd off
  trn : t.trn = s.trn
  die : t.die = s.die
  out : t.out = s.out
  place : t.place = s.place
  pending : t.pending = s.pending

theorem State.traceLate_reported (s : State) (id n due : Nat) : Reported s (s.traceLate id n due) := by
  unfold State.traceLate
  split
  · exact ⟨fun low => State.rd_trace_low _ _ _ low, State.trace_trn _ _ _, State.trace_die _ _ _, State.trace_out _ _ _, State.trace_place _ _ _,
      State.trace_pending _ _ _⟩
  · exact ⟨fun _ => rfl, rfl, rfl, rfl, rfl, rfl⟩

theorem State.raiseD_reported (s : State) (c d : Nat) (b : Bool) : Reported s (s.raiseD c d b) :=
  ⟨fun low => State.rd_raiseD_low s c d b low, State.raiseD_trn _ _ _ _, State.raiseD_die _ _ _ _, State.raiseD_out _ _ _ _, State.raiseD_place _ _ _ _,
    State.raiseD_pending _ _ _ _⟩

/-- A late flit, whatever is reported of it: counted once, its position judged, and nothing leaves (R153). -/
theorem State.dueNow_counts {s : State} {d n : Nat} {p : Pos} (next : s.nextDue = some (d, none, n, p)) (notVoid : s.trn.void = false) :
    s.dueNow.cnt CNT_LATE = (s.count CNT_LATE).cnt CNT_LATE ∧ s.dueNow.trn.judged = s.trn.judged + 1 ∧ s.dueNow.die = s.die ∧ s.dueNow.out = s.out
      ∧ s.dueNow.place = s.place ∧ s.dueNow.pending = s.pending := by
  rw [State.dueNow_late next notVoid]
  have traced := s.late.traceLate_reported p.run.stream (s.late.tick - d) d
  generalize s.late.traceLate p.run.stream (s.late.tick - d) d = w at traced
  have count : w.cnt CNT_LATE = (s.count CNT_LATE).cnt CNT_LATE := State.cnt_of_rd (traced.rd (by decide)) (traced.rd (by decide))
  have judged : w.trn.judged = s.trn.judged + 1 := by rw [traced.trn]; rfl
  have die : w.die = s.die := traced.die.trans (State.count_die s CNT_LATE 1)
  have out : w.out = s.out := traced.out.trans (State.count_out s CNT_LATE 1)
  have place : w.place = s.place := traced.place.trans (State.count_place s CNT_LATE 1)
  have pending : w.pending = s.pending := traced.pending.trans (State.count_pending s CNT_LATE 1)
  simp only
  split
  · exact ⟨count, judged, die, out, place, pending⟩
  · have raised := State.raiseD_reported { w with trn := { w.trn with lateIn := some n } } 0x0305 p.run.stream false
    exact ⟨(State.cnt_of_rd (raised.rd (by decide)) (raised.rd (by decide))).trans count, (congrArg Trn.judged raised.trn).trans judged,
      raised.die.trans die, raised.out.trans out, raised.place.trans place, raised.pending.trans pending⟩

/-! ### The due tick -/

theorem exec_streamDueTick {s : State} {d n : Nat} {e : Option SbEntry} {p : Pos} (next : s.nextDue = some (d, e, n, p)) (notVoid : s.trn.void = false)
    (running : s.clockRuns = true) (ahead : s.tick ≤ d) (fits : d < 2 ^ 64) : exec .streamDueTick s = done s (s.advanceDie d).dueNow := by
  have tick := State.advanceDie_tick running ahead fits
  have notVoid' : (s.advanceDie d).trn.void = false := by unfold State.advanceDie; rw [State.elapse_trn, notVoid]
  show execStreamDueTick s = _
  unfold execStreamDueTick
  rw [next]
  simp only
  rw [tick, if_neg (Nat.lt_irrefl _), if_neg (by rw [notVoid']; decide)]

theorem State.descPort_of_descs {s t : State} (descs : t.trn.descs = s.trn.descs) (id : Nat) : t.descPort id = s.descPort id ∧ t.portKind id = s.portKind id := by
  unfold State.portKind State.descPort State.desc
  rw [descs]
  exact ⟨rfl, rfl⟩

theorem State.oldPosition_of_descs {s t : State} (descs : t.trn.descs = s.trn.descs) (zeroTo : t.trn.zeroTo = s.trn.zeroTo) (id n : Nat) :
    t.oldPosition id n = s.oldPosition id n := by
  unfold State.oldPosition State.descVi State.desc
  rw [descs, zeroTo]

/-- After the ticks to its due tick a held flit for a relay goes there (R153, R181). -/
theorem streamDueTick_relays {s : State} (clocks : ClocksRun s) (notVoid : s.trn.void = false) {e : SbEntry} {r : List SbEntry} {d : Nat}
    (held : s.trn.sbuf = e :: r) (due : s.dueOf e.round e.off = some d) (ahead : s.tick ≤ d) (fits : d < 2 ^ 64) (inside : s.guestEdge = false)
    (young : s.oldPosition e.stream e.round = false) (relay : s.portKind e.stream = 3) (good : s.portOk e.stream true = true) :
    ∃ t, exec .streamDueTick s = .next t ∧ t.tick = d ∧ t.trn = { s.trn with sbuf := r, released := s.trn.released + 1 }
      ∧ t.out = .relayStream (s.descPort e.stream % 128) (bitsOf (s.descPort e.stream) 16 10) e.data :: .stream e.stream false e.data :: s.out := by
  have tick := State.advanceDie_tick clocks.clockRuns ahead fits
  rw [exec_streamDueTick (State.nextDue_held held due) notVoid clocks.clockRuns ahead fits]
  unfold State.advanceDie at tick ⊢
  generalize hu : s.elapse (d - s.tick) = u at tick ⊢
  have trn : u.trn = s.trn := by rw [← hu, State.elapse_trn]
  have place : u.place = s.place := by rw [← hu, State.elapse_place]
  have dueU : u.dueOf e.round e.off = some d := by rw [← hu, State.elapse_dueOf, due]
  have clocksU : ClocksRun u := hu ▸ clocks.elapse _
  have descs : (u.holdsFlits r).trn.descs = s.trn.descs := show u.trn.descs = _ by rw [trn]
  have zeroTo : (u.holdsFlits r).trn.zeroTo = s.trn.zeroTo := show u.trn.zeroTo = _ by rw [trn]
  have relayBad : (u.holdsFlits r).trn.relayBad = s.trn.relayBad := show u.trn.relayBad = _ by rw [trn]
  obtain ⟨port, kind⟩ := State.descPort_of_descs descs e.stream
  have youngV := (State.oldPosition_of_descs descs zeroTo e.stream e.round).trans young
  have relayV := kind.trans relay
  have goodV : (u.holdsFlits r).portOk e.stream true = true := by
    rw [State.portOk_relay relay] at good
    rw [State.portOk_relay relayV, port, relayBad, show (u.holdsFlits r).place = s.place from place]
    exact good
  have insideV : (u.holdsFlits r).guestEdge = false := by
    unfold State.guestEdge at inside ⊢
    rw [show (u.holdsFlits r).place = s.place from place]
    exact inside
  have clocksV : ClocksRun (u.holdsFlits r) := clocksU.of_eq rfl fun c => rfl
  rw [State.dueNow_held (trn ▸ held) dueU, State.release_relay e.data false insideV youngV relayV goodV clocksV, port]
  refine ⟨_, done_eq_next ?_ place, tick, ?_, ?_⟩
  · show u.pending = s.pending
    rw [← hu, State.elapse_pending]
  · show { u.trn with sbuf := r, released := u.trn.released + 1 } = _
    rw [trn]
  · show _ :: _ :: u.out = _
    rw [← hu, State.elapse_out]

/-- After the ticks to its due tick a missing flit is counted late (R153). -/
theorem streamDueTick_late {s : State} (clocks : ClocksRun s) (notVoid : s.trn.void = false) {d n : Nat} {p : Pos} (next : s.nextDue = some (d, none, n, p))
    (ahead : s.tick ≤ d) (fits : d < 2 ^ 64) : ∃ t, exec .streamDueTick s = .next t ∧ t.tick = d ∧ counted CNT_LATE 1 s t
      ∧ t.trn.judged = s.trn.judged + 1 ∧ t.out = s.out := by
  have tick := State.advanceDie_tick clocks.clockRuns ahead fits
  rw [exec_streamDueTick next notVoid clocks.clockRuns ahead fits]
  unfold State.advanceDie at tick ⊢
  have before : (s.elapse (d - s.tick)).cnt CNT_LATE = s.cnt CNT_LATE :=
    State.cnt_of_rd (s.rd_elapse_uncounted _ (by decide) (by decide)) (s.rd_elapse_uncounted _ (by decide) (by decide))
  obtain ⟨count, judged, die, out, place, pending⟩ := State.dueNow_counts ((s.elapse_nextDue (d - s.tick)).trans next) (by rw [State.elapse_trn, notVoid])
  rw [State.elapse_trn] at judged
  exact ⟨_, done_eq_next (pending.trans (State.elapse_pending s _)) (place.trans (State.elapse_place s _)), (congrArg BitVec.toNat die).trans tick,
    counted_wide rfl before count, judged, out.trans (State.elapse_out s _)⟩

end Sys2Proof.Machine

namespace Sys2Proof

open Machine

/-! ### Offers -/

/-- While DBG is locked a message of DBG changes the time at which the channel was busy last, and its counter (R238). -/
theorem coreMessageOffer_dropped {s : State} (clocks : ClocksRun s) {m : List Pip} (some : m ≠ []) (chan : (msgHead m).chan ≤ 5) (empty : s.isl.wait = [])
    (notHold : s.link ≠ 7) (edge : s.guestEdge = true) (dbg : (msgHead m).chan = 4) (locked : s.getB FW_CTRL_DBG_UNLOCK = false)
    (alone : ∀ x ∈ s.dlv.tx, (msgHead x.m).chan ≠ 4) : ∃ t, exec (.coreMessageOffer m) s = .next t
      ∧ t.dlv = { s.dlv with quiet := listSet s.dlv.quiet 4 s.now } ∧ counted CNT_FW_QDROP 1 s t ∧ WordsKept (cntWords CNT_FW_QDROP) s t := by
  obtain ⟨dlv, regs, pending, place⟩ := State.offer_locked edge locked dbg alone
  have word := State.rd_of_regs regs
  rw [exec_coreMessageOffer some chan empty, if_neg notHold, if_pos (clocks.xings 2 (by decide))]
  refine ⟨_, done_eq_next pending place, dlv, counted_wide rfl rfl (State.cnt_of_rd (word _) (word _)), fun off out => ?_⟩
  have apart : off ≠ CNT_FW_QDROP.off ∧ off ≠ CNT_FW_QDROP.off + 4 := by
    refine ⟨fun e => out ?_, fun e => out ?_⟩ <;> rw [e] <;> decide
  exact (word off).trans (State.rd_count_ne s CNT_FW_QDROP 1 apart.1 apart.2)

/-! ### Deliveries -/

section First

variable {s : State} (clocks : ClocksRun s) {c : Fin 6} {x : RxMsg} (first : s.rxFirst c = some x)
include clocks first

theorem messageDelivery_hands (noFence : isFence x.m = false) (fresh : s.fresh x.m) (other : s.ownAnswer x.m = false) (noPacket : (msgHead x.m).chan ≠ 5) :
    ∃ t, exec (.messageDelivery c) s = .next t ∧ t.out = .core x.m :: s.out ∧ t.now = max s.now (x.at_ + 2)
      ∧ t.dlv = { s.dlv with rx := s.dlv.rx.filter (fun y => y.order != x.order) }
      ∧ t.getF (DLV_RXBUF_HELD c) = s.getF (DLV_RXBUF_HELD c) - x.m.length
      ∧ t.getF (DLV_RXBUF_OWED c) = (if s.link = 7 ∨ s.link = 8 then s.getF (DLV_RXBUF_OWED c) else (s.getF (DLV_RXBUF_OWED c) + x.m.length) % 2 ^ 16)
      ∧ PlainKept (DLV_RXBUF c :: PassingWords) s t := by
  have chan : x.chan = c := by simpa using List.find?_some first
  have low : x.chan ≤ 5 := by omega
  have ready := Ready.of_advance clocks.clockRuns x
  rw [← chan]
  show ∃ t, done s (s.deliverFirst c) = .next t ∧ _
  rw [State.deliverFirst_message first noFence (State.canDeliver_open clocks noPacket), ready.delivers low clocks fresh other noPacket]
  exact (ready.unloads low).handed

theorem messageDelivery_discards (noFence : isFence x.m = false) (carries : carriesOw x.m = true) (pod : owPod (msgOw x.m) = s.pod_)
    (stale : s.staleOw (msgOw x.m) = true) : ∃ t, exec (.messageDelivery c) s = .next t ∧ t.out = s.out ∧ counted CNT_VI_STALE 1 s t
      ∧ t.dlv = { s.dlv with rx := s.dlv.rx.filter (fun y => y.order != x.order) }
      ∧ t.getF (DLV_RXBUF_OWED c) = (if s.link = 7 ∨ s.link = 8 then s.getF (DLV_RXBUF_OWED c) else (s.getF (DLV_RXBUF_OWED c) + x.m.length) % 2 ^ 16)
      ∧ PlainKept (DLV_RXBUF c :: PassingWords) s t := by
  have chan : x.chan = c := by simpa using List.find?_some first
  have low : x.chan ≤ 5 := by omega
  rw [← chan]
  show ∃ t, done s (s.deliverFirst c) = .next t ∧ _
  rw [State.deliverFirst_message first noFence (State.canDeliver_open clocks (carriesOw_chan carries))]
  exact (Ready.of_advance clocks.clockRuns x).discards low carries pod stale

end First

section Fence

variable {s : State} (clocks : ClocksRun s) {x : RxMsg} (first : s.rxFirst 0 = some x) (fence : isFence x.m = true)
include clocks first fence

theorem exec_fenceDelivery : exec .fenceDelivery s = done s (if s.fenceFree x then
    ((s.advanceTo (x.at_ + 2)).countIf (decide (x.at_ + 8 < (s.advanceTo (x.at_ + 2)).now)) CNT_FENCE_WAIT 1).deliver x else s) := by
  obtain ⟨-, -, noPacket⟩ := isFence_request (s := s) fence
  show execFenceDelivery s = _
  unfold execFenceDelivery
  rw [first]
  simp only [fence, if_true]
  rw [State.deliverFirst_fence first fence (State.canDeliver_open clocks noPacket)]

theorem fenceDelivery_hands (free : s.fenceFree x = true) (pod : owPod (msgOw x.m) = s.pod_) (good : s.staleOw (msgOw x.m) = false) :
    ∃ t, exec .fenceDelivery s = .next t ∧ t.out = .core x.m :: s.out ∧ t.now = max s.now (x.at_ + 2)
      ∧ t.dlv = { s.dlv with rx := s.dlv.rx.filter (fun y => y.order != x.order) } ∧ PlainKept (DLV_RXBUF 0 :: PassingWords) s t := by
  have chan : x.chan = 0 := by simpa using List.find?_some first
  have low : x.chan ≤ 5 := by omega
  obtain ⟨-, other, noPacket⟩ := isFence_request (s := s) fence
  have ready := (Ready.of_advance clocks.clockRuns x).countWait (decide (x.at_ + 8 < (s.advanceTo (x.at_ + 2)).now))
  rw [exec_fenceDelivery clocks first fence, if_pos free, ready.delivers low clocks (.inr ⟨pod, good⟩) other noPacket]
  obtain ⟨t, next, out, now, dlv, -, -, kept⟩ := (ready.unloads low).handed
  exact ⟨t, next, out, now, dlv, chan ▸ kept⟩

theorem fenceDelivery_waits (waits : s.fenceFree x = false) : exec .fenceDelivery s = .next s := by
  rw [exec_fenceDelivery clocks first fence, if_neg (by rw [waits]; decide)]
  rfl

end Fence

/-! ### The obligation -/

/-- Settles O42: offers by the state of the link and of crossing 2; deliveries after the ticks since the acceptance, whose words are read in
`Unloaded`; the due tick by what falls due. -/
theorem messagesAndStreamsAreDelivered : Obligations.MessagesAndStreamsAreDelivered := by
  unfold Obligations.MessagesAndStreamsAreDelivered
  refine ⟨fun s m some chan empty notHold closed => ?_, fun s clocks => ⟨fun m some chan empty => ⟨fun hold => ?_, fun notHold inside => ?_,
      fun notHold edge dbg locked alone => coreMessageOffer_dropped clocks some chan empty notHold edge dbg locked alone⟩,
    fun c x first noFence => ⟨messageDelivery_hands clocks first noFence, messageDelivery_discards clocks first noFence⟩,
    fun x first fence => ⟨fenceDelivery_hands clocks first fence, fenceDelivery_waits clocks first fence⟩,
    fun notVoid => ⟨fun e r d held due ahead fits inside young relay good => streamDueTick_relays clocks notVoid held due ahead fits inside young relay good,
      fun d n p _ next ahead fits => streamDueTick_late clocks notVoid next ahead fits⟩⟩⟩
  · rw [exec_coreMessageOffer some chan empty, if_neg notHold, if_neg (by rw [closed]; decide), State.offerAt_empty _ empty (by decide)]
    rfl
  · rw [exec_coreMessageOffer some chan empty, if_pos hold]
    unfold State.hold
    rw [empty]
    rfl
  · rw [exec_coreMessageOffer some chan empty, if_neg notHold, if_pos (clocks.xings 2 (by decide)), State.offer_inside inside]
    rfl

end Sys2Proof
end

section
/-! SUPPORT. A flit as it leaves: what stays of the state (R38, R53), its header as stamped (R82, R86), and an idle flit with its credit return (R57, R96). -/

namespace Sys2Proof.Machine

/-! ### A flit leaves -/

/-- A flit is on the wire, and the transmitter's place in its group has moved on (R38). -/
def State.puts (s : State) (o : Out) : State := (s.emit o).txGroup

theorem State.txGroup_only (s : State) : s.txGroup = { s with lnk := s.txGroup.lnk } := by
  unfold State.txGroup
  simp only
  split <;> rfl

theorem State.puts_only (s : State) {o : Out} (inner : o.toCore = false) : s.puts o = { s with out := o :: s.out, lnk := (s.puts o).lnk } := by
  unfold State.puts
  rw [State.txGroup_only, State.emit_inner s o inner]

/-- A flit sent is counted, and `n` of it toward the next TALLY (R104); a NAK sent is due no more (R82). -/
def State.leaves (n : Nat) (s : State) : State :=
  { s with dlv := { s.dlv with nakDue := s.dlv.nakDue && !s.nakNow, flits := s.dlv.flits + 1, tally := s.dlv.tally + n, sinceExch := s.dlv.sinceExch + n }
           tim := { s.tim with beatDue := false } }

/-- `w` is `s` after a flit: what left, what its header says of a NAK, and what stays. -/
structure Sent (s : State) (h : Hdr) (slots : List Pip) (w : State) : Prop where
  out : w.out = sentFlit s (s.stampHdr h) slots :: s.out
  regs : w.regs = s.regs
  nakDue : w.dlv.nakDue = (s.dlv.nakDue && !s.nakNow)
  bank : w.dlv.bank = s.dlv.bank
  tx : w.dlv.tx = s.dlv.tx
  cur : w.dlv.cur = s.dlv.cur
  now : w.now = s.now
  place : w.place = s.place
  pending : w.pending = s.pending

theorem State.sendFlit_sent (s : State) (h : Hdr) (slots : List Pip) : Sent s h slots (s.sendFlit h slots) := by
  let t := s.puts (sentFlit s (s.stampHdr h) slots)
  have only : t = { s with out := sentFlit s (s.stampHdr h) slots :: s.out, lnk := t.lnk } := s.puts_only rfl
  have sends : s.sendFlit h slots = State.leaves (if s.getB DLV_STATUS_INITDONE then 1 else 0) t := rfl
  have nak : t.nakNow = s.nakNow := by rw [only]; rfl
  rw [sends]
  exact {
    out := (congrArg State.out only :)
    regs := (congrArg State.regs only :)
    nakDue := by
      show (t.dlv.nakDue && !t.nakNow) = _
      rw [nak, congrArg State.dlv only]
    bank := (congrArg (·.dlv.bank) only :)
    tx := (congrArg (·.dlv.tx) only :)
    cur := (congrArg (·.dlv.cur) only :)
    now := (congrArg State.now only :)
    place := (congrArg State.place only :)
    pending := (congrArg State.pending only :) }

theorem Sent.rd {s : State} {h : Hdr} {slots : List Pip} {w : State} (sent : Sent s h slots w) (off : Nat) : w.rd off = s.rd off := by
  unfold State.rd
  rw [sent.regs]

theorem Sent.getF {s : State} {h : Hdr} {slots : List Pip} {w : State} (sent : Sent s h slots w) (f : Fld) : w.getF f = s.getF f :=
  State.getF_of_rd f (sent.rd _)

/-! ### What a flit's header and its place on the wire rest on -/

/-- The `ACK` of a flit that leaves `dt` ticks from now (R82, R90). -/
def State.ackAfter (s : State) (dt : Nat) : Nat := ({ s with now := s.now + dt } : State).ackNow

/-- The `NAK` of a flit that leaves `dt` ticks from now (R81, R82). -/
def State.nakAfter (s : State) (dt : Nat) : Bool := s.dlv.nakDue && decide (s.dlv.nakAt < s.now + dt)

/-- `v` stands as `s` after `dt` ticks in all that a flit's header and its place on the wire rest on; of the plain words those of `ws` may differ. -/
structure Poised (dt : Nat) (ws : List Nat) (s v : State) : Prop where
  rd : ∀ off, PlainWord off → off ∉ ws → off ∉ PassingWords → v.rd off = s.rd off
  above : ∀ off ∈ ws, DLV_SEQ ≤ off
  rxseq : v.getF DLV_SEQ_RXSEQ = s.getF DLV_SEQ_RXSEQ
  acc : v.dlv.acc = s.dlv.acc
  nakDue : v.dlv.nakDue = s.dlv.nakDue
  nakAt : v.dlv.nakAt = s.dlv.nakAt
  lnk : v.lnk = s.lnk
  beat : v.tim.beatDue = false
  now : v.now = s.now + dt
  out : v.out = s.out
  place : v.place = s.place
  pending : v.pending = s.pending

section Poised

variable {dt : Nat} {ws : List Nat} {s v : State} (p : Poised dt ws s v)
include p

theorem Poised.mapList : v.mapList = s.mapList := by
  refine State.mapList_of_rd fun off hm => ?_
  have low : off < 0x800 := by
    simp only [List.mem_cons, List.not_mem_nil, or_false] at hm
    omega
  refine p.rd off (.inl (by omega)) (fun hw => ?_) (fun hp => ?_)
  · have : 0x1008 ≤ off := p.above off hw
    omega
  · simp only [PassingWords, List.mem_map, List.mem_range, LANE_PAT] at hp
    omega

theorem Poised.nakNow : v.nakNow = s.nakAfter dt := by
  unfold State.nakNow State.nakAfter
  rw [p.nakDue, p.nakAt, p.now]

theorem Poised.stampHdr (h : Hdr) : v.stampHdr h = { h with ack := s.ackAfter dt, nak := s.nakAfter dt, beat := false } := by
  have ack : v.ackNow = s.ackAfter dt := by
    unfold State.ackAfter State.ackNow
    rw [p.acc, p.now, p.rxseq]
    rfl
  have beat : v.beatNow = false := by
    unfold State.beatNow
    simp only [p.beat, Bool.false_and]
  unfold State.stampHdr
  rw [ack, p.nakNow, beat]

/-- The flit that leaves, as the sender's map and scrambler of `s` make it. -/
theorem Poised.sentFlit (h : Hdr) (slots : List Pip) : sentFlit v h slots = sentFlit s h slots := by
  unfold Sys2Proof.sentFlit
  rw [p.mapList, p.lnk]

theorem Poised.sends (h : Hdr) (slots : List Pip) :
    (v.sendFlit h slots).out = Sys2Proof.sentFlit s { h with ack := s.ackAfter dt, nak := s.nakAfter dt, beat := false } slots :: s.out
      ∧ (v.sendFlit h slots).dlv.nakDue = (s.dlv.nakDue && !s.nakAfter dt) ∧ done s (v.sendFlit h slots) = .next (v.sendFlit h slots)
      ∧ (v.sendFlit h slots).now = s.now + dt := by
  have sent := v.sendFlit_sent h slots
  refine ⟨?_, ?_, done_eq_next (sent.pending.trans p.pending) (sent.place.trans p.place), sent.now.trans p.now⟩
  · rw [sent.out, p.stampHdr, p.sentFlit, p.out]
  · rw [sent.nakDue, p.nakDue, p.nakNow]

/-- One more of the words from `DLV_SEQ` on has been written, not in `RXSEQ`. -/
theorem Poised.setF {f : Fld} (n : Nat) (high : DLV_SEQ ≤ f.off) (fits : f.lo + f.w ≤ 32) (beside : f.off = DLV_SEQ → 16 ≤ f.lo) :
    Poised dt (f.off :: ws) s (v.setF f n) :=
  { p with
    rd := fun off plain out still => by
      rw [List.mem_cons, not_or] at out
      exact (State.rd_setF_ne v f n out.1).trans (p.rd off plain out.2 still)
    above := fun off hm => by
      rcases List.mem_cons.1 hm with rfl | hm
      · exact high
      · exact p.above off hm
    rxseq := by
      refine (State.getF_setF_ne v f DLV_SEQ_RXSEQ fits n ?_).trans p.rxseq
      rcases eq_or_ne f.off DLV_SEQ with same | other
      · exact .inr (.inl (beside same))
      · exact .inl (Ne.symm other) }

theorem Poised.field {f : Fld} (plain : PlainWord f.off) (out : f.off ∉ ws) (still : f.off ∉ PassingWords) : v.getF f = s.getF f :=
  State.getF_of_rd f (p.rd _ plain out still)

end Poised

theorem Poised.of_elapse {s : State} (running : s.clockRuns = true) (beat : s.tim.beatDue = false) (dt : Nat) : Poised dt [] s (s.elapse dt) where
  rd off plain _ still := s.rd_elapse dt off plain still
  above := fun _ hm => absurd hm List.not_mem_nil
  rxseq := s.elapse_getF dt DLV_SEQ_RXSEQ (.inl (by decide)) (by decide)
  acc := by simp
  nakDue := by simp
  nakAt := by simp
  lnk := by simp
  beat := by simpa using beat
  now := s.elapse_now dt running
  out := by simp
  place := by simp
  pending := by simp

/-! ### Credit returns, R96 -/

/-- The channel found to owe the most is one of the six. -/
theorem State.mostOwed_lt (s : State) : s.mostOwed < 6 := by
  refine List.foldlRecOn (motive := (· < 6)) _ _ (by decide) fun a ha c hc => ?_
  have := List.mem_range.1 hc
  split <;> assumption

/-- Of numbers that all but one are zero, the search for the largest finds that one. -/
theorem foldl_largest {f : Nat → Nat} {c : Nat} (pos : 0 < f c) (l : List Nat) (a : Nat) (rest : ∀ d ∈ a :: l, d ≠ c → f d = 0) (mem : c ∈ a :: l) :
    l.foldl (fun a d => if f a < f d then d else a) a = c := by
  induction l generalizing a with
  | nil => exact (List.mem_singleton.1 mem).symm
  | cons d l ih =>
    have ha := rest a (by simp)
    have hd := rest d (by simp)
    have most : (if f a < f d then d else a) = a ∨ (if f a < f d then d else a) = d := by split <;> simp
    have keeps : a = c ∨ d = c → (if f a < f d then d else a) = c := by grind
    rw [List.foldl_cons]
    refine ih _ (fun e he other => ?_) ?_
    · rcases List.mem_cons.1 he with rfl | tail
      · rcases most with same | same <;> rw [same] at other ⊢
        · exact ha other
        · exact hd other
      · exact rest e (by simp [tail]) other
    · simp only [List.mem_cons] at mem ⊢
      rcases mem with same | same | tail
      · exact .inl (keeps (.inl same.symm)).symm
      · exact .inl (keeps (.inr same.symm)).symm
      · exact .inr tail

/-- Where one channel alone owes pips, it is the one found. -/
theorem State.mostOwed_only {s : State} {c : Nat} (low : c < 6) (owes : 0 < s.getF (DLV_RXBUF_OWED c))
    (alone : ∀ d < 6, d ≠ c → s.getF (DLV_RXBUF_OWED d) = 0) : s.mostOwed = c := by
  have within : ∀ d, d ∈ 0 :: List.range 6 ↔ d < 6 := by intro d; simp; omega
  exact foldl_largest (f := fun d => s.getF (DLV_RXBUF_OWED d)) owes _ 0 (fun d hd => alone d ((within d).1 hd)) ((within c).2 low)

/-- Before the exchange, and where no pip is owed, no credit is returned. -/
theorem State.takeReturn_none {s : State} (none : s.getB DLV_STATUS_INITDONE = false ∨ ∀ c < 6, s.getF (DLV_RXBUF_OWED c) = 0) :
    s.takeReturn = (15, 0, s) := by
  unfold State.takeReturn
  refine if_pos ?_
  rcases none with h | h
  · simp [h]
  · have : s.returnable s.mostOwed = 0 := by
      unfold State.returnable
      simp [h _ s.mostOwed_lt]
    simp [this]

/-- `n` pips of a channel are returned. -/
def State.repaid (s : State) (c n : Nat) : State :=
  { s.setF (DLV_RXBUF_OWED c) (s.getF (DLV_RXBUF_OWED c) - n) with
    dlv := { s.dlv with buckets := listSet s.dlv.buckets c (s.dlv.buckets.getD c 0 - n) } }

/-- Off the guest edge the one channel that owes pips has them all returned. -/
theorem State.takeReturn_only {s : State} {c : Nat} (inside : s.guestEdge = false) (done : s.getB DLV_STATUS_INITDONE = true) (low : c < 6)
    (owes : 0 < s.getF (DLV_RXBUF_OWED c)) (fits : s.getF (DLV_RXBUF_OWED c) < 1024) (alone : ∀ d < 6, d ≠ c → s.getF (DLV_RXBUF_OWED d) = 0) :
    s.takeReturn = (c, s.getF (DLV_RXBUF_OWED c), s.repaid c (s.getF (DLV_RXBUF_OWED c))) := by
  have all : min 1023 (s.returnable c) = s.getF (DLV_RXBUF_OWED c) := by
    unfold State.returnable
    simp only [inside, Bool.false_and, Bool.false_eq_true, if_false]
    omega
  unfold State.takeReturn
  simp only [State.mostOwed_only low owes alone, all, done]
  refine if_neg ?_
  simp
  omega

theorem Poised.repaid {dt : Nat} {ws : List Nat} {s v : State} (p : Poised dt ws s v) (c n : Nat) : Poised dt (DLV_RXBUF c :: ws) s (v.repaid c n) :=
  { p.setF (f := DLV_RXBUF_OWED c) (v.getF (DLV_RXBUF_OWED c) - n) (by simp only [DLV_SEQ, DLV_RXBUF_OWED]; omega)
      (by simp only [DLV_RXBUF_OWED]; omega) (by simp only [DLV_SEQ, DLV_RXBUF_OWED]; omega) with }

theorem State.repaid_owed (s : State) (c d : Nat) (rest : d ≠ c → s.getF (DLV_RXBUF_OWED d) = 0) :
    (s.repaid c (s.getF (DLV_RXBUF_OWED c))).getF (DLV_RXBUF_OWED d) = 0 := by
  show (s.setF (DLV_RXBUF_OWED c) (s.getF (DLV_RXBUF_OWED c) - s.getF (DLV_RXBUF_OWED c))).getF (DLV_RXBUF_OWED d) = 0
  rcases eq_or_ne d c with rfl | other
  · rw [State.getF_setF _ _ (by simp only [DLV_RXBUF_OWED]; omega), Nat.sub_self, Nat.zero_mod]
  · rw [State.getF_setF_apart _ _ (by simp only [DLV_RXBUF_OWED]; omega), rest other]

theorem State.sendIdle_eq {s t : State} {c n : Nat} (taken : s.takeReturn = (c, n, t)) :
    s.sendIdle = t.sendFlit ⟨s.getF DLV_SEQ_TXSEQ, 0, c, n, 1, false, false, false, 15⟩ [] := by
  unfold State.sendIdle State.newHdr
  rw [taken]

/-- An idle flit leaves (R57, R96). -/
theorem Poised.sendsIdle {dt : Nat} {s v : State} (p : Poised dt [] s v) (inside : s.guestEdge = false) {cch n : Nat}
    (owed : (cch = 15 ∧ n = 0 ∧ (s.getB DLV_STATUS_INITDONE = false ∨ ∀ c < 6, s.getF (DLV_RXBUF_OWED c) = 0))
      ∨ (cch < 6 ∧ s.getB DLV_STATUS_INITDONE = true ∧ n = s.getF (DLV_RXBUF_OWED cch) ∧ 0 < n ∧ n < 1024
          ∧ ∀ c < 6, c ≠ cch → s.getF (DLV_RXBUF_OWED c) = 0)) :
    ∃ t, done s v.sendIdle = .next t
      ∧ t.out = Sys2Proof.sentFlit s ⟨s.getF DLV_SEQ_TXSEQ, s.ackAfter dt, cch, n, 1, false, false, s.nakAfter dt, 15⟩ [] :: s.out
      ∧ t.dlv.bank = v.dlv.bank ∧ t.rd DLV_SEQ = s.rd DLV_SEQ ∧ t.dlv.nakDue = (s.dlv.nakDue && !s.nakAfter dt)
      ∧ (∀ c < 6, t.getF (DLV_RXBUF_OWED c) = 0 ∨ cch = 15) ∧ t.now = s.now + dt := by
  have at_ : ∀ f : Fld, f.off < 0x5000 → f.off ∉ PassingWords → v.getF f = s.getF f := fun f plain still => p.field (.inl plain) List.not_mem_nil still
  have seq := at_ DLV_SEQ_TXSEQ (by decide) (by decide)
  have init : v.getB DLV_STATUS_INITDONE = s.getB DLV_STATUS_INITDONE := congrArg (· != 0) (at_ DLV_STATUS_INITDONE (by decide) (by decide))
  have owes : ∀ c < 6, v.getF (DLV_RXBUF_OWED c) = s.getF (DLV_RXBUF_OWED c) := fun c hc => by
    refine at_ _ (by simp only [DLV_RXBUF_OWED]; omega) (fun hm => ?_)
    simp only [PassingWords, List.mem_map, List.mem_range, LANE_PAT, DLV_RXBUF_OWED] at hm
    omega
  have inside' : v.guestEdge = false := by unfold State.guestEdge at inside ⊢; rw [p.place]; exact inside
  obtain ⟨t, ws, taken, poised, bank, regs, owed'⟩ : ∃ t ws, v.takeReturn = (cch, n, t) ∧ Poised dt ws s t ∧ t.dlv.bank = v.dlv.bank
      ∧ t.rd DLV_SEQ = s.rd DLV_SEQ ∧ ∀ c < 6, t.getF (DLV_RXBUF_OWED c) = 0 ∨ cch = 15 := by
    rcases owed with ⟨rfl, rfl, none⟩ | ⟨low, done, rfl, pos, fits, alone⟩
    · refine ⟨v, [], State.takeReturn_none ?_, p, rfl, p.rd _ (.inl (by decide)) List.not_mem_nil (by decide), fun _ _ => .inr rfl⟩
      exact none.imp init.trans (fun h c hc => (owes c hc).trans (h c hc))
    · have alone' : ∀ d < 6, d ≠ cch → v.getF (DLV_RXBUF_OWED d) = 0 := fun d hd other => (owes d hd).trans (alone d hd other)
      rw [← owes cch low] at pos fits ⊢
      refine ⟨_, _, State.takeReturn_only inside' (init.trans done) low pos fits alone', p.repaid cch _, rfl, ?_,
        fun d hd => .inl (State.repaid_owed v cch d (alone' d hd))⟩
      exact (p.repaid cch _).rd _ (.inl (by decide)) (by simp [DLV_SEQ, DLV_RXBUF]; omega) (by decide)
  have sent := t.sendFlit_sent ⟨s.getF DLV_SEQ_TXSEQ, 0, cch, n, 1, false, false, false, 15⟩ []
  obtain ⟨out, nak, next, now⟩ := poised.sends ⟨s.getF DLV_SEQ_TXSEQ, 0, cch, n, 1, false, false, false, 15⟩ []
  rw [State.sendIdle_eq taken, seq]
  exact ⟨_, next, out, sent.bank.trans bank, (sent.rd _).trans regs, nak, fun c hc => (owed' c hc).imp_left (sent.getF _).trans, now⟩

end Sys2Proof.Machine
end

section
/-! SUPPORT. Replay (R85), and messages as they leave: which channel starts one (R74), its pips (R61), and the payload flit that carries them (R55, R84). -/

namespace Sys2Proof.Machine

/-! ### Replay, R85 -/

/-- The replay goes on behind the `i`-th entry of the Bank, and ends with the last. -/
def State.replaysOn (s : State) (i : Nat) (q : BitVec 16) : State :=
  { s.count CNT_REPLAY_FLITS with dlv := { s.dlv with replay := if i + 1 < s.dlv.bank.length then some (q + 1) else none } }

theorem State.sendReplay_going {s : State} {q : BitVec 16} {i : Nat} {e : BankEntry} (going : s.dlv.fresh = false)
    (place : (q.toNat + 2 ^ 17 - (s.getF DLV_BANK_ACKED + 1)) % 2 ^ 16 = i) (entry : s.dlv.bank[i]? = some e) :
    s.sendReplay q = (s.replaysOn i q).sendFlit { hdrOf e.hdr.toNat with kind := 3 } e.slots := by
  unfold State.sendReplay State.replaysOn
  simp only [place, entry, going, Bool.false_and, Bool.false_eq_true, if_false, State.count_dlv]

theorem Poised.replaysOn {dt : Nat} {ws : List Nat} {s v : State} (p : Poised dt ws s v) (i : Nat) (q : BitVec 16) : Poised dt ws s (v.replaysOn i q) :=
  have word : ∀ off, PlainWord off → (v.replaysOn i q).rd off = v.rd off := fun _ plain =>
    State.rd_count v CNT_REPLAY_FLITS 1 (of_decide_eq_true rfl) plain
  { p with
    rd := fun off plain out still => (word off plain).trans (p.rd off plain out still)
    rxseq := (State.getF_of_rd DLV_SEQ_RXSEQ (word _ (.inl (of_decide_eq_true rfl)))).trans p.rxseq
    lnk := (v.count_lnk _ _).trans p.lnk
    beat := (congrArg Tim.beatDue (v.count_tim _ _)).trans p.beat
    now := (v.count_now _ _).trans p.now
    out := (v.count_out _ _).trans p.out
    place := (v.count_place _ _).trans p.place
    pending := (v.count_pending _ _).trans p.pending }

/-- The flit of the Bank whose turn it is leaves again, and is counted (R85, R86). -/
theorem Poised.sendsReplay {dt : Nat} {s v : State} (p : Poised dt [] s v) (same : v.dlv = s.dlv) (counter : v.cnt CNT_REPLAY_FLITS = s.cnt CNT_REPLAY_FLITS)
    {q : BitVec 16} {e : BankEntry} (going : s.dlv.fresh = false) (entry : s.dlv.bank[(q.toNat + 2 ^ 17 - (s.getF DLV_BANK_ACKED + 1)) % 2 ^ 16]? = some e) :
    ∃ t, done s (v.sendReplay q) = .next t ∧ t.dlv.bank = s.dlv.bank ∧ counted CNT_REPLAY_FLITS 1 s t ∧ t.rd DLV_SEQ = s.rd DLV_SEQ
      ∧ t.out = Sys2Proof.sentFlit s { hdrOf e.hdr.toNat with kind := 3, ack := s.ackAfter dt, nak := s.nakAfter dt, beat := false } e.slots :: s.out := by
  have acked : v.getF DLV_BANK_ACKED = s.getF DLV_BANK_ACKED := p.field (.inl (by decide)) List.not_mem_nil (by decide)
  rw [State.sendReplay_going (by rw [same]; exact going) (by rw [acked]) (by rw [same]; exact entry)]
  generalize (q.toNat + 2 ^ 17 - (s.getF DLV_BANK_ACKED + 1)) % 2 ^ 16 = i
  have poised := p.replaysOn i q
  have sent := (v.replaysOn i q).sendFlit_sent { hdrOf e.hdr.toNat with kind := 3 } e.slots
  obtain ⟨out, -, next, -⟩ := poised.sends { hdrOf e.hdr.toNat with kind := 3 } e.slots
  refine ⟨_, next, sent.bank.trans (congrArg (·.bank) same :), counted_wide (u := v) rfl counter ?_,
    (sent.rd _).trans (poised.rd _ (.inl (by decide)) List.not_mem_nil (by decide)), out⟩
  exact State.cnt_of_rd (sent.rd _) (sent.rd _)

/-! ### Besides the queue of messages -/

/-- `w` is `s` but for the state of the arbitration and of the messages that leave, and what the LME notes of them. -/
structure Aside (s w : State) : Prop where
  only : w = { s with dlv := w.dlv, lme := w.lme }
  acc : w.dlv.acc = s.dlv.acc
  nakDue : w.dlv.nakDue = s.dlv.nakDue
  nakAt : w.dlv.nakAt = s.dlv.nakAt
  bank : w.dlv.bank = s.dlv.bank

theorem Aside.refl (s : State) : Aside s s := ⟨rfl, rfl, rfl, rfl, rfl⟩

theorem Aside.trans {s u w : State} (h : Aside s u) (h' : Aside u w) : Aside s w where
  only := by rw [h'.only, h.only]
  acc := h'.acc.trans h.acc
  nakDue := h'.nakDue.trans h.nakDue
  nakAt := h'.nakAt.trans h.nakAt
  bank := h'.bank.trans h.bank

theorem Aside.regs {s w : State} (h : Aside s w) : w.regs = s.regs := by rw [h.only]

theorem Aside.rd {s w : State} (h : Aside s w) (off : Nat) : w.rd off = s.rd off := by
  unfold State.rd
  rw [h.regs]

theorem Aside.getF {s w : State} (h : Aside s w) (f : Fld) : w.getF f = s.getF f := State.getF_of_rd f (h.rd _)

theorem Aside.setF {s w : State} (h : Aside s w) (f : Fld) (n : Nat) : Aside (s.setF f n) (w.setF f n) where
  only := by
    have : w.setF f n = { s.setF f n with dlv := w.dlv, lme := w.lme } := by rw [h.only]; rfl
    exact this
  acc := h.acc
  nakDue := h.nakDue
  nakAt := h.nakAt
  bank := h.bank

theorem Poised.aside {dt : Nat} {ws : List Nat} {s v w : State} (p : Poised dt ws s v) (h : Aside v w) : Poised dt ws s w where
  rd off plain out still := (h.rd off).trans (p.rd off plain out still)
  above := p.above
  rxseq := (h.getF _).trans p.rxseq
  acc := h.acc.trans p.acc
  nakDue := h.nakDue.trans p.nakDue
  nakAt := h.nakAt.trans p.nakAt
  lnk := (show w.lnk = v.lnk by rw [h.only]).trans p.lnk
  beat := (show w.tim.beatDue = v.tim.beatDue by rw [h.only]).trans p.beat
  now := (show w.now = v.now by rw [h.only]).trans p.now
  out := (show w.out = v.out by rw [h.only]).trans p.out
  place := (show w.place = v.place by rw [h.only]).trans p.place
  pending := (show w.pending = v.pending by rw [h.only]).trans p.pending

/-! ### The channel that starts a message, R74 -/

/-- The channel of a place of the round robin qualifies and has quantum left. -/
def State.turnOf (s : State) (i : Nat) : Bool := s.qualifies (rrOrder.getD i 0) && decide (s.dlv.spent.getD i 0 < s.quantum i)

theorem State.robin_none {s : State} (no : ∀ i < 4, s.turnOf i = false) (n i : Nat) (hi : i < 4) : s.robin n i = none := by
  induction n generalizing i with
  | zero => rfl
  | succ n ih =>
    have at_ := no i hi
    unfold State.turnOf at at_
    simp only [State.robin, at_, ih _ (Nat.mod_lt _ (by decide : 0 < 4)), Bool.false_eq_true, if_false]

/-- The search comes, around the four places, to the one whose turn it can be. -/
theorem State.robin_only {s : State} {j : Nat} (low : j < 4) (turn : ∀ i < 4, s.turnOf i = decide (i = j)) (n i : Nat) (hi : i < 4) (near : (j + 4 - i) % 4 < n) :
    s.robin n i = some j := by
  induction n generalizing i with
  | zero => omega
  | succ n ih =>
    have at_ := turn i hi
    unfold State.turnOf at at_
    rcases eq_or_ne i j with rfl | other
    · simp only [State.robin, at_, decide_true, if_true]
    · simp only [State.robin, at_, decide_eq_false other, Bool.false_eq_true, if_false]
      exact ih _ (by omega) (by omega)

/-- The arbitration notes whose turn it was and what each channel has spent of its quantum. -/
def State.arbitrated (s : State) (rr : Nat) (spent : List Nat) : State := { s with dlv := { s.dlv with rr := rr, spent := spent } }

theorem State.arbitrated_aside (s : State) (rr : Nat) (spent : List Nat) : Aside s (s.arbitrated rr spent) := ⟨rfl, rfl, rfl, rfl, rfl⟩

theorem State.quantum_pos (s : State) (i : Nat) : 0 < s.quantum i := Nat.lt_of_lt_of_le Nat.one_pos (Nat.le_max_left _ _)

theorem rrOrder_getD_inj {i j : Nat} (hi : i < 4) (hj : j < 4) (same : rrOrder.getD i 0 = rrOrder.getD j 0) : i = j := by
  have inj : ∀ i < 4, ∀ j < 4, rrOrder.getD i 0 = rrOrder.getD j 0 → i = j := by decide
  exact inj i hi j hj same

theorem rrOrder_finds {c : Nat} (low : c ≤ 5) (notTop : c ≠ 3) (notMgt : c ≠ 5) : ∃ j < 4, rrOrder.getD j 0 = c := by
  have all : ∀ c < 6, c ≠ 3 → c ≠ 5 → ∃ j < 4, rrOrder.getD j 0 = c := by decide
  exact all c (by omega) notTop notMgt

/-- Where no channel qualifies none starts a message. -/
theorem State.choose_none {s : State} (no : ∀ d, s.qualifies d = false) : ∃ spent, s.choose = (none, s.arbitrated s.dlv.rr spent) := by
  have i0 : rrOrder.idxOf s.dlv.rr % 4 < 4 := Nat.mod_lt _ (by decide)
  have robin : ∀ spent, (s.arbitrated s.dlv.rr spent).robin 4 (rrOrder.idxOf s.dlv.rr % 4) = none := fun spent =>
    State.robin_none (s := s.arbitrated s.dlv.rr spent) (fun i _ => congrArg (· && decide (spent.getD i 0 < s.quantum i)) (no (rrOrder.getD i 0))) 4 _ i0
  refine ⟨[0, 0, 0, 0], ?_⟩
  have first : s.robin 4 (rrOrder.idxOf s.dlv.rr % 4) = none := robin s.dlv.spent
  have again := robin [0, 0, 0, 0]
  unfold State.arbitrated at again ⊢
  unfold State.choose
  simp only [no, Bool.false_eq_true, if_false, first, again]

/-- The one channel that qualifies starts its message. -/
theorem State.choose_only {s : State} {c : Nat} (low : c ≤ 5) (one : ∀ d, s.qualifies d = decide (d = c)) :
    ∃ rr spent, s.choose = (some c, s.arbitrated rr spent) := by
  have yes : s.qualifies c = true := by rw [one, decide_eq_true rfl]
  by_cases top : c = 3
  · subst top
    exact ⟨s.dlv.rr, s.dlv.spent, by unfold State.choose; rw [if_pos yes]; rfl⟩
  by_cases mgt : c = 5
  · subst mgt
    refine ⟨s.dlv.rr, s.dlv.spent, ?_⟩
    unfold State.choose
    rw [if_neg (by rw [one]; decide), if_pos yes]
    rfl
  obtain ⟨j, hj, rfl⟩ := rrOrder_finds low top mgt
  have i0 : rrOrder.idxOf s.dlv.rr % 4 < 4 := Nat.mod_lt _ (by decide)
  have place : ∀ i < 4, s.qualifies (rrOrder.getD i 0) = decide (i = j) := fun i hi =>
    (one _).trans (decide_eq_decide.2 ⟨rrOrder_getD_inj hi hj, fun e => e ▸ rfl⟩)
  have turns : ∀ spent, spent.getD j 0 < s.quantum j → (s.arbitrated s.dlv.rr spent).robin 4 (rrOrder.idxOf s.dlv.rr % 4) = some j := by
    intro spent left
    refine State.robin_only hj (fun i hi => ?_) _ _ i0 (Nat.mod_lt _ (by decide))
    show (s.qualifies _ && decide (spent.getD i 0 < s.quantum i)) = _
    rw [place i hi]
    rcases eq_or_ne i j with rfl | other
    · rw [decide_eq_true left, Bool.and_true]
    · rw [decide_eq_false other, Bool.false_and]
  have again := turns [0, 0, 0, 0] (by
    have zero : [0, 0, 0, 0].getD j 0 = 0 := by interval_cases j <;> rfl
    rw [zero]
    exact s.quantum_pos j)
  unfold State.choose
  rw [if_neg (by rw [one]; simpa using Ne.symm top), if_neg (by rw [one]; simpa using Ne.symm mgt)]
  by_cases left : s.dlv.spent.getD j 0 < s.quantum j
  · have first : s.robin 4 (rrOrder.idxOf s.dlv.rr % 4) = some j := turns s.dlv.spent left
    simp only [first]
    exact ⟨_, _, rfl⟩
  · have first : s.robin 4 (rrOrder.idxOf s.dlv.rr % 4) = none := by
      refine State.robin_none (fun i hi => ?_) _ _ i0
      unfold State.turnOf
      rw [place i hi]
      rcases eq_or_ne i j with rfl | other
      · rw [decide_eq_false left, Bool.and_false]
      · rw [decide_eq_false other, Bool.false_and]
    unfold State.arbitrated at again
    simp only [first, again]
    exact ⟨_, _, rfl⟩

/-! ### The pips of a message, R61 -/

theorem State.mgtLeft_only (s : State) (c : Nat) : s.mgtLeft c = { s with lme := (s.mgtLeft c).lme } := by
  unfold State.mgtLeft
  split
  · rfl
  · split <;> rfl

theorem State.mgtLeft_aside (s : State) (c : Nat) : Aside s (s.mgtLeft c) := by
  rw [s.mgtLeft_only c]
  exact ⟨rfl, rfl, rfl, rfl, rfl⟩

@[simp] theorem State.mgtLeft_dlv (s : State) (c : Nat) : (s.mgtLeft c).dlv = s.dlv := by rw [s.mgtLeft_only c]

/-- A channel with no message waiting starts none. -/
theorem State.qualifies_empty {s : State} (none : s.dlv.tx = []) (d : Nat) : s.qualifies d = false := by
  unfold State.qualifies State.headOfChan
  rw [none]
  rfl

/-- Of one message waiting, its channel alone can start. -/
theorem State.qualifies_only {s : State} {x : TxMsg} (waits : s.dlv.tx = [x]) (ok : s.qualifies (msgHead x.m).chan = true) (d : Nat) :
    s.qualifies d = decide (d = (msgHead x.m).chan) := by
  rcases eq_or_ne d (msgHead x.m).chan with rfl | other
  · rw [ok, decide_eq_true rfl]
  · rw [decide_eq_false other]
    unfold State.qualifies State.headOfChan
    simp [waits, Ne.symm other]

/-- With nothing begun and nothing waiting the pip is NUL. -/
theorem State.nextPip_none {s : State} (none : s.dlv.tx = []) (idle : s.dlv.cur = []) :
    ∃ w, s.nextPip = (nulPip, .none, w) ∧ Aside s w ∧ w.dlv.tx = [] ∧ w.dlv.cur = [] := by
  obtain ⟨spent, chosen⟩ := State.choose_none (State.qualifies_empty none)
  refine ⟨_, ?_, s.arbitrated_aside s.dlv.rr spent, none, idle⟩
  unfold State.nextPip
  rw [idle]
  simp only [chosen]

/-- A pip of channel `c` leaves; `tx` then waits and `l` is the message begun. -/
def State.pipLeaves (s : State) (c : Nat) (tx : List TxMsg) (l : List Pip) : State :=
  { s.noteBusy c with dlv := { (s.noteBusy c).dlv with tx := tx, cur := l } }

theorem State.pipLeaves_aside (s : State) (c : Nat) (tx : List TxMsg) (l : List Pip) : Aside s (s.pipLeaves c tx l) := ⟨rfl, rfl, rfl, rfl, rfl⟩

/-- A message begun gives its next pip. -/
theorem State.nextPip_more {s : State} {h p : Pip} {r : List Pip} (begun : s.dlv.cur = h :: p :: r) :
    ∃ w, s.nextPip = (p, some (headOf h).chan, w) ∧ Aside s w ∧ w.dlv.tx = s.dlv.tx ∧ w.dlv.cur = if r.isEmpty then [] else h :: r := by
  let t := s.pipLeaves (headOf h).chan s.dlv.tx (if r.isEmpty then [] else h :: r)
  have went : Aside s t := s.pipLeaves_aside _ _ _
  refine ⟨if r.isEmpty then t.mgtLeft (headOf h).chan else t, by unfold State.nextPip; rw [begun]; rfl, ?_⟩
  by_cases last : r.isEmpty = true
  · rw [if_pos last, State.mgtLeft_dlv]
    exact ⟨went.trans (t.mgtLeft_aside _), rfl, rfl⟩
  · rw [if_neg last]
    exact ⟨went, rfl, rfl⟩

/-- What a message of MGT brings to the log is noted as it starts (R327). -/
def State.notesReply (s : State) (c : Nat) (x : TxMsg) : State := if c = 5 then { s with lme := { s.lme with leaving := s.logOfMsg x } } else s

theorem State.notesReply_aside (s : State) (c : Nat) (x : TxMsg) : Aside s (s.notesReply c x) := by
  unfold State.notesReply
  split
  · exact ⟨rfl, rfl, rfl, rfl, rfl⟩
  · exact Aside.refl s

theorem State.notesReply_dlv (s : State) (c : Nat) (x : TxMsg) : (s.notesReply c x).dlv = s.dlv := by
  unfold State.notesReply
  split <;> rfl

/-- A message of the chosen channel starts. -/
def State.starts (s : State) (c : Nat) (x : TxMsg) : State :=
  (s.pipLeaves c (s.dlv.tx.erase x) (if x.m.length ≤ 1 then [] else x.m)).notesReply c x

theorem State.starts_aside (s : State) (c : Nat) (x : TxMsg) : Aside s (s.starts c x) := (State.pipLeaves_aside _ _ _ _).trans (State.notesReply_aside _ _ _)

theorem State.starts_dlv (s : State) (c : Nat) (x : TxMsg) :
    (s.starts c x).dlv.tx = s.dlv.tx.erase x ∧ (s.starts c x).dlv.cur = if x.m.length ≤ 1 then [] else x.m := by
  unfold State.starts
  rw [State.notesReply_dlv]
  exact ⟨rfl, rfl⟩

theorem State.nextPip_chosen {s u t : State} {c : Nat} {x : TxMsg} (idle : s.dlv.cur = []) (chosen : s.choose = (some c, u)) (head : u.headOfChan c = some x)
    (window : u.setF (DLV_WIN_WINDOW c) (u.window c - x.m.length) = t) :
    s.nextPip = (x.m.headD nulPip, some c, if x.m.length ≤ 1 then (t.starts c x).mgtLeft c else t.starts c x) := by
  unfold State.nextPip
  rw [idle]
  simp only [chosen, head, window]
  rfl

/-- The one message waiting starts, and its window is smaller by its pips. -/
theorem State.nextPip_start {s : State} {x : TxMsg} (waits : s.dlv.tx = [x]) (idle : s.dlv.cur = []) (low : (msgHead x.m).chan ≤ 5)
    (ok : s.qualifies (msgHead x.m).chan = true) :
    ∃ w, s.nextPip = (x.m.headD nulPip, some (msgHead x.m).chan, w)
      ∧ Aside (s.setF (DLV_WIN_WINDOW (msgHead x.m).chan) (s.window (msgHead x.m).chan - x.m.length)) w
      ∧ w.dlv.tx = [] ∧ w.dlv.cur = if x.m.length ≤ 1 then [] else x.m := by
  obtain ⟨rr, spent, chosen⟩ := State.choose_only low (State.qualifies_only waits ok)
  have aside := s.arbitrated_aside rr spent
  have tx : (s.arbitrated rr spent).dlv.tx = [x] := waits
  generalize s.arbitrated rr spent = u at chosen aside tx
  have head : u.headOfChan (msgHead x.m).chan = some x := by
    unfold State.headOfChan
    simp [tx]
  have window : u.window (msgHead x.m).chan = s.window (msgHead x.m).chan := aside.getF _
  generalize (msgHead x.m).chan = c at chosen head window ⊢
  have written : Aside (s.setF (DLV_WIN_WINDOW c) (s.window c - x.m.length)) (u.setF (DLV_WIN_WINDOW c) (u.window c - x.m.length)) := by
    rw [← window]
    exact aside.setF _ _
  have left : (u.setF (DLV_WIN_WINDOW c) (u.window c - x.m.length)).dlv.tx.erase x = [] := by
    rw [State.setF_dlv, tx, List.erase_cons_head]
  generalize start : u.setF (DLV_WIN_WINDOW c) (u.window c - x.m.length) = t at written left
  obtain ⟨none, cur⟩ := t.starts_dlv c x
  refine ⟨_, State.nextPip_chosen idle chosen head start, ?_⟩
  split
  · rw [State.mgtLeft_dlv]
    exact ⟨(written.trans (t.starts_aside c x)).trans (State.mgtLeft_aside _ _), none.trans left, cur.trans (if_pos ‹_›)⟩
  · exact ⟨written.trans (t.starts_aside c x), none.trans left, cur.trans (if_neg ‹_›)⟩

/-- With nothing begun and nothing waiting the slots that are left are NUL. -/
theorem State.fillSlots_none {s : State} (none : s.dlv.tx = []) (idle : s.dlv.cur = []) (n : Nat) (l : List Pip) (k : List Nat) :
    ∃ w, State.fillSlots n s l k = (l ++ List.replicate n nulPip, k, w) ∧ Aside s w ∧ w.dlv.tx = [] ∧ w.dlv.cur = [] := by
  induction n generalizing s l with
  | zero => exact ⟨s, by simp [State.fillSlots], Aside.refl s, none, idle⟩
  | succ n ih =>
    obtain ⟨u, next, aside, none', idle'⟩ := State.nextPip_none none idle
    obtain ⟨w, rest, aside', last⟩ := ih none' idle' (l ++ [nulPip])
    refine ⟨w, ?_, aside.trans aside', last⟩
    simp only [State.fillSlots, next, rest, List.append_assoc, List.singleton_append, List.replicate_succ]

/-- The pips left of a message begun come next, and then NUL pips. -/
theorem State.fillSlots_more {s : State} {h : Pip} {r : List Pip} (none : s.dlv.tx = []) (begun : s.dlv.cur = if r.isEmpty then [] else h :: r)
    {n : Nat} (fits : r.length ≤ n) (l : List Pip) {k : List Nat} (low : (headOf h).chan < k.length) :
    ∃ w, State.fillSlots n s l k = (l ++ r ++ List.replicate (n - r.length) nulPip, listSet k (headOf h).chan (k.getD (headOf h).chan 0 + r.length), w)
      ∧ Aside s w ∧ w.dlv.tx = [] ∧ w.dlv.cur = [] := by
  induction r generalizing s n l k with
  | nil =>
    obtain ⟨w, rest, last⟩ := State.fillSlots_none none begun n l k
    refine ⟨w, ?_, last⟩
    rw [rest]
    unfold listSet
    simp [low]
  | cons p r ih =>
    obtain ⟨n, rfl⟩ : ∃ i, n = i + 1 := ⟨n - 1, by simp at fits; omega⟩
    obtain ⟨u, next, aside, tx, cur⟩ := State.nextPip_more (show s.dlv.cur = h :: p :: r from begun)
    have low' : (headOf h).chan < (listSet k (headOf h).chan (k.getD (headOf h).chan 0 + 1)).length := by unfold listSet; simpa using low
    obtain ⟨w, rest, aside', last⟩ := ih (tx.trans none) cur (by simpa using fits) (l ++ [p]) low'
    refine ⟨w, ?_, aside.trans aside', last⟩
    have length : n + 1 - (p :: r).length = n - r.length := by simp
    have counts : listSet (listSet k (headOf h).chan (k.getD (headOf h).chan 0 + 1)) (headOf h).chan
        ((listSet k (headOf h).chan (k.getD (headOf h).chan 0 + 1)).getD (headOf h).chan 0 + r.length)
        = listSet k (headOf h).chan (k.getD (headOf h).chan 0 + (p :: r).length) := by
      unfold listSet
      simp [low, Nat.add_assoc, Nat.add_comm 1]
    simp only [State.fillSlots, next, rest, length, counts, List.append_assoc, List.cons_append, List.nil_append]

end Sys2Proof.Machine
end

section
/-! SUPPORT. The flit of a message (R61, R62, R84), the choice of what leaves (R148), and the ticks before it. -/

namespace Sys2Proof.Machine

/-! ### A message flit -/

/-- A message of up to 15 pips fills the first slots, and NUL pips the rest. -/
theorem State.fillSlots_message {s : State} {x : TxMsg} (waits : s.dlv.tx = [x]) (idle : s.dlv.cur = []) (low : (msgHead x.m).chan ≤ 5)
    (ok : s.qualifies (msgHead x.m).chan = true) (some_ : 1 ≤ x.m.length) (fits : x.m.length ≤ 15) :
    ∃ w, State.fillSlots 15 s [] [0, 0, 0, 0, 0, 0]
        = (x.m ++ List.replicate (15 - x.m.length) nulPip, listSet [0, 0, 0, 0, 0, 0] (msgHead x.m).chan x.m.length, w)
      ∧ Aside (s.setF (DLV_WIN_WINDOW (msgHead x.m).chan) (s.window (msgHead x.m).chan - x.m.length)) w ∧ w.dlv.tx = [] ∧ w.dlv.cur = [] := by
  obtain ⟨u, next, aside, none, cur⟩ := State.nextPip_start waits idle low ok
  obtain ⟨m, core⟩ := x
  obtain ⟨h, r, rfl⟩ : ∃ h r, m = h :: r := List.exists_cons_of_length_pos some_
  have left : u.dlv.cur = if r.isEmpty then [] else h :: r := by
    rw [cur]
    cases r <;> rfl
  have chan : (msgHead (h :: r)).chan = (headOf h).chan := rfl
  simp only [chan] at *
  have six : (headOf h).chan < [0, 0, 0, 0, 0, 0].length := Nat.lt_succ_of_le low
  have six' : (headOf h).chan < (listSet [0, 0, 0, 0, 0, 0] (headOf h).chan ([0, 0, 0, 0, 0, 0].getD (headOf h).chan 0 + 1)).length := by
    unfold listSet
    rwa [List.length_set]
  obtain ⟨w, rest, aside', last⟩ := State.fillSlots_more none left (n := 14) (Nat.le_of_succ_le_succ fits) [h] six'
  refine ⟨w, ?_, aside.trans aside', last⟩
  have length : 15 - (r.length + 1) = 14 - r.length := by omega
  have counts : listSet (listSet [0, 0, 0, 0, 0, 0] (headOf h).chan ([0, 0, 0, 0, 0, 0].getD (headOf h).chan 0 + 1)) (headOf h).chan
      ((listSet [0, 0, 0, 0, 0, 0] (headOf h).chan ([0, 0, 0, 0, 0, 0].getD (headOf h).chan 0 + 1)).getD (headOf h).chan 0 + r.length)
      = listSet [0, 0, 0, 0, 0, 0] (headOf h).chan (r.length + 1) := by
    generalize (headOf h).chan = c at low
    interval_cases c <;> simp [listSet, Nat.add_comm]
  rw [counts] at rest
  rw [State.fillSlots, next]
  simp only [List.nil_append, rest, length, List.headD_cons, List.cons_append, List.length_cons]

/-- A first-time payload flit enters the Bank, and starts the ack timer where it is the first entry (R84, R88). -/
def State.banks (s : State) (e : BankEntry) : State :=
  let s := if s.dlv.bank.isEmpty then { s with dlv := { s.dlv with ackAt := s.now } } else s
  { s with dlv := { s.dlv with bank := s.dlv.bank ++ [e] } }

theorem State.banks_only (s : State) (e : BankEntry) :
    s.banks e = { s with dlv := { s.dlv with ackAt := (s.banks e).dlv.ackAt, bank := s.dlv.bank ++ [e] } } := by
  unfold State.banks
  simp only
  split <;> rfl

theorem State.sendPayload_eq {s t : State} {q : Nat} (before : s.getB DLV_STATUS_INITDONE = false) (next : (s.getF DLV_SEQ_TXSEQ + 1) % 2 ^ 16 = q)
    (numbered : s.setF DLV_SEQ_TXSEQ q = t) (strm : Bool) (fh : Nat) (slots : List Pip) (pips : List Nat) :
    s.sendPayload strm fh slots pips =
      (t.banks ⟨BitVec.ofNat 64 (t.stampHdr ⟨q, 0, 15, 0, 0, false, strm, false, fh⟩).bits, slots, pips⟩).sendFlit
        ⟨q, 0, 15, 0, 0, false, strm, false, fh⟩ slots := by
  unfold State.sendPayload State.newHdr
  rw [State.takeReturn_none (.inl before)]
  simp only [next, numbered]
  rfl

theorem Poised.banks {dt : Nat} {ws : List Nat} {s v : State} (p : Poised dt ws s v) (e : BankEntry) : Poised dt ws s (v.banks e) := by
  rw [v.banks_only e]
  exact { p with }

/-- A payload flit enters the Bank as it leaves (R84). -/
theorem Poised.sendsBanked {dt : Nat} {ws : List Nat} {s t : State} (p : Poised dt ws s t) (h : Hdr) (slots : List Pip) (pips : List Nat) :
    ∃ w, (t.banks ⟨BitVec.ofNat 64 (t.stampHdr h).bits, slots, pips⟩).sendFlit h slots = w ∧ done s w = .next w
      ∧ w.out = Sys2Proof.sentFlit s { h with ack := s.ackAfter dt, nak := s.nakAfter dt, beat := false } slots :: s.out
      ∧ w.dlv.bank = t.dlv.bank ++ [⟨BitVec.ofNat 64 ({ h with ack := s.ackAfter dt, nak := s.nakAfter dt, beat := false } : Hdr).bits, slots, pips⟩]
      ∧ w.regs = t.regs ∧ w.dlv.tx = t.dlv.tx ∧ w.dlv.cur = t.dlv.cur := by
  rw [p.stampHdr]
  generalize BitVec.ofNat 64 _ = bits
  have only := t.banks_only ⟨bits, slots, pips⟩
  have ready := p.banks ⟨bits, slots, pips⟩
  generalize t.banks ⟨bits, slots, pips⟩ = u at only ready
  have sent := u.sendFlit_sent h slots
  obtain ⟨out, -, next, -⟩ := ready.sends h slots
  exact ⟨_, rfl, next, out, sent.bank.trans (congrArg (·.dlv.bank) only :), sent.regs.trans (congrArg State.regs only :),
    sent.tx.trans (congrArg (·.dlv.tx) only :), sent.cur.trans (congrArg (·.dlv.cur) only :)⟩

/-- A message flit leaves before the exchange (R55, R84). -/
theorem Poised.sendsPayload {dt : Nat} {ws : List Nat} {s v : State} (p : Poised dt ws s v) (free : DLV_SEQ ∉ ws) (before : v.getB DLV_STATUS_INITDONE = false)
    (fh : Nat) (slots : List Pip) (pips : List Nat) :
    let q := (s.getF DLV_SEQ_TXSEQ + 1) % 2 ^ 16
    let h : Hdr := ⟨q, s.ackAfter dt, 15, 0, 0, false, false, s.nakAfter dt, fh⟩
    ∃ t, done s (v.sendPayload false fh slots pips) = .next t ∧ t.out = Sys2Proof.sentFlit s h slots :: s.out
      ∧ t.dlv.bank = v.dlv.bank ++ [⟨BitVec.ofNat 64 h.bits, slots, pips⟩] ∧ t.getF DLV_SEQ_TXSEQ = q
      ∧ (∀ off, off ≠ DLV_SEQ → t.rd off = v.rd off) ∧ t.dlv.tx = v.dlv.tx ∧ t.dlv.cur = v.dlv.cur := by
  intro q h
  have seq : v.getF DLV_SEQ_TXSEQ = s.getF DLV_SEQ_TXSEQ := p.field (.inl (by decide)) free (by decide)
  have poised := p.setF (f := DLV_SEQ_TXSEQ) q (of_decide_eq_true rfl) (of_decide_eq_true rfl) (fun _ => of_decide_eq_true rfl)
  have field : (v.setF DLV_SEQ_TXSEQ q).getF DLV_SEQ_TXSEQ = q := (State.getF_setF v _ (by decide) q).trans (Nat.mod_mod _ _)
  have rest : ∀ off, off ≠ DLV_SEQ → (v.setF DLV_SEQ_TXSEQ q).rd off = v.rd off := fun off ne => State.rd_setF_ne v DLV_SEQ_TXSEQ q ne
  have dlv : (v.setF DLV_SEQ_TXSEQ q).dlv = v.dlv := State.setF_dlv _ _ _
  generalize numbered : v.setF DLV_SEQ_TXSEQ q = t at poised field rest dlv
  rw [State.sendPayload_eq before (congrArg (fun n => (n + 1) % 2 ^ 16) seq) numbered]
  obtain ⟨w, is, next, out, bank, regs, tx, cur⟩ := poised.sendsBanked ⟨q, 0, 15, 0, 0, false, false, false, fh⟩ slots pips
  have word : ∀ off, w.rd off = t.rd off := fun off => by
    unfold State.rd
    rw [regs]
  rw [is]
  exact ⟨w, next, out, bank.trans (congrArg (·.bank ++ _) dlv), (State.getF_of_rd _ (word _)).trans field, fun off ne => (word off).trans (rest off ne),
    tx.trans (congrArg Dlv.tx dlv), cur.trans (congrArg Dlv.cur dlv)⟩

/-- The one message waiting leaves in a flit (R61, R74, R84). -/
theorem Poised.sendsMessage {dt : Nat} {s v : State} (p : Poised dt [] s v) (bank : v.dlv.bank = s.dlv.bank) {x : TxMsg} (waits : v.dlv.tx = [x]) (idle : v.dlv.cur = [])
    (some_ : 1 ≤ x.m.length) (fits : x.m.length ≤ 15) (low : (msgHead x.m).chan ≤ 5) (before : s.getB DLV_STATUS_INITDONE = false)
    (ok : v.qualifies (msgHead x.m).chan = true) :
    let c := (msgHead x.m).chan
    let q := (s.getF DLV_SEQ_TXSEQ + 1) % 2 ^ 16
    let h : Hdr := ⟨q, s.ackAfter dt, 15, 0, 0, false, false, s.nakAfter dt, 0⟩
    let slots := x.m ++ List.replicate (15 - x.m.length) nulPip
    ∃ t, done s v.sendMsgFlit = .next t ∧ t.out = Sys2Proof.sentFlit s h slots :: s.out
      ∧ t.dlv.bank = s.dlv.bank ++ [⟨BitVec.ofNat 64 h.bits, slots, listSet [0, 0, 0, 0, 0, 0] c x.m.length⟩]
      ∧ t.getF DLV_SEQ_TXSEQ = q ∧ t.window c = s.window c - x.m.length ∧ t.dlv.tx = [] ∧ t.dlv.cur = [] := by
  intro c q h slots
  obtain ⟨w, filled, aside, none, idle'⟩ := State.fillSlots_message waits idle low ok some_ fits
  have sends : v.sendMsgFlit = w.sendPayload false 0 slots (listSet [0, 0, 0, 0, 0, 0] c x.m.length) := by
    unfold State.sendMsgFlit
    rw [filled, idle]
    rfl
  have room : v.window c = s.window c := p.field (.inl (by simp only [DLV_WIN_WINDOW]; omega)) List.not_mem_nil (fun hm => by
    simp only [PassingWords, List.mem_map, List.mem_range, LANE_PAT, DLV_WIN_WINDOW] at hm
    omega)
  have poised := (p.setF (f := DLV_WIN_WINDOW c) (v.window c - x.m.length) (by simp only [DLV_SEQ, DLV_WIN_WINDOW]; omega)
    (by simp only [DLV_WIN_WINDOW]; omega) (fun _ => Nat.le_refl 16)).aside aside
  have init : w.getB DLV_STATUS_INITDONE = false := by
    refine (congrArg (· != 0) (poised.field (f := DLV_STATUS_INITDONE) (.inl (by decide)) ?_ (by decide))).trans before
    simp only [DLV_STATUS_INITDONE, DLV_WIN_WINDOW, List.mem_singleton]
    omega
  obtain ⟨t, next, out, entered, seq, rest, tx, cur⟩ := poised.sendsPayload (by simp only [DLV_SEQ, DLV_WIN_WINDOW, List.mem_singleton]; omega) init 0 slots
    (listSet [0, 0, 0, 0, 0, 0] c x.m.length)
  rw [sends]
  refine ⟨t, next, out, ?_, seq, ?_, tx.trans none, cur.trans idle'⟩
  · rw [entered, aside.bank, State.setF_dlv, bank]
  · have small : s.window c < 2 ^ 16 := Nat.mod_lt _ (Nat.two_pow_pos 16)
    calc t.window c = w.window c := State.getF_of_rd _ (rest _ (by simp only [DLV_SEQ, DLV_WIN_WINDOW]; omega))
      _ = (v.setF (DLV_WIN_WINDOW c) (v.window c - x.m.length)).getF (DLV_WIN_WINDOW c) := aside.getF _
      _ = (v.window c - x.m.length) % 2 ^ 16 := State.getF_setF _ _ (by simp only [DLV_WIN_WINDOW]; omega) _
      _ = s.window c - x.m.length := by rw [room, Nat.mod_eq_of_lt (by omega)]

/-- A channel qualifies after ticks that pass where it did before. -/
theorem State.elapse_qualifies (s : State) (d : Nat) {c : Nat} (low : c ≤ 5) : (s.elapse d).qualifies c = s.qualifies c := by
  have window : (s.elapse d).window c = s.window c := s.elapse_getF d _ (.inl (by simp only [DLV_WIN_WINDOW]; omega)) (fun hm => by
    simp only [PassingWords, List.mem_map, List.mem_range, LANE_PAT, DLV_WIN_WINDOW] at hm
    omega)
  have exchanged : (s.elapse d).getB DLV_STATUS_CREDIT_OK = s.getB DLV_STATUS_CREDIT_OK := s.elapse_getB d _ (.inl (by decide)) (by decide)
  have used : (s.elapse d).used 11 = s.used 11 := by
    unfold State.used State.capByte
    rw [s.rd_elapse d _ (.inl (by decide)) (by decide)]
  unfold State.qualifies State.headOfChan
  rw [window, exchanged, used, State.elapse_dlv]

end Sys2Proof.Machine

namespace Sys2Proof

open Machine

/-! ### The choice of what leaves, R148 -/

/-- Flits go on being passed as ticks go by. -/
theorem SendsMessages.elapse {s : State} (h : SendsMessages s) (d : Nat) : SendsMessages (s.elapse d) where
  clock := by simpa using h.clock
  lane := by simpa using h.lane
  quiet t heard := by
    rw [State.elapse_dlv] at heard
    exact (h.quiet t heard).trans_le (by rw [s.elapse_now d h.clock]; omega)
  wait := by simpa using h.wait
  runs := by simpa using h.runs
  gap := by simpa using h.gap
  void := by simpa using h.void
  near := by simpa using h.near
  sched := (s.elapse_run d).trans h.sched
  urgent := by simpa using h.urgent
  lc := by simpa using h.lc
  idle := by simpa using h.idle
  cur := by simpa using h.cur
  beat := by simpa using h.beat

/-- With no arrival in this tick the flit leaves in it (R90). -/
theorem SendsMessages.afterArrivals {s : State} (h : SendsMessages s) : s.afterArrivals = s := by
  unfold State.afterArrivals
  refine if_neg (fun now => ?_)
  exact absurd (h.quiet s.now (eq_of_beq now)) (Nat.lt_irrefl _)

/-- What is to leave is chosen between a replay and what else there is. -/
theorem SendsMessages.transmit {s : State} (h : SendsMessages s) :
    s.transmit = match s.dlv.replay with | some q => s.sendReplay q | none => s.sendByClass := by
  have settled : s.settleVoid.takeOffers.dropDbg = s := by
    have still : s.settleVoid = s := by
      unfold State.settleVoid
      rw [h.void]
      rfl
    rw [still, State.takeOffers_none h.wait, State.dropDbg_inside h.near]
  unfold State.transmit
  simp only [settled, h.runs, h.gap, h.lane, h.urgent, h.idle, Bool.true_or, Bool.not_true, Bool.or_self, Bool.false_eq_true, if_false]
  cases s.dlv.replay <;> rfl

/-- With no schedule and no link control a message flit leaves where the Bank has room and a message can start, and else an idle flit. -/
theorem SendsMessages.sendByClass {s : State} (h : SendsMessages s) :
    s.sendByClass = if s.dlv.bank.length < bankCap s.place ∧ (List.range 6).any s.qualifies = true then s.sendMsgFlit else s.sendIdle := by
  have cls : s.classAt s.tick = 2 := by
    unfold State.classAt State.runAt
    rw [h.sched]
    rfl
  have stream : s.streamNow = none := by
    unfold State.streamNow State.curPos
    rw [h.sched]
    rfl
  unfold State.sendByClass
  simp only [cls, stream, h.lc, h.cur, ite_self]
  simp

theorem exec_transmitFlit (d : Nat) (s : State) : exec (.transmitFlit d) s = done s (s.elapse d).afterArrivals.transmit := rfl

/-- Where an arrival has come in this tick the flit leaves one tick later (R90; log entry 158). -/
theorem exec_transmitFlit_heard {s : State} (running : s.clockRuns = true) (heard : s.dlv.heard = some s.now) :
    exec (.transmitFlit 0) s = exec (.transmitFlit 1) s := by
  have now : (s.elapse 0).afterArrivals = s.elapse 1 := by
    rw [show s.elapse 0 = s from rfl]
    unfold State.afterArrivals
    exact if_pos (by rw [heard, beq_self_eq_true])
  have later : (s.elapse 1).afterArrivals = s.elapse 1 := by
    unfold State.afterArrivals
    refine if_neg ?_
    rw [State.elapse_dlv, heard, s.elapse_now 1 running]
    simp
  rw [exec_transmitFlit, exec_transmitFlit, now, later]

/-- Settles O39: what a flit carries rests on words that no tick changes, and the choice of what leaves comes down to a replay, the one message
waiting or an idle flit. -/
theorem flitsAreSent : Obligations.FlitsAreSent := by
  unfold Obligations.FlitsAreSent
  refine ⟨fun s => exec_transmitFlit_heard, fun s dt sends => ?_⟩
  intro ack nak
  have poised := Poised.of_elapse sends.clock sends.beat dt
  have later := sends.elapse dt
  have run : exec (.transmitFlit dt) s = done s (s.elapse dt).transmit := by rw [exec_transmitFlit, later.afterArrivals]
  have dlv : (s.elapse dt).dlv = s.dlv := s.elapse_dlv dt
  rw [run, later.transmit, dlv]
  refine ⟨fun fresh => ⟨fun cch n none owed => ?_, fun m core waits some_ fits low before room ok => ?_⟩, fun q e replay going entry => ?_⟩
  · have idle : (s.elapse dt).sendByClass = (s.elapse dt).sendIdle := by
      have none' : (s.elapse dt).qualifies = fun _ => false := funext (State.qualifies_empty (by rw [dlv, none]))
      rw [later.sendByClass, none']
      simp
    obtain ⟨t, next, out, bank, seq, due, owes, now⟩ := poised.sendsIdle sends.near owed
    rw [fresh]
    exact ⟨t, (congrArg (done s) idle).trans next, out, bank.trans (congrArg Dlv.bank dlv), seq, due, owes, now⟩
  · have ok' : (s.elapse dt).qualifies (msgHead m).chan = true := (s.elapse_qualifies dt low).trans ok
    have message : (s.elapse dt).sendByClass = (s.elapse dt).sendMsgFlit := by
      rw [later.sendByClass]
      refine if_pos ⟨?_, List.any_eq_true.2 ⟨_, List.mem_range.2 (Nat.lt_succ_of_le low), ok'⟩⟩
      rw [dlv, State.elapse_place]
      exact room
    rw [fresh]
    exact message ▸ poised.sendsMessage (x := ⟨m, core⟩) (congrArg Dlv.bank dlv) ((congrArg Dlv.tx dlv).trans waits) later.cur some_ fits low before ok'
  · have counter : (s.elapse dt).cnt CNT_REPLAY_FLITS = s.cnt CNT_REPLAY_FLITS :=
      State.cnt_of_rd (s.rd_elapse_uncounted dt (by decide) (by decide)) (s.rd_elapse_uncounted dt (by decide) (by decide))
    rw [replay]
    exact poised.sendsReplay dlv counter going entry

end Sys2Proof
end

section
/-! SUPPORT. Which words a chain of operations leaves as they were. -/

namespace Sys2Proof

open Machine

theorem PlainKept.refl (ws : List Nat) (s : State) : PlainKept ws s s := fun _ _ _ => rfl

theorem PlainKept.trans {ws : List Nat} {s t u : State} (h : PlainKept ws s t) (k : PlainKept ws t u) : PlainKept ws s u :=
  fun off plain out => (k off plain out).trans (h off plain out)

theorem PlainKept.mono {ws vs : List Nat} {s t : State} (h : PlainKept ws s t) (sub : ws ⊆ vs) : PlainKept vs s t :=
  fun off plain out => h off plain fun hw => out (sub hw)

/-- A state with the same registers reads the same words. -/
theorem PlainKept.of_regs (ws : List Nat) {s t : State} (same : t.regs = s.regs) : PlainKept ws s t := fun off _ _ => by
  unfold State.rd
  rw [same]

theorem PlainKept.getF {ws : List Nat} {s t : State} (h : PlainKept ws s t) (f : Fld) (plain : PlainWord f.off) (out : f.off ∉ ws) :
    t.getF f = s.getF f := State.getF_of_rd f (h _ plain out)

theorem PlainKept.getB {ws : List Nat} {s t : State} (h : PlainKept ws s t) (f : Fld) (plain : PlainWord f.off) (out : f.off ∉ ws) :
    t.getB f = s.getB f := State.getB_of_rd f (h _ plain out)

/-- Steps that each keep the words keep them together. -/
theorem PlainKept.foldl {α : Type} {ws : List Nat} {f : State → α → State} {l : List α} (h : ∀ s, ∀ x ∈ l, PlainKept ws s (f s x)) :
    ∀ s, PlainKept ws s (l.foldl f s) := fun s off plain out => State.rd_foldl f off l (fun s x hx => h s x hx off plain out) s

end Sys2Proof

namespace Sys2Proof.Machine

theorem State.setF_plainKept {ws : List Nat} (s : State) {f : Fld} (h : f.off ∈ ws) (n : Nat) : PlainKept ws s (s.setF f n) :=
  fun _ _ out => s.rd_setF_ne f n (ne_of_mem_of_not_mem h out).symm

theorem State.setB_plainKept {ws : List Nat} (s : State) {f : Fld} (h : f.off ∈ ws) (b : Bool) : PlainKept ws s (s.setB f b) :=
  s.setF_plainKept h _

theorem State.setFs_plainKept {ws : List Nat} (s : State) {l : List (Fld × Nat)} (h : ∀ p ∈ l, p.1.off ∈ ws) : PlainKept ws s (s.setFs l) :=
  fun _ _ out => s.rd_setFs_ne l fun p hp => (ne_of_mem_of_not_mem (h p hp) out).symm

theorem State.count_plainKept (ws : List Nat) (s : State) {c : Cnt} (hc : 0x5000 ≤ c.off ∧ c.off < 0x57FC) (n : Nat) : PlainKept ws s (s.count c n) :=
  fun _ plain _ => s.rd_count c n hc plain

theorem State.raise_plainKept (ws : List Nat) (s : State) (c : Nat) : PlainKept ws s (s.raise c) := fun _ plain _ => s.rd_raise c plain

theorem State.elapse_plainKept (s : State) (d : Nat) : PlainKept PassingWords s (s.elapse d) := fun off plain out => s.rd_elapse d off plain out

end Sys2Proof.Machine
end

section
/-! SUPPORT. A link-control flit as it leaves (R57, R92), and the end of the loop measurement (R92, R93). -/

namespace Sys2Proof.Machine

/-! ### A probe leaves -/

/-- A message waits that is a probe, which leaves as it is (R92). -/
theorem State.fillLc_probe (s : State) {m : LcOut} (loop : byteAt m.body 0 = 0x29) (probe : byteAt m.body 1 = 0) :
    s.fillLc m = (m.body, { s with dlv := { s.dlv with
      probes := s.dlv.probes ++ [(byteAt m.body 2, s.now)]
      probeSent := s.dlv.probeSent + 1, probeAt := s.now, probeFlit := s.dlv.flits } }) := by
  unfold State.fillLc
  simp [loop, probe]

/-- What is still to be sent and what the loop measurement knows stand in `t` as in `s`. -/
structure LoopKept (s t : State) : Prop where
  lc : t.dlv.lc = s.dlv.lc
  urgent : t.dlv.urgent = s.dlv.urgent
  replay : t.dlv.replay = s.dlv.replay
  idleOnly : t.dlv.idleOnly = s.dlv.idleOnly
  probes : t.dlv.probes = s.dlv.probes
  probeSent : t.dlv.probeSent = s.dlv.probeSent
  probeAt : t.dlv.probeAt = s.dlv.probeAt
  now : t.now = s.now
  place : t.place = s.place
  pending : t.pending = s.pending

theorem LoopKept.refl (s : State) : LoopKept s s := ⟨rfl, rfl, rfl, rfl, rfl, rfl, rfl, rfl, rfl, rfl⟩

theorem State.sendFlit_loopKept (s : State) (h : Hdr) (slots : List Pip) : LoopKept s (s.sendFlit h slots) := by
  let t := s.puts (sentFlit s (s.stampHdr h) slots)
  have only : t = { s with out := sentFlit s (s.stampHdr h) slots :: s.out, lnk := t.lnk } := s.puts_only rfl
  have sends : s.sendFlit h slots = State.leaves (if s.getB DLV_STATUS_INITDONE then 1 else 0) t := rfl
  rw [sends, only]
  exact ⟨rfl, rfl, rfl, rfl, rfl, rfl, rfl, rfl, rfl, rfl⟩

theorem State.takeReturn_loopKept (s : State) : LoopKept s s.takeReturn.2.2 := by
  unfold State.takeReturn
  simp only
  split
  · exact LoopKept.refl s
  · exact ⟨rfl, rfl, rfl, rfl, rfl, rfl, rfl, rfl, rfl, rfl⟩

/-- Discarding what DBG has waiting counts, and takes messages out of the queue alone (R238). -/
theorem State.dropDbg_loopKept (s : State) : LoopKept s s.dropDbg := by
  unfold State.dropDbg
  split
  · exact LoopKept.refl s
  · simp only
    split <;> constructor <;> simp [State.noteBusy]

theorem State.dropDbg_run (s : State) : s.dropDbg.run = s.run := by
  refine State.getB_of_rd TURN_CTRL_RUN ?_
  unfold State.dropDbg
  split
  · rfl
  · simp only
    refine (State.rd_count_ne _ CNT_FW_QDROP _ (by decide) (by decide)).trans ?_
    split <;> rfl

/-- A probe leaves: it is out of the queue and counts as sent at its first symbol (R92). -/
theorem State.sendLc_probe (s : State) {m : LcOut} (loop : byteAt m.body 0 = 0x29) (probe : byteAt m.body 1 = 0) :
    (s.sendLc m).dlv.lc = s.dlv.lc ∧ (s.sendLc m).dlv.probeSent = s.dlv.probeSent + 1 ∧ (s.sendLc m).dlv.probeAt = s.now
      ∧ (s.sendLc m).dlv.probes = s.dlv.probes ++ [(byteAt m.body 2, s.now)] ∧ (s.sendLc m).pending = s.pending ∧ (s.sendLc m).place = s.place := by
  have taken := s.takeReturn_loopKept
  have sends : s.sendLc m = ((s.takeReturn.2.2.fillLc m).2).sendFlit (s.newHdr 2 (s.getF DLV_SEQ_TXSEQ) false 15).1 (bytesPips (s.takeReturn.2.2.fillLc m).1) :=
    rfl
  rw [sends, State.fillLc_probe _ loop probe]
  have sent := State.sendFlit_loopKept { s.takeReturn.2.2 with dlv := { s.takeReturn.2.2.dlv with
      probes := s.takeReturn.2.2.dlv.probes ++ [(byteAt m.body 2, s.takeReturn.2.2.now)]
      probeSent := s.takeReturn.2.2.dlv.probeSent + 1, probeAt := s.takeReturn.2.2.now, probeFlit := s.takeReturn.2.2.dlv.flits } }
    (s.newHdr 2 (s.getF DLV_SEQ_TXSEQ) false 15).1 (bytesPips m.body)
  refine ⟨sent.lc.trans taken.lc, sent.probeSent.trans (congrArg (· + 1) taken.probeSent), sent.probeAt.trans taken.now, sent.probes.trans ?_,
    sent.pending.trans taken.pending, sent.place.trans taken.place⟩
  show s.takeReturn.2.2.dlv.probes ++ [(byteAt m.body 2, s.takeReturn.2.2.now)] = _
  rw [taken.probes, taken.now]

/-- With no schedule the first link-control message waiting is what leaves (R148). -/
theorem State.sendByClass_lc {s : State} (idle : s.run = false) {m : LcOut} {r : List LcOut} (waits : s.dlv.lc = m :: r) :
    s.sendByClass = ({ s with dlv := { s.dlv with lc := r } } : State).sendLc m := by
  have stream : s.streamNow = none := by
    unfold State.streamNow State.curPos
    rw [idle]
    rfl
  unfold State.sendByClass
  simp only [stream, waits, ite_self]

/-- In Up or Shift, with nothing void, kept or urgent and no replay, the choice falls by class. -/
theorem State.transmit_plain {s : State} (runs : s.linkRuns = true) (gap : s.lnk.gap = false) (open_ : s.xOpen 1 = true) (void : s.trn.void = false)
    (wait : s.isl.wait = []) (idleOnly : s.dlv.idleOnly = false) (urgent : s.dlv.urgent = []) (replay : s.dlv.replay = none) :
    s.transmit = s.dropDbg.sendByClass := by
  have settled : s.settleVoid.takeOffers = s := by
    unfold State.settleVoid
    rw [void, if_neg Bool.false_ne_true, State.takeOffers_none wait]
  have kept := s.dropDbg_loopKept
  unfold State.transmit
  rw [runs, gap, open_, settled]
  simp only [Bool.true_or, Bool.not_true, Bool.or_self, Bool.false_eq_true, if_false, kept.replay, kept.urgent, kept.idleOnly, replay, urgent, idleOnly]

/-- TRANSMIT_FLIT with a probe first among what waits sends it (R92, R148). -/
theorem transmitFlit_probe {s : State} {m : LcOut} {r : List LcOut} (dt : Nat) (clock : s.clockRuns = true) (runs : s.linkRuns = true)
    (idle : s.run = false) (gap : s.lnk.gap = false) (void : s.trn.void = false) (idleOnly : s.dlv.idleOnly = false) (urgent : s.dlv.urgent = [])
    (replay : s.dlv.replay = none) (wait : s.isl.wait = []) (open_ : s.xOpen 1 = true) (quiet : ∀ h, s.dlv.heard = some h → h < s.now)
    (waits : s.dlv.lc = m :: r) (loop : byteAt m.body 0 = 0x29) (probe : byteAt m.body 1 = 0) :
    ∃ t, exec (.transmitFlit dt) s = .next t ∧ t.dlv.lc = r ∧ t.dlv.probeSent = s.dlv.probeSent + 1 ∧ t.dlv.probeAt = s.now + dt
      ∧ t.dlv.probes = s.dlv.probes ++ [(byteAt m.body 2, s.now + dt)] := by
  have now := s.elapse_now dt clock
  have still : (s.elapse dt).afterArrivals = s.elapse dt := by
    unfold State.afterArrivals
    refine if_neg fun heard => ?_
    rw [s.elapse_dlv dt, now] at heard
    exact absurd (quiet _ (eq_of_beq heard)) (by omega)
  have chosen : (s.elapse dt).transmit = (s.elapse dt).dropDbg.sendByClass := by
    apply State.transmit_plain <;> simp [runs, gap, open_, void, wait, idleOnly, urgent, replay]
  have kept := (s.elapse dt).dropDbg_loopKept
  have sends := State.sendByClass_lc (s := (s.elapse dt).dropDbg) (m := m) (r := r) (by rw [State.dropDbg_run, s.elapse_run dt, idle])
    (by rw [kept.lc, s.elapse_dlv dt, waits])
  obtain ⟨lc, sent, at_, probes, pending, place⟩ := State.sendLc_probe { (s.elapse dt).dropDbg with dlv := { (s.elapse dt).dropDbg.dlv with lc := r } }
    loop probe
  rw [exec_transmitFlit, still, chosen, sends]
  refine ⟨_, done_eq_next (pending.trans (kept.pending.trans (s.elapse_pending dt))) (place.trans (kept.place.trans (s.elapse_place dt))), lc,
    sent.trans ?_, at_.trans (kept.now.trans now), probes.trans ?_⟩
  · show (s.elapse dt).dropDbg.dlv.probeSent + 1 = _
    rw [kept.probeSent, s.elapse_dlv dt]
  · show (s.elapse dt).dropDbg.dlv.probes ++ [(_, (s.elapse dt).dropDbg.now)] = _
    rw [kept.probes, kept.now, s.elapse_dlv dt, now]

/-! ### The measurement's end -/

/-- The words that stage 7 may write as it passes: of the start (R296, R297), of the ack timer (R88) and of time (R140). -/
def StagePassWords : List Nat := [START_STATUS, 0x600C, DLV_ACKTO, TIME_STATUS]

theorem State.stageEnter_synchronise (s : State) : PlainKept StagePassWords s (s.stageEnter 8) ∧ (s.stageEnter 8).dlv = s.dlv
    ∧ (s.stageEnter 8).pending = s.pending ∧ (s.stageEnter 8).place = s.place := by
  have enters : s.stageEnter 8 = if s.getB TIME_CTRL_MASTER then s.setB TIME_STATUS_SYNCED true else s := by
    unfold State.stageEnter
    simp only [Nat.reduceEqDiff, if_false, if_true]
  rw [enters]
  split
  · exact ⟨s.setB_plainKept (by decide) true, s.setB_dlv _ _, s.setB_pending _ _, s.setB_place _ _⟩
  · exact ⟨PlainKept.refl _ s, rfl, rfl, rfl⟩

/-- A stage begins now. -/
def State.stageBegun (s : State) : State := { s with strt := { s.strt with stageAt := s.now } }

theorem State.stageBegun_plainKept (ws : List Nat) (s : State) : PlainKept ws s s.stageBegun := PlainKept.of_regs ws rfl
@[simp] theorem State.stageBegun_dlv (s : State) : s.stageBegun.dlv = s.dlv := rfl
@[simp] theorem State.stageBegun_tim (s : State) : s.stageBegun.tim = s.tim := rfl
@[simp] theorem State.stageBegun_pending (s : State) : s.stageBegun.pending = s.pending := rfl
@[simp] theorem State.stageBegun_place (s : State) : s.stageBegun.place = s.place := rfl

/-- A stage has passed with an outcome, and the next one stands. -/
def State.stagePassed (s : State) (k o : Nat) : State := ((s.setF (START_OUT_OUT k) o).setF START_STATUS_STAGE (k + 1)).stageBegun

theorem State.stagePassed_plainKept (s : State) (k o : Nat) : PlainKept [START_STATUS, 0x600C] s (s.stagePassed k o) := by
  have out : PlainKept [START_STATUS, 0x600C] s (s.setF (START_OUT_OUT k) o) := s.setF_plainKept (f := START_OUT_OUT k) (.tail _ (.head _)) o
  have stage : PlainKept [START_STATUS, 0x600C] _ ((s.setF (START_OUT_OUT k) o).setF START_STATUS_STAGE (k + 1)) := State.setF_plainKept _ (by decide) _
  exact (out.trans stage).trans (State.stageBegun_plainKept _ _)

theorem State.stagePassed_rest (s : State) (k o : Nat) :
    (s.stagePassed k o).dlv = s.dlv ∧ (s.stagePassed k o).pending = s.pending ∧ (s.stagePassed k o).place = s.place := by
  unfold State.stagePassed
  refine ⟨?_, ?_, ?_⟩
  · rw [State.stageBegun_dlv, State.setF_dlv, State.setF_dlv]
  · rw [State.stageBegun_pending, State.setF_pending, State.setF_pending]
  · rw [State.stageBegun_place, State.setF_place, State.setF_place]

theorem State.stagePassed_tim (s : State) (k o : Nat) : (s.stagePassed k o).tim = s.tim := by
  unfold State.stagePassed
  rw [State.stageBegun_tim, State.setF_tim, State.setF_tim]

/-- Stage 7 or an earlier one passes (R296, R88). -/
theorem State.stagePass_eq (s : State) {k : Nat} (hk : k ≠ 8) (o : Nat) : s.stagePass k o = if !s.starting || s.stage != k then s
    else if k = 7 && (s.stagePassed k o).far then ((s.stagePassed k o).setF DLV_ACKTO_ACKTO ((s.stagePassed k o).getF DLV_LOOP_LOOP + 512)).stageEnter 8
    else (s.stagePassed k o).stageEnter (k + 1) := by
  unfold State.stagePass
  simp only [if_neg hk]
  rfl

/-- What stage 7 writes as it passes. -/
theorem State.stagePass_loop (s : State) : PlainKept StagePassWords s (s.stagePass 7 0) ∧ (s.stagePass 7 0).dlv = s.dlv
    ∧ (s.stagePass 7 0).pending = s.pending ∧ (s.stagePass 7 0).place = s.place := by
  obtain ⟨dlv, pending, place⟩ := s.stagePassed_rest 7 0
  have passed : PlainKept StagePassWords s (s.stagePassed 7 0) := (s.stagePassed_plainKept 7 0).mono (List.subset_append_left _ [DLV_ACKTO, TIME_STATUS])
  rw [State.stagePass_eq s (by decide)]
  split
  · exact ⟨PlainKept.refl _ s, rfl, rfl, rfl⟩
  · split
    · have acks := State.setF_plainKept (ws := StagePassWords) (s.stagePassed 7 0) (f := DLV_ACKTO_ACKTO) (by decide)
        ((s.stagePassed 7 0).getF DLV_LOOP_LOOP + 512)
      obtain ⟨words, dlv', pending', place'⟩ := ((s.stagePassed 7 0).setF DLV_ACKTO_ACKTO ((s.stagePassed 7 0).getF DLV_LOOP_LOOP + 512)).stageEnter_synchronise
      exact ⟨(passed.trans acks).trans words, dlv'.trans ((State.setF_dlv _ _ _).trans dlv), pending'.trans ((State.setF_pending _ _ _).trans pending),
        place'.trans ((State.setF_place _ _ _).trans place)⟩
    · obtain ⟨words, dlv', pending', place'⟩ := (s.stagePassed 7 0).stageEnter_synchronise
      exact ⟨passed.trans words, dlv'.trans dlv, pending'.trans pending, place'.trans place⟩

/-- The measurement is over (R92). -/
def State.loopOver (s : State) : State := { s with dlv := { s.dlv with loopOn := false, probes := [] } }

/-- Whether the Bank is too small for the loop stands in `BANKBOUND`, and is reported (R93). -/
def State.boundShown (s : State) (bound : Bool) : State :=
  if bound then (s.setB DLV_STATUS_BANKBOUND bound).raise 0x0202 else s.setB DLV_STATUS_BANKBOUND bound

/-- A drift of the declared latency is reported (R151). -/
def State.driftReported (s : State) : State :=
  if s.far && s.getB TIME_DECL_VALID && decide (s.decl < s.declNow) then s.raise 0x0304 else s

theorem State.loopEnd_eq (s : State) : ∃ bound, s.loopEnd = (((s.loopOver.setB DLV_LOOP_VALID true).boundShown bound).driftReported).stagePass 7 0 :=
  ⟨_, rfl⟩

/-- `t` differs from `s` in registers and events alone as far as the loop measurement sees, and there not in `LOOP`. -/
structure LoopStands (s t : State) : Prop where
  words : PlainKept (DLV_STATUS :: StagePassWords) s t
  dlv : t.dlv = s.dlv
  now : t.now = s.now
  pending : t.pending = s.pending
  place : t.place = s.place

theorem LoopStands.trans {s t u : State} (h : LoopStands s t) (k : LoopStands t u) : LoopStands s u :=
  ⟨h.words.trans k.words, k.dlv.trans h.dlv, k.now.trans h.now, k.pending.trans h.pending, k.place.trans h.place⟩

theorem State.boundShown_stands (s : State) (bound : Bool) : LoopStands s (s.boundShown bound) := by
  have shown : PlainKept (DLV_STATUS :: StagePassWords) s (s.setB DLV_STATUS_BANKBOUND bound) := s.setB_plainKept (by decide) bound
  unfold State.boundShown
  split
  · exact ⟨shown.trans (State.raise_plainKept _ _ _), by simp, by simp, by simp, by simp⟩
  · exact ⟨shown, by simp, by simp, by simp, by simp⟩

theorem State.driftReported_stands (s : State) : LoopStands s s.driftReported := by
  unfold State.driftReported
  split
  · exact ⟨State.raise_plainKept _ _ _, by simp, by simp, by simp, by simp⟩
  · exact ⟨PlainKept.refl _ s, rfl, rfl, rfl, rfl⟩

theorem State.stagePass_stands (s : State) : LoopStands s (s.stagePass 7 0) := by
  obtain ⟨words, dlv, pending, place⟩ := s.stagePass_loop
  exact ⟨words.mono (List.subset_cons_self _ _), dlv, s.stagePass_now 7 0, pending, place⟩

/-- The measurement ends with its result valid and kept (R92, R93). -/
theorem State.loopEnd_valid (s : State) : s.loopEnd.getB DLV_LOOP_VALID = true ∧ s.loopEnd.getF DLV_LOOP_LOOP = s.getF DLV_LOOP_LOOP
    ∧ s.loopEnd.dlv.loopOn = false ∧ s.loopEnd.now = s.now ∧ s.loopEnd.pending = s.pending ∧ s.loopEnd.place = s.place := by
  obtain ⟨bound, ends⟩ := s.loopEnd_eq
  have stands := (((s.loopOver.setB DLV_LOOP_VALID true).boundShown_stands bound).trans (State.driftReported_stands _)).trans (State.stagePass_stands _)
  rw [← ends] at stands
  have valid : (s.loopOver.setB DLV_LOOP_VALID true).getB DLV_LOOP_VALID = true := State.getB_setB _ _ (by decide) rfl true
  have loop : (s.loopOver.setB DLV_LOOP_VALID true).getF DLV_LOOP_LOOP = s.loopOver.getF DLV_LOOP_LOOP :=
    State.getF_setB_beside _ true (by decide) (.inl (by decide))
  have off : (s.loopOver.setB DLV_LOOP_VALID true).dlv = s.loopOver.dlv := State.setB_dlv _ _ _
  exact ⟨(stands.words.getB DLV_LOOP_VALID (.inl (by decide)) (by decide)).trans valid,
    (stands.words.getF DLV_LOOP_LOOP (.inl (by decide)) (by decide)).trans loop, congrArg Dlv.loopOn (stands.dlv.trans off),
    stands.now.trans (State.setB_now s.loopOver _ _), stands.pending.trans (State.setB_pending s.loopOver _ _),
    stands.place.trans (State.setB_place s.loopOver _ _)⟩

/-- LOOP_EXCHANGE_TIMEOUT after 1,024 probes with an echo ends the measurement at its time (R92). -/
theorem loopExchangeTimeout_ends {s : State} (clock : s.clockRuns = true) (runs : s.linkRuns = true) (on : s.dlv.loopOn = true)
    (all : s.dlv.probeSent = 1024) (some_ : s.dlv.echoes ≠ 0) :
    ∃ t, exec .loopExchangeTimeout s = .next t ∧ t.now = max s.now (s.dlv.probeAt + 2 ^ 20) ∧ t.getB DLV_LOOP_VALID = true
      ∧ t.dlv.loopOn = false ∧ t.getF DLV_LOOP_LOOP = s.getF DLV_LOOP_LOOP := by
  have dlv : (s.advanceTo (s.dlv.probeAt + 2 ^ 20)).dlv = s.dlv := s.elapse_dlv _
  have some' : (s.advanceTo (s.dlv.probeAt + 2 ^ 20)).dlv.echoes ≠ 0 := by
    rw [dlv]
    exact some_
  have ends : exec .loopExchangeTimeout s = done s (s.advanceTo (s.dlv.probeAt + 2 ^ 20)).loopEnd := by
    show execLoopExchangeTimeout s = _
    unfold execLoopExchangeTimeout
    rw [if_neg (by rw [runs, on, all]; decide), if_neg some']
  obtain ⟨valid, loop, off, now, pending, place⟩ := (s.advanceTo (s.dlv.probeAt + 2 ^ 20)).loopEnd_valid
  have pending' : (s.advanceTo (s.dlv.probeAt + 2 ^ 20)).pending = s.pending := s.elapse_pending _
  have place' : (s.advanceTo (s.dlv.probeAt + 2 ^ 20)).place = s.place := s.elapse_place _
  have loop' : (s.advanceTo (s.dlv.probeAt + 2 ^ 20)).getF DLV_LOOP_LOOP = s.getF DLV_LOOP_LOOP :=
    s.elapse_getF _ DLV_LOOP_LOOP (.inl (by decide)) (by decide)
  rw [ends, done_eq_next (pending.trans pending') (place.trans place')]
  exact ⟨_, rfl, now.trans (s.advanceTo_now clock _), valid, off, loop.trans loop'⟩

/-! ### Probes and echoes -/

theorem loopProbeSend_due {s : State} (runs : s.linkRuns = true) (on : s.dlv.loopOn = true) (few : s.dlv.probeSent < 1024)
    (none : ∀ m ∈ s.dlv.lc, byteAt m.body 0 ≠ 0x29 ∨ byteAt m.body 1 ≠ 0) (due : s.dlv.probeSent = 0 ∨ s.dlv.probeFlit + 8 ≤ s.dlv.flits) :
    exec .loopProbeSend s = .next { s with dlv := { s.dlv with lc := s.dlv.lc ++ [⟨probeBody false (s.dlv.probeSent % 256) 0, s.now⟩] } } := by
  have waits : s.probeWaits = false := by
    unfold State.probeWaits
    rw [List.any_eq_false]
    intro m hm
    have := none m hm
    simp only [Bool.and_eq_true, beq_iff_eq]
    omega
  have due' : s.probeDue = true := by
    unfold State.probeDue
    rw [runs, on, waits, decide_eq_true few]
    simpa using due
  show execLoopProbeSend s = _
  unfold execLoopProbeSend
  rw [if_pos due']
  rfl

theorem loopProbeReceive_echoes {s : State} (runs : s.linkRuns = true) (id : Byte) : exec (.loopProbeReceive id) s
    = .next { s with dlv := { s.dlv with lc := s.dlv.lc ++ [⟨probeBody true id.toNat 0, s.now⟩], heard := some s.now } } := by
  have answers : s.hear.onProbe id.toNat = s.hear.queueLc (probeBody true id.toNat 0) := if_pos runs
  show done s (s.hear.onProbe id.toNat) = _
  rw [answers]
  rfl

/-- An echo has come: its probe and those before it are out (R92). -/
def State.echoOut (s : State) (id : Nat) : State :=
  { s with dlv := { s.dlv with probes := (s.dlv.probes.dropWhile (fun q => q.1 != id)).drop 1, echoes := s.dlv.echoes + 1 } }

/-- What the echo of an outstanding probe leaves, where `m` is its difference (R92). -/
def State.echoed (s : State) (id : Nat) (m : Nat) : State :=
  (s.setF DLV_LOOP_LOOP (if s.dlv.echoes = 0 then m else max m (s.getF DLV_LOOP_LOOP))).echoOut id

theorem State.echoOut_echoes (s : State) (id : Nat) : (s.echoOut id).dlv.echoes = s.dlv.echoes + 1 := rfl
theorem State.echoOut_rd (s : State) (id off : Nat) : (s.echoOut id).rd off = s.rd off := rfl
theorem State.echoOut_getF (s : State) (id : Nat) (f : Fld) : (s.echoOut id).getF f = s.getF f := rfl

theorem State.getF_lt (s : State) (f : Fld) : s.getF f < 2 ^ f.w := Nat.mod_lt _ (Nat.two_pow_pos _)

theorem State.echoed_loop (s : State) (id : Nat) {m : Nat} (fits : m < 2 ^ 20) :
    (s.echoed id m).getF DLV_LOOP_LOOP = if s.dlv.echoes = 0 then m else max m (s.getF DLV_LOOP_LOOP) := by
  have old : s.getF DLV_LOOP_LOOP < 2 ^ 20 := s.getF_lt DLV_LOOP_LOOP
  have fits' : (if s.dlv.echoes = 0 then m else max m (s.getF DLV_LOOP_LOOP)) < 2 ^ 20 := by
    split
    · exact fits
    · exact max_lt fits old
  unfold State.echoed
  rw [State.echoOut_getF, State.getF_setF _ _ (by decide)]
  exact Nat.mod_eq_of_lt fits'

theorem State.onEcho_eq {s : State} {id turn at_ : Nat} (runs : s.linkRuns = true) (on : s.dlv.loopOn = true)
    (found : s.dlv.probes.find? (fun p => p.1 == id) = some (id, at_)) (m : Nat) (hm : m = min (2 ^ 20 - 1) (s.now + 4 - at_ - turn)) :
    s.onEcho id turn = if (s.echoed id m).dlv.echoes = 128 then (s.echoed id m).loopEnd else s.echoed id m := by
  unfold State.onEcho
  rw [runs, on, found, hm]
  rfl

theorem State.onEcho_found {s : State} {id turn at_ : Nat} (runs : s.linkRuns = true) (on : s.dlv.loopOn = true)
    (found : s.dlv.probes.find? (fun p => p.1 == id) = some (id, at_)) (not128 : s.dlv.echoes ≠ 127) :
    s.onEcho id turn = s.echoed id (min (2 ^ 20 - 1) (s.now + 4 - at_ - turn)) := by
  rw [State.onEcho_eq runs on found _ rfl]
  refine if_neg ?_
  unfold State.echoed
  rw [State.echoOut_echoes, State.setF_dlv]
  omega

/-- A field is set and an echo's probe is out: nothing else differs. -/
theorem State.setF_echoOut (s : State) (f : Fld) (n id : Nat) :
    (s.setF f n).echoOut id = { s with regs := ((s.setF f n).echoOut id).regs, dlv := (s.echoOut id).dlv } := rfl

theorem State.echoed_rest (s : State) (id m : Nat) :
    s.echoed id m = { s with regs := (s.echoed id m).regs, dlv := (s.echoOut id).dlv } ∧ WordsKept [DLV_LOOP] s (s.echoed id m) := by
  unfold State.echoed
  refine ⟨s.setF_echoOut _ _ _, fun off out => ?_⟩
  rw [State.echoOut_rd]
  exact s.rd_setF_ne DLV_LOOP_LOOP _ fun same => out (List.mem_singleton.2 same)

theorem State.echoed_dlv (s : State) (id m : Nat) : (s.echoed id m).dlv = (s.echoOut id).dlv := by rw [(s.echoed_rest id m).1]
theorem State.echoed_pending (s : State) (id m : Nat) : (s.echoed id m).pending = s.pending := by rw [(s.echoed_rest id m).1]
theorem State.echoed_place (s : State) (id m : Nat) : (s.echoed id m).place = s.place := by rw [(s.echoed_rest id m).1]

theorem loopEchoReceive_takes {s : State} {id : Byte} {turn : BitVec 16} {at_ m : Nat} (runs : s.linkRuns = true) (on : s.dlv.loopOn = true)
    (found : s.dlv.probes.find? (fun p => p.1 == id.toNat) = some (id.toNat, at_)) (not128 : s.dlv.echoes ≠ 127)
    (hm : m = min (2 ^ 20 - 1) (s.now + 4 - at_ - turn.toNat)) : exec (.loopEchoReceive id turn) s = .next (s.hear.echoed id.toNat m) := by
  have takes : s.hear.onEcho id.toNat turn.toNat = s.hear.echoed id.toNat m := by
    rw [State.onEcho_found (s := s.hear) runs on found not128, hm]
    rfl
  show done s (s.hear.onEcho id.toNat turn.toNat) = _
  rw [takes]
  exact done_eq_next (State.echoed_pending _ _ _) (State.echoed_place _ _ _)

end Sys2Proof.Machine

namespace Sys2Proof

open Machine

/-- Settles O41: a probe that leaves is followed through the flit that carries it, and the end of the measurement through the words that the stage it
passes can write. -/
theorem loopIsMeasured : Obligations.LoopIsMeasured := by
  unfold Obligations.LoopIsMeasured
  intro s clock runs
  refine ⟨fun on few none due => loopProbeSend_due runs on few none due, ?_, loopProbeReceive_echoes runs, fun id turn at_ on found not128 => ?_,
    fun on all some_ => loopExchangeTimeout_ends clock runs on all some_⟩
  · intro dt m r idle gap void idleOnly urgent replay wait open_ quiet waits loop probe
    exact transmitFlit_probe dt clock runs idle gap void idleOnly urgent replay wait open_ quiet waits loop probe
  · intro m
    have fits : m < 2 ^ 20 := lt_of_le_of_lt (min_le_left _ _) (by norm_num)
    obtain ⟨only, words⟩ := s.hear.echoed_rest id.toNat m
    have dlv := s.hear.echoed_dlv id.toNat m
    refine ⟨_, loopEchoReceive_takes runs on found not128 rfl, ?_, dlv, only.trans ?_, words⟩
    · exact s.hear.echoed_loop id.toNat fits
    · rw [dlv]
      rfl

end Sys2Proof
end

section
/-! SUPPORT. STRETCH and GEN-NOTICE on a Far link: the first of a number, and the repeats (R161, R233). -/

namespace Sys2Proof.Machine

/-! ### The first of its number -/

/-- A STRETCH of the peer has been answered and its number is remembered (R161). -/
def State.stretchAnswered (s : State) (m : StretchMsg) : State :=
  let u := s.queueLc (stretchBody true m.lower m.k.toNat m.seq.toNat m.origin.toNat m.e.toNat)
  { u with tim := { u.tim with rxSeen := remember (m.origin.toNat, m.seq.toNat) u.tim.rxSeen } }

/-- What `TURN_STRETCH_RX` shows of a STRETCH (R161). -/
def stretchShown (m : StretchMsg) : Nat :=
  m.e.toNat % 2 ^ 32 * 2 ^ 32 + m.origin.toNat * 2 ^ 23 + m.seq.toNat * 2 ^ 15 + m.k.toNat % 32 * 2 ^ 10 + (if m.lower then 2 ^ 9 else 0)

/-- Epoch, origin and number stand in fields of their own. -/
theorem stretchShown_fields (m : StretchMsg) : stretchShown m % 2 ^ 64 / 2 ^ 32 = m.e.toNat % 2 ^ 32
    ∧ stretchShown m % 2 ^ 64 / 2 ^ 23 % 2 ^ 9 = m.origin.toNat ∧ stretchShown m % 2 ^ 64 / 2 ^ 15 % 2 ^ 8 = m.seq.toNat := by
  have origin : m.origin.toNat < 512 := m.origin.isLt
  have seq : m.seq.toNat < 256 := m.seq.isLt
  have lower : (if m.lower then 2 ^ 9 else 0) < 1024 := by split <;> omega
  unfold stretchShown
  generalize (if m.lower then 2 ^ 9 else 0) = b at lower ⊢
  omega

theorem State.onStretch_first {s : State} {m : StretchMsg} (far : s.far = true) (fresh : s.tim.rxSeen.contains (m.origin.toNat, m.seq.toNat) = false) :
    s.onStretch m = ((s.stretchAnswered m).putW TURN_STRETCH_RX (stretchShown m)).raise 0x0308 := by
  have fresh' (b : List Byte) : (s.queueLc b).tim.rxSeen.contains (m.origin.toNat, m.seq.toNat) = false := fresh
  unfold State.onStretch
  simp only [far, fresh', Bool.not_true, Bool.false_eq_true, if_false]
  rfl

theorem State.putW_plainKept (s : State) (w : Wide) (v : Nat) : PlainKept [w.off, w.off + 4] s (s.putW w v) := fun off _ out => by
  simp only [List.mem_cons, List.not_mem_nil, or_false, not_or] at out
  exact s.rd_putW_ne w v out.1 out.2

theorem State.getW_of_plainKept {s t : State} {w : Wide} (h : PlainKept [] s t) (low : PlainWord w.off) (high : PlainWord (w.off + 4)) : t.getW w = s.getW w := by
  unfold State.getW
  rw [h _ low List.not_mem_nil, h _ high List.not_mem_nil]

/-- STRETCH_RECEIVE of a number not seen before (R161). -/
theorem stretchReceive_first {s : State} {m : StretchMsg} (far : s.far = true) (request : m.got = false)
    (fresh : s.tim.rxSeen.contains (m.origin.toNat, m.seq.toNat) = false) : ∃ t, exec (.stretchReceive m) s = .next t
      ∧ t.dlv = { s.dlv with lc := s.dlv.lc ++ [⟨stretchBody true m.lower m.k.toNat m.seq.toNat m.origin.toNat m.e.toNat, s.now⟩], heard := some s.now }
      ∧ t.getW TURN_STRETCH_RX = stretchShown m % 2 ^ 64 ∧ t.rd EVT_LAST = 0x0308 ∧ PlainKept [TURN_STRETCH_RX.off, TURN_STRETCH_RX.off + 4] s t := by
  have takes : exec (.stretchReceive m) s = done s (((s.hear.stretchAnswered m).putW TURN_STRETCH_RX (stretchShown m)).raise 0x0308) := by
    show done s (s.hear.onStretchMsg m) = _
    unfold State.onStretchMsg
    rw [request, if_neg Bool.false_ne_true, State.onStretch_first (s := s.hear) far fresh]
  have raised := State.raise_plainKept [] ((s.hear.stretchAnswered m).putW TURN_STRETCH_RX (stretchShown m)) 0x0308
  have words : PlainKept [TURN_STRETCH_RX.off, TURN_STRETCH_RX.off + 4] s (s.hear.stretchAnswered m) := PlainKept.of_regs _ rfl
  rw [takes]
  refine ⟨_, done_eq_next ?_ ?_, ?_, ?_, ?_, (words.trans (State.putW_plainKept _ _ _)).trans (raised.mono (List.nil_subset _))⟩
  · rw [State.raise_pending, State.putW_pending]
    rfl
  · rw [State.raise_place, State.putW_place]
    rfl
  · rw [State.raise_dlv, State.putW_dlv]
    rfl
  · rw [State.getW_of_plainKept raised (.inl (by decide)) (.inl (by decide)), State.getW_putW]
  · rw [State.raise_last _ _ (by decide)]
    decide

/-- A GEN-NOTICE of the peer has been answered and its number is remembered (R233). -/
def State.genAnswered (s : State) (m : GenMsg) : State :=
  let u := s.queueLc (genBody true m.origin.toNat m.vi.toNat m.gen.toNat m.nseq.toNat)
  { u with tim := { u.tim with genSeen := remember (m.origin.toNat, m.nseq.toNat) u.tim.genSeen } }

/-- A generation learned stands valid in its entry (R232). -/
theorem State.podGen_learnGen (s : State) (pod vi : Nat) {gen : Nat} (fits : gen < 1024) : (s.learnGen pod vi gen).podGen pod vi = some gen := by
  have entry : ((s.learnGen pod vi gen).pod.get (256 * pod + vi)).toNat = 1024 + gen := by
    unfold State.learnGen
    rw [Sparse.get_set, if_pos rfl, BitVec.toNat_ofNat]
    omega
  unfold State.podGen
  rw [entry]
  simp only
  rw [if_neg (by omega)]
  congr 1
  omega

theorem State.onGen_first {s : State} {m : GenMsg} (far : s.far = true) (fresh : s.tim.genSeen.contains (m.origin.toNat, m.nseq.toNat) = false)
    (other : m.origin.toNat ≠ s.pod_) (unknown : s.podGen m.origin.toNat m.vi.toNat = none) :
    s.onGen m = (s.genAnswered m).learnGen m.origin.toNat m.vi.toNat m.gen.toNat := by
  have test : ((s.genAnswered m).podTest m.origin.toNat m.vi.toNat m.gen.toNat).2 = (s.genAnswered m).learnGen m.origin.toNat m.vi.toNat m.gen.toNat := by
    have unknown' : (s.genAnswered m).podGen m.origin.toNat m.vi.toNat = none := unknown
    unfold State.podTest
    rw [unknown']
  have fresh' (b : List Byte) : (s.queueLc b).tim.genSeen.contains (m.origin.toNat, m.nseq.toNat) = false := fresh
  unfold State.onGen
  simp only [far, fresh', Bool.not_true, Bool.false_eq_true, if_false]
  exact (if_neg other).trans test

/-- GEN-NOTICE_RECEIVE of a number not seen before, of another pod whose entry is not valid (R232, R233). -/
theorem genNoticeReceive_first {s : State} {m : GenMsg} (far : s.far = true) (request : m.got = false)
    (fresh : s.tim.genSeen.contains (m.origin.toNat, m.nseq.toNat) = false) (other : m.origin.toNat ≠ s.pod_)
    (unknown : s.podGen m.origin.toNat m.vi.toNat = none) :
    exec (.genNoticeReceive m) s = .next ((s.hear.genAnswered m).learnGen m.origin.toNat m.vi.toNat m.gen.toNat) := by
  show done s (s.hear.onGenMsg m) = _
  unfold State.onGenMsg
  rw [request, if_neg Bool.false_ne_true, State.onGen_first (s := s.hear) far fresh other unknown]
  exact done_eq_next rfl rfl

/-! ### Repeats -/

theorem State.foldl_queueLc (l : List Fwd) (s : State) :
    l.foldl (fun s f => s.queueLc f.body) s = { s with dlv := { s.dlv with lc := s.dlv.lc ++ l.map (fun f => ⟨f.body, s.now⟩) } } := by
  induction l generalizing s with
  | nil =>
    simp only [List.foldl_nil, List.map_nil, List.append_nil]
  | cons f l ih =>
    rw [List.foldl_cons, ih, List.map_cons, List.append_cons]
    rfl

/-- With no message sent 64 times every forwarded message of the type is queued again (R161, R233). -/
theorem State.repeatForwards_live {s : State} {lctype : Nat} {ty : Byte} (hty : BitVec.ofNat 8 lctype = ty) (few : ∀ f ∈ s.tim.fwds, f.sends < 64) :
    s.repeatForwards lctype = { s with
      tim := { s.tim with fwds := s.tim.fwds.map (fun f => if f.body.head? == some ty then { f with sends := f.sends + 1 } else f) }
      dlv := { s.dlv with lc := s.dlv.lc ++ (s.tim.fwds.filter (fun f => f.body.head? == some ty)).map (fun f => ⟨f.body, s.now⟩) } } := by
  have spent : ∀ f ∈ s.tim.fwds, decide (64 ≤ f.sends) = false := fun f hf => decide_eq_false (by have := few f hf; omega)
  have lost : s.tim.fwds.filter (fun f => f.body.head? == some ty && decide (64 ≤ f.sends)) = [] :=
    List.filter_eq_nil_iff.2 fun f hf => by simp only [spent f hf, Bool.and_false, Bool.false_eq_true, not_false_eq_true]
  have live : s.tim.fwds.filter (fun f => !(f.body.head? == some ty && decide (64 ≤ f.sends))) = s.tim.fwds :=
    List.filter_eq_self.2 fun f hf => by simp only [spent f hf, Bool.and_false, Bool.not_false]
  unfold State.repeatForwards
  simp only [hty, lost, live, List.foldl_nil]
  rw [State.foldl_queueLc]

end Sys2Proof.Machine

namespace Sys2Proof

open Machine

/-- Settles O26: the words of STRETCH in fields of their own, the entry of a generation learned, and a repeat as one pass over what was forwarded. -/
theorem noticesCrossFarLinks : Obligations.NoticesCrossFarLinks := by
  unfold Obligations.NoticesCrossFarLinks
  refine fun s => ⟨fun far => ⟨fun m request fresh => ?_, fun m request fresh other unknown => ?_⟩, fun c ty row few => ?_⟩
  · obtain ⟨t, next, dlv, shown, last, words⟩ := stretchReceive_first far request fresh
    obtain ⟨epoch, origin, seq⟩ := stretchShown_fields m
    exact ⟨t, next, dlv, by rw [shown, epoch], by rw [shown, origin], by rw [shown, seq], last, words⟩
  · exact ⟨_, genNoticeReceive_first far request fresh other unknown, rfl, State.podGen_learnGen _ _ _ m.gen.isLt, rfl⟩
  · rcases row with ⟨rfl, rfl⟩ | ⟨rfl, rfl⟩
    · exact (congrArg (done s) (State.repeatForwards_live rfl few)).trans (done_eq_next rfl rfl)
    · exact (congrArg (done s) (State.repeatForwards_live rfl few)).trans (done_eq_next rfl rfl)

end Sys2Proof
end

section
/-! SUPPORT. What the resets of VIs and the Rounds of a stepped counter leave of the exchange of TIME-SYNC (R142, R234, R356). -/

namespace Sys2Proof.Machine

/-- What each step of a list keeps, the list keeps. -/
theorem State.foldl_keeps {α β : Type} (g : State → β) {f : State → α → State} (h : ∀ s x t, t = f s x → g t = g s) (l : List α) (s : State) :
    g (l.foldl f s) = g s := by
  induction l generalizing s with
  | nil => rfl
  | cons x l ih => rw [List.foldl_cons, ih, h s x _ rfl]

/-! ### Requests -/

@[simp] theorem State.sendReq_tim (s : State) (own : Bool) (ga route : Nat) (m : List Pip) : (s.sendReq own ga route m).tim = s.tim := by
  unfold State.sendReq
  split
  · rfl
  · exact s.emit_tim _

theorem State.issue_tim {s t : State} {kind owner ring arg vi ga : Nat} {mk : Nat → Nat → List Pip} {route : Nat}
    (h : s.issue kind owner ring arg vi ga mk route = some t) : t.tim = s.tim := by
  unfold State.issue at h
  split at h
  · exact absurd h (by simp)
  · rw [← Option.some.inj h, State.sendReq_tim]

@[simp] theorem State.pumpWrites_tim (s : State) (n : Nat) : (s.pumpWrites n).tim = s.tim := by
  induction n generalizing s with
  | zero => rfl
  | succ n ih =>
    unfold State.pumpWrites
    split
    · rfl
    · split
      · rfl
      · rename_i h
        have same := State.issue_tim h
        exact (ih _).trans same

theorem issueList_tim {l : List (State → Option State)} (h : ∀ f ∈ l, ∀ s t : State, f s = some t → t.tim = s.tim) :
    ∀ s : State, (issueList s l).1.tim = s.tim := by
  induction l with
  | nil => exact fun _ => rfl
  | cons f l ih =>
    intro s
    unfold issueList
    split
    · rfl
    · rename_i t ht
      exact (ih (fun g hg => h g (List.mem_cons_of_mem _ hg)) t).trans (h f List.mem_cons_self s t ht)

theorem State.askAhead_tim {kind key vi : Nat} {p : Nat × Nat} {s t : State} (h : State.askAhead kind key vi p s = some t) : t.tim = s.tim := by
  obtain ⟨u, hu, ht⟩ := Option.map_eq_some_iff.1 h
  have same : t.tim = u.tim := by rw [← ht]
  exact same.trans (State.issue_tim hu)

theorem State.refillBy_tim (s : State) {asks : Nat → Nat → Nat → List (State → Option State)}
    (h : ∀ w limit vi, ∀ f ∈ asks w limit vi, ∀ s t : State, f s = some t → t.tim = s.tim) (o : Option (Nat × Nat × Nat)) :
    (s.refillBy asks o).tim = s.tim := by
  match o with
  | none => rfl
  | some (w, limit, vi) => exact issueList_tim (h w limit vi) s

@[simp] theorem State.refill_tim (s : State) (key : Nat) : (s.refill key).tim = s.tim := by
  rw [State.refill_eq]
  refine State.refillBy_tim s (fun w limit vi f hf s t ht => ?_) _
  obtain ⟨kind, p, rfl⟩ := State.mem_windowAsks hf
  exact State.askAhead_tim ht

/-! ### Resets of VIs, R234 and R235 -/

@[simp] theorem State.dropAhead_tim (s : State) (key : Nat) : (s.dropAhead key).tim = s.tim := by
  unfold State.dropAhead
  extract_lets cut _ t
  have same : t.tim = s.tim := rfl
  clear_value t
  split
  · split
    · exact (State.setF_tim _ _ _).trans same
    · exact same
  · exact same

@[simp] theorem State.freeVi_tim (s : State) (v : Nat) : (s.freeVi v).tim = s.tim := by
  unfold State.freeVi
  extract_lets gone freed hit keys _ _ s1 s2
  have dropped : (keys.foldl State.dropAhead s1).tim = s1.tim :=
    State.foldl_keeps State.tim (fun u k _ h => (congrArg State.tim h).trans (u.dropAhead_tim k)) keys s1
  have pumped : s2.tim = s1.tim := (State.pumpWrites_tim _ _).trans dropped
  exact (State.foldl_keeps State.tim (fun u k _ h => (congrArg State.tim h).trans (u.refill_tim k)) _ s2).trans pumped

@[simp] theorem State.stopRing_tim (s : State) (n : Nat) : (s.stopRing n).tim = s.tim := by
  unfold State.stopRing State.dropPosted
  simp -implicitDefEqProofs only [State.setF_tim, State.setB_tim]

@[simp] theorem State.stopJob_tim (s : State) (j : Nat) : (s.stopJob j).tim = s.tim := by
  unfold State.stopJob State.setJob
  exact State.setB_tim _ _ _

@[simp] theorem State.setCtx_tim (s : State) (c : Nat) (x : Ctx) : (s.setCtx c x).tim = s.tim := rfl

@[simp] theorem State.viResetNow_tim (s : State) (v n : Nat) : (s.viResetNow v n).tim = s.tim := by
  have ring (b : Bool) (u : State) (r : Nat) :
      (if b then ((u.stopRing r).setB (MOV_RING_CFG_STOPPED r) false).setB (MOV_RING_CFG_BOUND r) false
        else (u.stopRing r).setB (MOV_RING_CFG_STOPPED r) false).tim = u.tim := by
    split <;> simp -implicitDefEqProofs only [State.setB_tim, State.stopRing_tim]
  unfold State.viResetNow
  extract_lets destroy rings jobs s1 s2 s3 s4 s5 mine own s6 cs s7 keys s8
  have ringed : s2.tim = s.tim := (State.foldl_keeps State.tim (fun u r _ h => (congrArg State.tim h).trans (ring destroy u r)) rings s1).trans
    ((State.setF_tim _ _ _).trans (State.setF_tim _ _ _))
  have stopped : s3.tim = s2.tim := State.foldl_keeps State.tim (fun u j _ h => (congrArg State.tim h).trans (u.stopJob_tim j)) jobs s2
  have freed : s4.tim = s3.tim := State.freeVi_tim s3 v
  have contexts : s7.tim = s6.tim := State.foldl_keeps State.tim (fun u c _ h => (congrArg State.tim h).trans (u.setCtx_tim c (u.ctxAfterReset c n))) cs s6
  rw [State.count_tim]
  exact contexts.trans (freed.trans (stopped.trans ringed))

@[simp] theorem State.viResets_tim (s : State) (n : Nat) : (s.viResets n).tim = s.tim :=
  State.foldl_keeps State.tim (fun u v _ h => (congrArg State.tim h).trans (u.viResetNow_tim v n)) _ s

@[simp] theorem State.takeResets_tim (s : State) (n : Nat) (late : Bool) : (s.takeResets n late).tim = s.tim := by
  unfold State.takeResets
  extract_lets c u
  have reset : u.tim = s.tim := s.viResets_tim n
  split
  · exact (State.foldl_keeps State.tim (fun u _ _ h => (congrArg State.tim h).trans (u.raise_tim 0x0404)) (List.range c) u).trans reset
  · exact reset

@[simp] theorem State.shares_tim (s : State) : s.shares.tim = s.tim := by
  unfold State.shares
  refine State.foldl_keeps State.tim (fun u v t h => ?_) _ s
  rw [h]
  simp -implicitDefEqProofs only [apply_ite State.tim, State.setB_tim, State.setF_tim, ite_self]

/-! ### Rounds after a step of the counter, R356 -/

@[simp] theorem State.applyLen_sync (s : State) : s.applyLen.tim.sync = s.tim.sync := by
  unfold State.applyLen
  simp only
  split <;> rfl

@[simp] theorem State.applyStretch_sync (s : State) (n : Nat) : (s.applyStretch n).tim.sync = s.tim.sync := by
  unfold State.applyStretch
  simp only
  split <;> rfl

@[simp] theorem State.beginRound_sync (s : State) (n b : Nat) : (s.beginRound n b).tim.sync = s.tim.sync := rfl

@[simp] theorem State.walkRounds_sync (s : State) (fuel n b : Nat) : (s.walkRounds fuel n b).tim.sync = s.tim.sync := by
  induction fuel generalizing s n b with
  | zero => rfl
  | succ fuel ih =>
    unfold State.walkRounds
    simp only
    split
    · rfl
    · rw [ih, State.applyStretch_sync]

/-- A counter that is stepped leaves the replies still expected as they were (R356). -/
@[simp] theorem State.recount_sync (s : State) : s.recount.tim.sync = s.tim.sync := by
  unfold State.recount
  extract_lets n b c u1 u2 m u3 v
  split
  · split
    · rfl
    · have began : u2.tim.sync = s.tim.sync := by
        show (u1.walkRounds 9 (n + 1) c).tim.sync = _
        rw [State.walkRounds_sync]
        show ((s.applyLen.applyStretch (n + 1)).beginRound (n + 1) c).tim.sync = _
        rw [State.beginRound_sync, State.applyStretch_sync, State.applyLen_sync]
      have reset : u3.tim = u2.tim :=
        (State.foldl_keeps State.tim (fun u r _ h => (congrArg State.tim h).trans (u.takeResets_tim r true)) _ u2.shares).trans u2.shares_tim
      exact (congrArg Tim.sync reset).trans began
  · split <;> rfl

end Sys2Proof.Machine
end

section
/-! SUPPORT. Replies of TIME-SYNC: the one-way delay, and the step that sets `SYNCED` (R142, R296). -/

namespace Sys2Proof.Machine

/-! ### Stage 8 passes -/

/-- What the counter has been measured by is over (R144). -/
def State.driftOver (s : State) : State := { s with tim := { s.tim with e0 := none, early := 0, lateB := 0, outTol := 0 } }

theorem State.driftOver_getB (s : State) (f : Fld) : s.driftOver.getB f = s.getB f := rfl
theorem State.driftOver_sync (s : State) : s.driftOver.tim.sync = s.tim.sync := rfl

/-- D is declared (R151). -/
def State.declared (s : State) : State := s.setFs [(TIME_DECL_DECL, s.declNow), (TIME_DECL_VALID, 1)]

theorem State.stageEnter_compute (s : State) : s.stageEnter 9 = s := by
  unfold State.stageEnter
  simp only [Nat.reduceEqDiff, if_false]

theorem State.stagePass_synchronise (s : State) (o : Nat) :
    s.stagePass 8 o = if !s.starting || s.stage != 8 then s else (s.stagePassed 8 o).driftOver.declared := by
  have enters : s.stagePass 8 o = if !s.starting || s.stage != 8 then s else (s.stagePassed 8 o).driftOver.declared.stageEnter 9 := by
    unfold State.stagePass
    rw [if_pos (rfl : (8 : Nat) = 8)]
    rfl
  rw [enters, State.stageEnter_compute]

theorem State.declared_plainKept (s : State) : PlainKept [TIME_DECL] s s.declared := s.setFs_plainKept fun p hp => by
  rcases List.mem_cons.1 hp with rfl | hp
  · exact List.mem_singleton.2 rfl
  · rw [List.mem_singleton.1 hp]
    exact List.mem_singleton.2 rfl

/-- Stage 8 passes without a word of `TIME_STATUS` (R296). -/
theorem State.stagePass_synced (s : State) (o : Nat) : (s.stagePass 8 o).getB TIME_STATUS_SYNCED = s.getB TIME_STATUS_SYNCED
    ∧ (s.stagePass 8 o).tim.sync = s.tim.sync := by
  rw [State.stagePass_synchronise]
  split
  · exact ⟨rfl, rfl⟩
  · have passed := (s.stagePassed_plainKept 8 o).getB TIME_STATUS_SYNCED (.inl (by decide)) (by decide)
    have declared := (s.stagePassed 8 o).driftOver.declared_plainKept.getB TIME_STATUS_SYNCED (.inl (by decide)) (by decide)
    have tim : (s.stagePassed 8 o).driftOver.declared.tim = (s.stagePassed 8 o).driftOver.tim := State.setFs_tim _ _
    exact ⟨by rw [declared, State.driftOver_getB, passed], by rw [tim, State.driftOver_sync, State.stagePassed_tim]⟩

/-- A step of the counter sets `SYNCED`, and leaves the replies still expected as they were (R142, R356). -/
theorem State.stepDie_synced (s : State) (d : BitVec 64) : (s.stepDie d).getB TIME_STATUS_SYNCED = true ∧ (s.stepDie d).tim.sync = s.tim.sync := by
  unfold State.stepDie
  extract_lets u
  have stepped : u.tim = s.tim := rfl
  clear_value u
  have set := State.getB_setB u.recount TIME_STATUS_SYNCED (by decide) rfl true
  have kept : (u.recount.setB TIME_STATUS_SYNCED true).tim = u.recount.tim := State.setB_tim _ _ _
  obtain ⟨synced, sync⟩ := (u.recount.setB TIME_STATUS_SYNCED true).stagePass_synced (if u.getB START_STATUS_UNSYNCED then 1 else 0)
  exact ⟨synced.trans set, by rw [sync, kept, State.recount_sync, stepped]⟩

/-! ### A reply, R142 -/

/-- A reply with this number is awaited no longer. -/
def State.replied (s : State) (id : Nat) : State := { s with tim := { s.tim with sync := s.tim.sync.filter (fun p => p.1 != id) } }

/-- A round trip is smaller than the best so far. -/
def betterTrip (rt : Int) : Option Int → Bool
  | none => true
  | some b => decide (rt < b)

/-- A field shows what the round trip `rt` gives. -/
def State.tripShown (s : State) (f : Fld) (n : Nat) (rt : Int) : State := { s.setF f n with tim := { s.tim with owdRt := some rt } }

/-- The one-way delay stands in `TIME_OWD`, of the round trip `rt` (R142). -/
def State.owdShown (s : State) (rt h : Int) : State := s.tripShown TIME_OWD_OWD (unsigned 24 h) rt

/-- A round trip, with the asymmetry `a`, is taken for the one-way delay where it is the smallest. -/
def State.owdTaken (s : State) (rt a : Int) : State :=
  if betterTrip rt s.tim.owdRt then
    let h := (rt + a) / 2 + (if (rt + a) % 2 = 0 then 0 else (s.freeNow.toNat % 2 : Nat))
    (if (rt + a) % 2 = 0 then s else s.takeFree).owdShown rt h
  else s

/-- Twice the offset of the clocks is that of the smallest round trip. -/
def State.thetaTaken (s : State) (rt theta2 : Int) : State :=
  if betterTrip rt s.tim.bestRt then { s with tim := { s.tim with bestRt := some rt, bestTheta := theta2 } } else s

/-- One more reply has been taken. -/
def State.oneAnswered (s : State) : State := { s with tim := { s.tim with answered := s.tim.answered + 1 } }

/-- After sixteen replies on the parent link the counter is stepped (R142). -/
def State.stepAfter16 (s : State) : State :=
  if s.tim.answered = 16 && s.isParent && !s.getB TIME_CTRL_MASTER && !s.getB TIME_STATUS_SYNCED then
    s.stepDie (BitVec.ofInt 64 (-(roundHalf s.tim.bestTheta 32)))
  else s

/-- The round trip of a reply to the request sent at `t1`. -/
def tripOf (m : SyncMsg) (t1 : Nat) : Int := (m.arrived - t1) - (m.tsend - m.trecv)

theorem State.onSyncReply_eq {s : State} {m : SyncMsg} {t1 : Nat} (awaited : s.tim.sync = [(m.id.toNat, t1)]) :
    ∃ theta2, s.onSyncReply m =
      let u := (s.replied m.id.toNat).owdTaken (tripOf m t1) (signed 16 (s.getF TIME_ASYM_ASYM))
      if u.isParent && !m.synced then u else ((u.thetaTaken (tripOf m t1) theta2).oneAnswered).stepAfter16 := by
  have found : s.tim.sync.find? (fun p => p.1 == m.id.toNat) = some (m.id.toNat, t1) := by
    rw [awaited]
    exact List.find?_cons_of_pos (beq_self_eq_true _)
  unfold State.onSyncReply
  rw [found]
  exact ⟨_, rfl⟩

/-! ### Off the parent link -/

theorem State.owdTaken_first {s : State} {rt a : Int} (first : s.tim.owdRt = none) (even : (rt + a) % 2 = 0) :
    s.owdTaken rt a = s.owdShown rt ((rt + a) / 2) := by
  have better : betterTrip rt s.tim.owdRt = true := by
    rw [first]
    rfl
  unfold State.owdTaken
  rw [if_pos better]
  simp only [if_pos even, Nat.cast_zero, add_zero]

/-- `t` stands as `s` in what a reply can only read: its registers, its die counter, the role of the link and what is awaited. -/
structure SyncStands (s t : State) : Prop where
  regs : t.regs = s.regs
  die : t.die = s.die
  place : t.place = s.place
  rival : t.tim.rival = s.tim.rival
  owdRt : t.tim.owdRt = s.tim.owdRt
  sync : t.tim.sync = s.tim.sync

theorem State.thetaTaken_stands (s : State) (rt theta2 : Int) : SyncStands s (s.thetaTaken rt theta2).oneAnswered := by
  unfold State.thetaTaken
  split <;> exact ⟨rfl, rfl, rfl, rfl, rfl, rfl⟩

theorem State.thetaTaken_answered (s : State) (rt theta2 : Int) : (s.thetaTaken rt theta2).oneAnswered.tim.answered = s.tim.answered + 1 := by
  unfold State.thetaTaken
  split <;> rfl

theorem SyncStands.rd {s t : State} (h : SyncStands s t) (off : Nat) : t.rd off = s.rd off := by
  unfold State.rd
  rw [h.regs]

theorem SyncStands.getB {s t : State} (h : SyncStands s t) (f : Fld) : t.getB f = s.getB f := State.getB_of_rd f (h.rd _)

theorem SyncStands.isParent {s t : State} (h : SyncStands s t) : t.isParent = s.isParent := by
  unfold State.isParent
  rw [State.getF_of_rd TIME_CTRL_ROLE (h.rd _), h.rival, h.place]

/-- What stands once a one-way delay has been shown. -/
structure OwdShown (s t : State) : Prop where
  words : WordsKept [TIME_OWD] s t
  die : t.die = s.die
  place : t.place = s.place
  rival : t.tim.rival = s.tim.rival
  answered : t.tim.answered = s.tim.answered
  sync : t.tim.sync = s.tim.sync

theorem State.tripShown_rd (s : State) (f : Fld) (n : Nat) (rt : Int) (off : Nat) : (s.tripShown f n rt).rd off = (s.setF f n).rd off := rfl
theorem State.tripShown_getF (s : State) (f g : Fld) (n : Nat) (rt : Int) : (s.tripShown f n rt).getF g = (s.setF f n).getF g := rfl

theorem State.tripShown_rest (s : State) (f : Fld) (n : Nat) (rt : Int) : (s.tripShown f n rt).die = s.die ∧ (s.tripShown f n rt).place = s.place
    ∧ (s.tripShown f n rt).tim = { s.tim with owdRt := some rt } := ⟨rfl, rfl, rfl⟩

theorem State.owdShown_shown (s : State) (rt h : Int) : OwdShown s (s.owdShown rt h) := by
  unfold State.owdShown
  obtain ⟨die, place, tim⟩ := s.tripShown_rest TIME_OWD_OWD (unsigned 24 h) rt
  refine ⟨fun off out => ?_, die, place, by rw [tim], by rw [tim], by rw [tim]⟩
  rw [State.tripShown_rd]
  exact s.rd_setF_ne TIME_OWD_OWD _ fun same => out (List.mem_singleton.2 same)

theorem State.owdShown_getF (s : State) (rt h : Int) : (s.owdShown rt h).getF TIME_OWD_OWD = unsigned 24 h := by
  have fits : unsigned 24 h < 2 ^ 24 := by
    unfold unsigned
    omega
  unfold State.owdShown
  rw [State.tripShown_getF, State.getF_setF _ _ (by decide)]
  exact Nat.mod_eq_of_lt fits

theorem OwdShown.trans {s t u : State} (h : OwdShown s t) (k : OwdShown t u) : OwdShown s u :=
  ⟨fun off out => (k.words off out).trans (h.words off out), k.die.trans h.die, k.place.trans h.place, k.rival.trans h.rival,
    k.answered.trans h.answered, k.sync.trans h.sync⟩

theorem State.owdTaken_shown (s : State) (rt a : Int) : OwdShown s (s.owdTaken rt a) := by
  have free : OwdShown s (if (rt + a) % 2 = 0 then s else s.takeFree) := by
    split <;> exact ⟨fun _ _ => rfl, rfl, rfl, rfl, rfl, rfl⟩
  unfold State.owdTaken
  split
  · exact free.trans (State.owdShown_shown _ _ _)
  · exact ⟨fun _ _ => rfl, rfl, rfl, rfl, rfl, rfl⟩

theorem OwdShown.isParent {s t : State} (h : OwdShown s t) : t.isParent = s.isParent := by
  unfold State.isParent
  rw [State.getF_of_rd TIME_CTRL_ROLE (h.words _ (by decide)), h.rival, h.place]

theorem OwdShown.getB {s t : State} (h : OwdShown s t) (f : Fld) (out : f.off ∉ [TIME_OWD]) : t.getB f = s.getB f := State.getB_of_rd f (h.words _ out)

end Sys2Proof.Machine

namespace Sys2Proof

open Machine

theorem tim_of_done {s u t : State} (h : done s u = .next t) : t.tim = u.tim := by
  cases h
  rfl

theorem die_of_done {s u t : State} (h : done s u = .next t) : t.die = u.die := by
  cases h
  rfl

/-- The replies still awaited once the only one has come. -/
theorem replied_sync {s : State} {id t1 : Nat} (awaited : s.tim.sync = [(id, t1)]) : (s.replied id).tim.sync = [] := by
  unfold State.replied
  simp only [awaited, bne_self_eq_false, Bool.false_eq_true, not_false_eq_true, List.filter_cons_of_neg, List.filter_nil]

section Reply

variable {s : State} {m : SyncMsg} {t1 : Nat} (awaited : s.tim.sync = [(m.id.toNat, t1)])
include awaited

/-- The first reply on a link that is not the parent link sets the one-way delay and is counted (R142). -/
theorem timeSyncReplyReceive_owd (other : s.isParent = false) (first : s.tim.owdRt = none)
    (even : (tripOf m t1 + signed 16 (s.getF TIME_ASYM_ASYM)) % 2 = 0) : ∃ t, exec (.timeSyncReplyReceive m) s = .next t
      ∧ t.getF TIME_OWD_OWD = unsigned 24 ((tripOf m t1 + signed 16 (s.getF TIME_ASYM_ASYM)) / 2) ∧ t.tim.owdRt = some (tripOf m t1)
      ∧ t.tim.sync = [] ∧ t.tim.answered = s.tim.answered + 1 ∧ t.die = s.die ∧ WordsKept [TIME_OWD] s t := by
  let a := signed 16 (s.getF TIME_ASYM_ASYM)
  let r := s.hear.replied m.id.toNat
  let u := r.owdShown (tripOf m t1) ((tripOf m t1 + a) / 2)
  have shown : OwdShown r u := r.owdShown_shown _ _
  have other' : u.isParent = false := shown.isParent.trans other
  obtain ⟨theta2, takes⟩ := State.onSyncReply_eq (s := s.hear) awaited
  have stands := u.thetaTaken_stands (tripOf m t1) theta2
  have taken : s.hear.onSyncReply m = (u.thetaTaken (tripOf m t1) theta2).oneAnswered := by
    have owd : (s.hear.replied m.id.toNat).owdTaken (tripOf m t1) (signed 16 (s.hear.getF TIME_ASYM_ASYM)) = u := State.owdTaken_first first even
    rw [takes, owd]
    simp only [other', Bool.false_and, Bool.false_eq_true, if_false]
    unfold State.stepAfter16
    rw [stands.isParent, other']
    simp only [Bool.and_false, Bool.false_and, Bool.false_eq_true, if_false]
  obtain ⟨t, next⟩ := done_next s (s.hear.onSyncReply m)
  have words : ∀ off, t.rd off = u.rd off := fun off => by rw [rd_of_done next, taken, stands.rd]
  have tim : t.tim = ((u.thetaTaken (tripOf m t1) theta2).oneAnswered).tim := (tim_of_done next).trans (congrArg State.tim taken)
  refine ⟨t, next, ?_, ?_, ?_, ?_, ?_, fun off out => (words off).trans (shown.words off out)⟩
  · rw [State.getF_of_rd TIME_OWD_OWD (words _), State.owdShown_getF]
  · rw [tim, stands.owdRt]
    rfl
  · rw [tim, stands.sync, shown.sync]
    exact replied_sync (s := s.hear) awaited
  · rw [tim, State.thetaTaken_answered, shown.answered]
    rfl
  · rw [die_of_done next, taken, stands.die, shown.die]
    rfl

/-- The sixteenth synced reply on the parent link steps the counter, which sets `SYNCED` (R142). -/
theorem timeSyncReplyReceive_steps (parent : s.isParent = true) (synced : m.synced = true) (last : s.tim.answered = 15)
    (unsynced : s.getB TIME_STATUS_SYNCED = false) (notSource : s.getB TIME_CTRL_MASTER = false) :
    ∃ t, exec (.timeSyncReplyReceive m) s = .next t ∧ t.getB TIME_STATUS_SYNCED = true ∧ t.tim.sync = [] := by
  let r := s.hear.replied m.id.toNat
  let u := r.owdTaken (tripOf m t1) (signed 16 (s.hear.getF TIME_ASYM_ASYM))
  have shown : OwdShown r u := r.owdTaken_shown _ _
  obtain ⟨theta2, takes⟩ := State.onSyncReply_eq (s := s.hear) awaited
  let v := (u.thetaTaken (tripOf m t1) theta2).oneAnswered
  have stands : SyncStands u v := u.thetaTaken_stands (tripOf m t1) theta2
  have answered : v.tim.answered = 16 := by
    rw [State.thetaTaken_answered, shown.answered]
    exact congrArg (· + 1) last
  have sixteenth : (v.tim.answered = 16 && v.isParent && !v.getB TIME_CTRL_MASTER && !v.getB TIME_STATUS_SYNCED) = true := by
    have isParent : v.isParent = true := (stands.isParent.trans shown.isParent).trans parent
    have master : v.getB TIME_CTRL_MASTER = false := ((stands.getB _).trans (shown.getB _ (by decide))).trans notSource
    have not : v.getB TIME_STATUS_SYNCED = false := ((stands.getB _).trans (shown.getB _ (by decide))).trans unsynced
    rw [answered, isParent, master, not]
    decide
  have steps : s.hear.onSyncReply m = v.stepDie (BitVec.ofInt 64 (-(roundHalf v.tim.bestTheta 32))) := by
    rw [takes, synced]
    simp only [Bool.not_true, Bool.and_false, Bool.false_eq_true, if_false]
    unfold State.stepAfter16
    exact if_pos sixteenth
  obtain ⟨set, sync⟩ := v.stepDie_synced (BitVec.ofInt 64 (-(roundHalf v.tim.bestTheta 32)))
  obtain ⟨t, next⟩ := done_next s (s.hear.onSyncReply m)
  refine ⟨t, next, ?_, ?_⟩
  · rw [State.getB_of_rd TIME_STATUS_SYNCED (rd_of_done next _), steps, set]
  · rw [tim_of_done next, steps, sync, stands.sync, shown.sync]
    exact replied_sync (s := s.hear) awaited

end Reply

theorem timeSyncRequestSend_queues {s : State} (going : s.syncOpen = true) : exec .timeSyncRequestSend s = .next { s with
    tim := { s.tim with syncId := (s.tim.syncId + 1) % 256 }
    dlv := { s.dlv with lc := s.dlv.lc ++ [⟨syncBody false ((s.tim.syncId + 1) % 256) (s.getB TIME_STATUS_SYNCED) 0, s.now⟩] } } := by
  show execTimeSyncRequestSend s = _
  unfold execTimeSyncRequestSend
  rw [going]
  rfl

theorem timeSyncRequestReceive_answers {s : State} (up : s.link = 4 ∨ s.link = 5) (m : SyncMsg) : exec (.timeSyncRequestReceive m) s = .next { s with
    dlv := { s.dlv with lc := s.dlv.lc ++ [⟨syncBody true m.id.toNat (s.getB TIME_STATUS_SYNCED) m.arrived, s.now⟩], heard := some s.now } } := by
  have up' : (s.hear.link = 4 || s.hear.link == 5) = true := by
    rcases up with h | h
    · rw [show s.hear.link = 4 from h]
      rfl
    · rw [show s.hear.link = 5 from h]
      rfl
  have answers : s.hear.onSyncReq m = s.hear.queueLc (syncBody true m.id.toNat (s.hear.getB TIME_STATUS_SYNCED) m.arrived) := if_pos up'
  show done s (s.hear.onSyncReq m) = _
  rw [answers]
  rfl

/-- Settles O25: a reply as it is taken, in three steps, and the step of the counter, which no action of the Rounds it passes takes the replies still
awaited from. -/
theorem timeIsExchanged : Obligations.TimeIsExchanged := by
  unfold Obligations.TimeIsExchanged
  refine fun s m => ⟨timeSyncRequestSend_queues, fun up => timeSyncRequestReceive_answers up m, fun t1 awaited => ⟨?_, ?_⟩⟩
  · intro rt a other first even
    exact timeSyncReplyReceive_owd awaited other first even
  · exact timeSyncReplyReceive_steps awaited

end Sys2Proof
end

section
/-! SUPPORT. What the end of sweeps, Shifts and repairs, the states of lanes and the answers of commands leave of reliable delivery and of what the link
shows: the words of LINK_FAIL, of the map and of delivery, the Bank, tags, and window writes that wait (R29, R47, R106, R129, R180). -/

namespace Sys2Proof.Machine

/-! ### The words, and what stands beside them -/

/-- The words of LINK_FAIL and of delivery, and with `map` those of the lane map. -/
def downWord (map : Bool) (off : Nat) : Bool :=
  off == LINK_FAIL || (map && decide (0x410 ≤ off ∧ off ≤ 0x418)) || decide (DLV_SEQ ≤ off ∧ off < 0x1100)

theorem downWord_iff {map : Bool} {off : Nat} :
    downWord map off = true ↔ off = 0x408 ∨ (map = true ∧ 0x410 ≤ off ∧ off ≤ 0x418) ∨ (0x1008 ≤ off ∧ off < 0x1100) := by
  unfold downWord
  simp only [Bool.or_eq_true, Bool.and_eq_true, beq_iff_eq, decide_eq_true_eq, or_assoc]
  simp only [LINK_FAIL, DLV_SEQ]

theorem downWord_mono {map : Bool} {off : Nat} (h : downWord map off = true) : downWord true off = true := by
  rw [downWord_iff] at h ⊢
  exact h.imp_right (Or.imp_left fun ⟨_, within⟩ => ⟨rfl, within⟩)

/-- A word above those of delivery, such as one of a stream, of Fold, of ageing or of a counter. -/
theorem downWord_high {map : Bool} {off : Nat} (h : 0x1100 ≤ off) : downWord map off = false := by
  rw [← Bool.not_eq_true, downWord_iff]
  omega

/-- A word of a lane. -/
theorem downWord_lane {map : Bool} {off : Nat} (low : 0x800 ≤ off) (high : off < 0x1000) : downWord map off = false := by
  rw [← Bool.not_eq_true, downWord_iff]
  omega

/-- Tags, window writes that wait for one, the Bank, and the cause of a Retrain. -/
def State.carried (s : State) : List Tag × List (Nat × Nat × Nat × List Byte) × List BankEntry × Nat :=
  (s.mov.tags, s.trn.writes, s.dlv.bank, s.lnk.cause)

/-- `t` shows the words of `downWord map`, the link's state and what is carried as `s` does. -/
structure LinkHeld (map : Bool) (s t : State) : Prop where
  rd : ∀ off, downWord map off = true → t.rd off = s.rd off
  link : t.link = s.link
  carried : t.carried = s.carried

theorem LinkHeld.refl (map : Bool) (s : State) : LinkHeld map s s := ⟨fun _ _ => rfl, rfl, rfl⟩

theorem LinkHeld.trans {map : Bool} {s t u : State} (h : LinkHeld map s t) (k : LinkHeld map t u) : LinkHeld map s u :=
  ⟨fun off w => (k.rd off w).trans (h.rd off w), k.link.trans h.link, k.carried.trans h.carried⟩

theorem LinkHeld.weaken {map : Bool} {s t : State} (h : LinkHeld true s t) : LinkHeld map s t := ⟨fun off w => h.rd off (downWord_mono w), h.link, h.carried⟩

theorem LinkHeld.foldl {α : Type} {map : Bool} {f : State → α → State} {l : List α} (h : ∀ s, ∀ x ∈ l, LinkHeld map s (f s x)) :
    ∀ s, LinkHeld map s (l.foldl f s) := by
  induction l with
  | nil => exact fun s => LinkHeld.refl map s
  | cons x l ih => exact fun s => (h s x List.mem_cons_self).trans (ih (fun s y hy => h s y (List.mem_cons_of_mem _ hy)) (f s x))

theorem LinkHeld.getF {map : Bool} {s t : State} (h : LinkHeld map s t) (f : Fld) (w : downWord map f.off = true) : t.getF f = s.getF f :=
  State.getF_of_rd f (h.rd _ w)

theorem LinkHeld.tags {map : Bool} {s t : State} (h : LinkHeld map s t) : t.mov.tags = s.mov.tags := congrArg Prod.fst h.carried
theorem LinkHeld.writes {map : Bool} {s t : State} (h : LinkHeld map s t) : t.trn.writes = s.trn.writes := congrArg (fun c => c.2.1) h.carried
theorem LinkHeld.bank {map : Bool} {s t : State} (h : LinkHeld map s t) : t.dlv.bank = s.dlv.bank := congrArg (fun c => c.2.2.1) h.carried
theorem LinkHeld.cause {map : Bool} {s t : State} (h : LinkHeld map s t) : t.lnk.cause = s.lnk.cause := congrArg (fun c => c.2.2.2) h.carried

/-- A step that leaves the registers leaves their words. -/
theorem LinkHeld.of_regs {s t : State} (regs : t.regs = s.regs) (carried : t.carried = s.carried) : LinkHeld true s t := by
  have rd : ∀ off, t.rd off = s.rd off := fun off => by
    unfold State.rd
    rw [regs]
  exact ⟨fun off _ => rd off, State.getF_of_rd _ (rd _), carried⟩

theorem State.lnk_linkHeld (s : State) {k : Lnk} (cause : k.cause = s.lnk.cause) : LinkHeld true s { s with lnk := k } :=
  LinkHeld.of_regs rfl (by unfold State.carried; rw [cause])

theorem State.age_linkHeld (s : State) (a : Age) : LinkHeld true s { s with age := a } := LinkHeld.of_regs rfl rfl
theorem State.strt_linkHeld (s : State) (a : Strt) : LinkHeld true s { s with strt := a } := LinkHeld.of_regs rfl rfl
theorem State.lme_linkHeld (s : State) (a : Lme) : LinkHeld true s { s with lme := a } := LinkHeld.of_regs rfl rfl
theorem State.takeFree_linkHeld (s : State) : LinkHeld true s s.takeFree := LinkHeld.of_regs rfl rfl

/-- What keeps every plain word. -/
theorem LinkHeld.of_plain {s t : State} (rd : ∀ off, Plain off → t.rd off = s.rd off) (carried : t.carried = s.carried) : LinkHeld true s t := by
  refine ⟨fun off w => rd off (.inl ?_), State.getF_of_rd _ (rd _ (.inl (by decide))), carried⟩
  by_contra high
  rw [downWord_high (by omega)] at w
  exact Bool.false_ne_true w

/-! ### Fields, counters and events -/

@[simp] theorem State.setF_carried (s : State) (f : Fld) (n : Nat) : (s.setF f n).carried = s.carried := rfl

/-- A field stands in no word of `downWord`, and not in the state of the link. -/
structure Aloof (f : Fld) : Prop where
  out : downWord true f.off = false
  beside : f.off = LINK_STATUS → f.lo + f.w ≤ 28

theorem Aloof.high {f : Fld} (h : 0x1100 ≤ f.off) : Aloof f := ⟨downWord_high h, fun e => absurd (e ▸ h) (by decide)⟩

theorem Aloof.lane {f : Fld} (low : 0x800 ≤ f.off) (high : f.off < 0x1000) : Aloof f := ⟨downWord_lane low high, fun e => absurd (e ▸ low) (by decide)⟩

theorem Aloof.setF {f : Fld} (h : Aloof f) (s : State) (n : Nat) : LinkHeld true s (s.setF f n) := by
  refine ⟨fun off w => s.rd_setF_ne f n fun same => ?_, ?_, s.setF_carried f n⟩
  · rw [same, h.out] at w
    exact Bool.false_ne_true w
  · by_cases here : f.off = LINK_STATUS
    · have below := h.beside here
      exact s.getF_setF_ne f LINK_STATUS_STATE (by omega) n (.inr (.inr below))
    · exact s.getF_setF_apart n (Ne.symm here)

theorem Aloof.setB {f : Fld} (h : Aloof f) (s : State) (b : Bool) : LinkHeld true s (s.setB f b) := h.setF s _

theorem State.setFs_linkHeld (s : State) {l : List (Fld × Nat)} (h : ∀ p ∈ l, Aloof p.1) : LinkHeld true s (s.setFs l) :=
  LinkHeld.foldl (fun s p hp => (h p hp).setF s p.2) s

theorem State.count_linkHeld (s : State) {c : Cnt} (hc : 0x5000 ≤ c.off ∧ c.off < 0x57FC) (n : Nat) : LinkHeld true s (s.count c n) :=
  LinkHeld.of_plain (fun _ plain => s.rd_count c n hc plain) (by unfold State.carried; rw [State.count_mov, State.count_trn, State.count_dlv, State.count_lnk])

theorem State.raise_linkHeld (s : State) (c : Nat) : LinkHeld true s (s.raise c) :=
  LinkHeld.of_plain (fun _ plain => s.rd_raise c plain) (by unfold State.carried; rw [State.raise_mov, State.raise_trn, State.raise_dlv, State.raise_lnk])

theorem State.trace_linkHeld (s : State) (ty : Nat) (d : List Byte) : LinkHeld true s (s.trace ty d) :=
  LinkHeld.of_plain (fun _ plain => s.rd_trace ty d plain) (by unfold State.carried; rw [State.trace_mov, State.trace_trn, State.trace_dlv, State.trace_lnk])

theorem State.emit_linkHeld (s : State) (o : Out) : LinkHeld true s (s.emit o) :=
  LinkHeld.of_plain (s.emit_keeps o).rd (by unfold State.carried; rw [(s.emit_keeps o).mov, (s.emit_keeps o).trn, State.emit_dlv, (s.emit_keeps o).lnk])

/-! ### Answers of commands that end, R326 and R328 -/

theorem State.sendPacket_bank (s : State) (path : WvPath) (rpl : Bool) (p : List Byte) : (s.sendPacket path rpl p).dlv.bank = s.dlv.bank := by
  cases path with
  | mailbox =>
    unfold State.sendPacket
    dsimp only
    split
    · rw [State.mbxShows_dlv]
    · rfl
  | core =>
    unfold State.sendPacket State.packetToCore
    dsimp only
    split
    · rw [State.packetLeaves_dlv, State.emit_dlv]
    · rw [State.emit_dlv]
  | mgt => rfl
  | sb =>
    unfold State.sendPacket
    rw [State.packetLeaves_dlv, State.emit_dlv]

theorem State.wvReply_bank (s : State) (h : CmdHdr) (opc st : Nat) (d : List Byte) (again : Bool) : (s.wvReply h opc st d again).dlv.bank = s.dlv.bank := by
  have packets : ∀ l : List (List Byte), (s.sendPackets h.path l).dlv.bank = s.dlv.bank := fun l =>
    State.foldl_keeps (fun u => u.dlv.bank) (fun u p _ e => (congrArg (fun u : State => u.dlv.bank) e).trans (u.sendPacket_bank h.path true p)) l s
  unfold State.wvReply State.wvCounted
  split
  · exact packets _
  · rw [State.count_dlv]
    exact packets _

theorem State.wvReply_linkHeld (s : State) (h : CmdHdr) (opc st : Nat) (d : List Byte) (again : Bool) : LinkHeld true s (s.wvReply h opc st d again) := by
  have keeps := s.wvReply_keeps h opc st d again
  exact LinkHeld.of_plain keeps.rd (by unfold State.carried; rw [keeps.mov, keeps.trn, State.wvReply_bank, keeps.lnk])

theorem State.runEnds_linkHeld (s : State) (opc st : Nat) (d : List Byte) : LinkHeld true s (s.runEnds opc st d) := by
  unfold State.runEnds
  rw [State.runsEnd_eq]
  exact (s.lme_linkHeld _ : LinkHeld true s (s.runsDropped fun r => r.opc == opc)).trans (LinkHeld.foldl (fun u r _ => u.wvReply_linkHeld r.h r.opc st d false) _)

/-! ### Lanes, R29 -/

theorem lanes_le {s : State} {l : Nat} (has : (s.lanes.contains l || l == 18) = true) : l ≤ 18 := by
  rcases Bool.or_eq_true_iff.1 has with h | h
  · exact (lanes_lt (List.contains_iff_mem.1 h)).le
  · exact (eq_of_beq h).le

/-- A field of a lane's words, where the instance can have the lane. -/
theorem LaneField.aloof {l : Nat} {f : Fld} (h : LaneField l f) (low : l ≤ 18) : Aloof f := by
  have word := h.word
  unfold laneWords at word
  simp only [LANE_STATUS, LANE_TXEQ, LANE_RXEQ, LANE_SNR, LANE_PAT, LANE_PRBS_ERR, List.mem_cons, List.not_mem_nil, or_false] at word
  exact Aloof.lane (by omega) (by omega)

section Lane

variable {l : Nat} (low : l ≤ 18)
include low

theorem State.applyRx_linkHeld (s : State) (v : Nat) : LinkHeld true s (s.applyRx l v) := by
  refine s.setFs_linkHeld fun p hp => ?_
  rcases List.mem_cons.mp hp with rfl | hp
  · exact (LaneField.rxeq rfl (of_decide_eq_true rfl)).aloof low
  · obtain rfl := List.mem_singleton.mp hp
    exact (LaneField.rxeq rfl (of_decide_eq_true rfl)).aloof low

theorem State.applyTx_linkHeld (s : State) (v : Nat) : LinkHeld true s (s.applyTx l v) := by
  refine s.setFs_linkHeld fun p hp => ?_
  simp only [List.mem_cons, List.not_mem_nil, or_false] at hp
  rcases hp with rfl | rfl | rfl | rfl | rfl <;> exact (LaneField.txeq rfl (of_decide_eq_true rfl)).aloof low

theorem State.patEnds_linkHeld (s : State) : LinkHeld true s (s.patEnds l) := by
  have counted : LinkHeld true s (s.patCounted l) := by
    unfold State.patCounted
    split
    · exact (((LaneField.errors (f := LANE_PRBS_ERR_COUNT l) rfl (of_decide_eq_true rfl)).aloof low).setF s _).trans (State.takeFree_linkHeld _)
    · exact LinkHeld.refl true s
  rw [State.patEnds_eq]
  exact (counted.trans (((LaneField.pat (f := LANE_PAT_RUN l) rfl (of_decide_eq_true rfl)).aloof low).setB _ _)).trans
    (((LaneField.pat (f := LANE_PAT_LOCK l) rfl (of_decide_eq_true rfl)).aloof low).setB _ _)

theorem State.applyPending_linkHeld (s : State) : LinkHeld true s (s.applyPending l) := by
  have tx : LinkHeld true s (s.tookPendingTx l) := by
    unfold State.tookPendingTx
    split
    · exact LinkHeld.refl true s
    · exact (State.applyTx_linkHeld low s _).trans
        (((LaneField.status (f := LANE_STATUS_TXEQ_PEND l) rfl (of_decide_eq_true rfl) (of_decide_eq_true rfl)).aloof low).setB _ _)
  have rx (t : State) : LinkHeld true t (t.tookPendingRx l) := by
    unfold State.tookPendingRx
    split
    · exact LinkHeld.refl true t
    · exact (State.applyRx_linkHeld low t _).trans (((LaneField.rxeq (f := LANE_RXEQ_RXEQ_PEND l) rfl (of_decide_eq_true rfl)).aloof low).setB _ _)
  rw [State.applyPending_eq]
  exact (tx.trans (rx _)).trans (State.age_linkHeld _ _)

theorem State.laneEntered_linkHeld (s : State) (old st : Nat) : LinkHeld true s (s.laneEntered l old st) := by
  have mode (t : State) : LinkHeld true t (t.laneModeShown l st) :=
    ((LaneField.status (f := LANE_STATUS_MODE l) rfl (of_decide_eq_true rfl) (of_decide_eq_true rfl)).aloof low).setF t _
  have adapt (t : State) : LinkHeld true t (t.adaptShown l st) := by
    unfold State.adaptShown
    split
    · exact LinkHeld.refl true t
    · exact ((LaneField.rxeq (f := LANE_RXEQ_ADAPT l) rfl (of_decide_eq_true rfl)).aloof low).setB t _
  have pat (t : State) : LinkHeld true t (t.patLeft l st) := by
    unfold State.patLeft
    split
    · exact LinkHeld.refl true t
    · exact State.patEnds_linkHeld low t
  have adapted (t : State) : LinkHeld true t (t.adaptLeft l old st) := by
    unfold State.adaptLeft
    split
    · exact (State.applyRx_linkHeld low t _).trans (State.takeFree_linkHeld _)
    · exact LinkHeld.refl true t
  have snr (t : State) : LinkHeld true t (t.snrFresh l old st) := by
    unfold State.snrFresh
    split
    · exact ((LaneField.snr (f := LANE_SNR_VALID l) rfl (of_decide_eq_true rfl)).aloof low).setB t _
    · exact LinkHeld.refl true t
  have pending (t : State) : LinkHeld true t (t.pendingLeft l old st) := by
    unfold State.pendingLeft
    split
    · exact State.applyPending_linkHeld low t
    · exact LinkHeld.refl true t
  unfold State.laneEntered
  exact (((((mode s).trans (adapt _)).trans (pat _)).trans (adapted _)).trans (snr _)).trans (pending _)

end Lane

/-- A lane enters a state, or nothing changes: it is Retired, or the instance does not have it (R29). -/
theorem State.setLane_cases (s : State) (l st : Nat) :
    s.setLane l st = s ∨ l ≤ 18 ∧ s.setLane l st = (s.setF (LANE_STATUS_STATE l) st).laneEntered l (s.laneState l) st := by
  by_cases may : (!(s.lanes.contains l || l == 18) || (decide (s.laneState l = 5) && st != 0)) = true
  · exact .inl (if_pos may)
  · have has : (s.lanes.contains l || l == 18) = true := by
      by_contra not
      rw [Bool.not_eq_true] at not
      exact may (by rw [not]; rfl)
    refine .inr ⟨lanes_le has, (if_neg may).trans ?_⟩
    unfold State.laneEntered State.pendingLeft State.snrFresh State.adaptLeft State.patLeft State.adaptShown State.laneModeShown
    rfl

/-- A lane that enters a state, or one that the instance does not have (R29). -/
theorem State.setLane_linkHeld (s : State) (l st : Nat) : LinkHeld true s (s.setLane l st) := by
  rcases s.setLane_cases l st with same | ⟨low, enters⟩
  · rw [same]
    exact LinkHeld.refl true s
  · have state : Aloof (LANE_STATUS_STATE l) := Aloof.lane (by simp only [LANE_STATUS_STATE]; omega) (by simp only [LANE_STATUS_STATE]; omega)
    rw [enters]
    exact (state.setF s st).trans (State.laneEntered_linkHeld low _ _ _)

theorem State.setLanes_linkHeld (s : State) (ls : List Nat) (st : Nat) : LinkHeld true s (s.setLanes ls st) :=
  LinkHeld.foldl (fun u l _ => u.setLane_linkHeld l st) s

/-- `FREE` stands in the word of the link's state, beside it (R121). -/
theorem State.refree_linkHeld (s : State) : LinkHeld true s s.refree :=
  Aloof.setF (f := LINK_STATUS_FREE) ⟨by decide, fun _ => by decide⟩ s _

theorem State.exclude_linkHeld (s : State) (mask : Nat) : LinkHeld true s (s.exclude mask) :=
  (Aloof.setF (f := LINK_EXCL_EXCL) ⟨by decide, fun e => absurd e (by decide)⟩ s _).trans (State.refree_linkHeld _)

/-! ### Sweeps, repairs and Shifts that end, R47, R129 and R136 -/

theorem State.abandonSweep_linkHeld (s : State) : LinkHeld true s s.abandonSweep := by
  cases h : s.age.sweep with
  | none =>
    unfold State.abandonSweep
    rw [h]
    exact LinkHeld.refl true s
  | some w =>
    have hidden (u : State) : LinkHeld true u (u.sweepHidden w) := by
      unfold State.sweepHidden
      split
      · rename_i has
        have low := lanes_lt (List.contains_iff_mem.1 has)
        exact (Aloof.lane (f := LANE_STATUS_SWEEP w.lane) (by simp only [LANE_STATUS_SWEEP]; omega) (by simp only [LANE_STATUS_SWEEP]; omega)).setB u false
      · exact LinkHeld.refl true u
    rw [State.abandonSweep_eq h]
    exact (((s.count_linkHeld (by decide) 1).trans (hidden _)).trans (State.runEnds_linkHeld _ _ _ _)).trans (State.age_linkHeld _ _)

/-- A map placed leaves all but its own words (R121). -/
theorem State.setMap_linkHeld (s : State) (m : List Nat) : LinkHeld false s (s.setMap m) := by
  have position (u : State) (p v : Nat) (hp : p ∈ List.range 16) : LinkHeld false u (u.setF (LINK_MAP_POS p) v) := by
    have within : 0x410 ≤ (LINK_MAP_POS p).off ∧ (LINK_MAP_POS p).off ≤ 0x418 := by
      have := List.mem_range.1 hp
      simp only [LINK_MAP_POS]
      omega
    refine ⟨fun off w => u.rd_setF_ne _ _ fun same => ?_, u.getF_setF_apart _ fun same => ?_, rfl⟩
    · rw [downWord_iff, same] at w
      simp only [Bool.false_eq_true, false_and, false_or] at w
      omega
    · simp only [LINK_STATUS_STATE] at same
      omega
  have placed (u : State) (l v : Nat) (hl : l ∈ s.lanes) : LinkHeld true u (u.setF (LANE_STATUS_POS l) v) := by
    have low := lanes_lt hl
    exact (Aloof.lane (by simp only [LANE_STATUS_POS]; omega) (by simp only [LANE_STATUS_POS]; omega)).setF u v
  unfold State.setMap
  extract_lets u
  have lanes : u.lanes = s.lanes := congrArg laneList (State.foldl_keeps State.place (fun v p _ e => (congrArg State.place e).trans (v.setF_place _ _)) _ s)
  have positions : LinkHeld false s u := LinkHeld.foldl (fun v p hp => position v p _ hp) s
  refine positions.trans (LinkHeld.foldl (fun v l hl => (placed v l _ (lanes ▸ hl)).weaken) u)

/-- The receiving direction is again as the sending one (R129). -/
def State.rxRestored (s : State) : State := { s with lnk := { s.lnk with rxMap := s.mapList, rxMode := s.getF LINK_STATUS_MODE } }

theorem State.unswitch_linkHeld (s : State) : LinkHeld false s s.unswitch := by
  unfold State.unswitch
  split
  · exact LinkHeld.refl false s
  · split
    · exact (s.lnk_linkHeld rfl : LinkHeld true s s.rxRestored).weaken
    · split
      · exact (s.setMap_linkHeld _).trans (Aloof.setF (f := LINK_STATUS_MODE) ⟨by decide, fun _ => by decide⟩ _ _).weaken
      · exact LinkHeld.refl false s

/-- What a Shift in progress or proposed has noted is dropped (R129). -/
def State.shiftDropped (s : State) : State :=
  { s with lnk := { s.lnk with shiftOwn := none, shiftPeer := none, shiftWait := none, again := false, keep := none, effgDue := false, mergeOwn := none,
                               rxGap := false, peerOut := none, commit := none, rxDone := false, gap := false, shiftSends := 0 } }

theorem State.cancelShift_eq (s : State) :
    ∃ pend, s.cancelShift = (((s.unswitch.exclude pend).setF LINK_SHIFT_PHASE 0).runEnds 0x12 0x0D []).shiftDropped := ⟨_, rfl⟩

theorem State.cancelShift_linkHeld (s : State) : LinkHeld false s s.cancelShift := by
  obtain ⟨pend, cancels⟩ := s.cancelShift_eq
  have phase := Aloof.setF (f := LINK_SHIFT_PHASE) ⟨by decide, fun e => absurd e (by decide)⟩ (s.unswitch.exclude pend) 0
  have dropped (u : State) : LinkHeld true u u.shiftDropped := u.lnk_linkHeld rfl
  rw [cancels]
  exact s.unswitch_linkHeld.trans ((((State.exclude_linkHeld _ pend).trans phase).trans (State.runEnds_linkHeld _ _ _ _)).trans (dropped _)).weaken

theorem State.unprepare_linkHeld (s : State) (l : Nat) : LinkHeld true s (s.unprepare l) := by
  unfold State.unprepare
  split
  · exact LinkHeld.refl true s
  · exact s.setLane_linkHeld l 1

/-- Nothing is in preparation, and no request of it is awaited (R129). -/
def State.repairDropped (s : State) : State := { s with lnk := { s.lnk with eqs := [], repair := none } }

theorem State.dropRepair_linkHeld (s : State) : LinkHeld true s s.dropRepair := by
  have castling := Aloof.setB (f := LINK_STATUS_CASTLING) ⟨by decide, fun _ => by decide⟩ s false
  unfold State.dropRepair
  extract_lets u
  split
  · exact castling.trans (u.lnk_linkHeld rfl)
  · rename_i r _
    have gone : LinkHeld true u u.repairDropped := u.lnk_linkHeld rfl
    exact ((castling.trans gone).trans (u.repairDropped.unprepare_linkHeld r.s)).trans (LinkHeld.foldl (fun w p _ => w.unprepare_linkHeld (Prod.fst p)) _)

theorem State.cancelRepair_linkHeld (s : State) : LinkHeld true s s.cancelRepair := s.dropRepair_linkHeld.trans (State.runEnds_linkHeld _ _ _ _)

theorem State.parentLost_linkHeld (s : State) : LinkHeld true s s.parentLost := by
  have lost : Aloof TIME_STATUS_PARENT_LOST := Aloof.high (by decide)
  unfold State.parentLost
  split
  · exact LinkHeld.refl true s
  · split
    · exact LinkHeld.refl true s
    · exact (lost.setB s true).trans (State.raise_linkHeld _ _)

/-- The link enters a state: the words of the map and of delivery stay, and what is carried (R109). -/
structure LinkEnters (st : Nat) (s t : State) : Prop where
  link : t.link = st
  rd : ∀ off, downWord true off = true → t.rd off = s.rd off
  carried : t.carried = s.carried

theorem State.setLink_carried (s : State) (st cause : Nat) : (s.setLink st cause).carried = s.carried := by
  have traced (u : State) (old w : Nat) : (u.linkTraced old st cause w).carried = u.carried := by
    unfold State.linkTraced
    split
    · exact (u.trace_linkHeld _ _).carried
    · rfl
  have since (u : State) : u.sinceNow.carried = u.carried := rfl
  rw [State.setLink_eq, traced, since]
  unfold State.linkShown
  rw [State.setF_carried, State.setF_carried]

theorem State.setLink_enters (s : State) {st : Nat} (cause : Nat) (fits : st < 16) : LinkEnters st s (s.setLink st cause) := by
  refine ⟨s.setLink_link cause fits, fun off w => ?_, s.setLink_carried st cause⟩
  rw [downWord_iff] at w
  exact s.setLink_words st cause (.inl (by omega)) (by simp only [LINK_STATUS]; omega)

end Sys2Proof.Machine
end

section
/-! SUPPORT. The ack timer and the Retrain that it can start (R88, R89, R129), and what is done to each channel in turn (R100, R101, R105, R243). -/

namespace Sys2Proof.Machine

/-! ### A Retrain starts, R129 -/

/-- What a Retrain notes as it starts (R129). -/
def State.retrainNoted (s : State) (cause : Nat) : State :=
  { s with lnk := { s.lnk with cause := cause, retrainAt := s.now, checkFail := 0, ownPass := 0, peerPass := none, passSent := false,
                               ownReady := none, peerReady := none, msgs := [], wait := [] } }

/-- A Far instance sends four RETRAIN messages first. -/
def State.retrainUrged (s : State) (cause : Nat) : State :=
  if s.far then
    { s with dlv := { s.dlv with urgent := s.dlv.urgent ++ List.replicate 4 ⟨beBytes 1 0x23 ++ beBytes 1 cause, s.tick⟩ } } else s

/-- Lanes train, and those that fall out of the link stand by. -/
def State.retrainLanes (s : State) (usable : List Nat) : State :=
  let s := s.setLanes usable 2
  s.setLanes (s.lanes.filter (fun l => s.laneState l == 3 && !s.usableLanes.contains l)) 1

/-- RETRAIN is said until it is answered. -/
def State.retrainSaid (s : State) (cause : Nat) : State :=
  if s.far then { s with lnk := { s.lnk with msgs := [⟨8, beBytes 1 cause, 0, s.now⟩] } } else s.sayUntil 8 (beBytes 1 cause)

/-- Lanes with a bad verdict are excluded. -/
def State.badExcluded (s : State) : State := s.exclude s.badVerdicts

/-- What precedes the state of a Retrain as it starts (R129). -/
def State.retrainReady (s : State) (cause : Nat) : State :=
  ((s.abandonSweep.cancelShift.cancelRepair.badExcluded.count CNT_RETRAIN).retrainNoted cause).retrainUrged cause

theorem State.retrainStart_eq (s : State) (cause : Nat) : s.retrainStart cause =
    ((((s.retrainReady cause).setLink 6 cause).retrainLanes (s.retrainReady cause).usableLanes).retrainSaid cause).refree.parentLost := by
  unfold State.retrainStart
  extract_lets a b _ _ _ ready trains lanes _ said
  have isReady : ready = s.retrainReady cause := rfl
  clear_value ready
  subst isReady
  have isLanes : lanes = ((s.retrainReady cause).setLink 6 cause).retrainLanes (s.retrainReady cause).usableLanes := rfl
  clear_value lanes
  have isSaid : said = lanes.retrainSaid cause := rfl
  rw [isSaid, isLanes]

theorem State.retrainNoted_shows (s : State) (cause : Nat) : (s.retrainNoted cause).lnk.cause = cause ∧ (s.retrainNoted cause).dlv = s.dlv := ⟨rfl, rfl⟩

theorem State.retrainUrged_keeps (s : State) (cause : Nat) : (s.retrainUrged cause).lnk = s.lnk ∧ (s.retrainUrged cause).dlv.bank = s.dlv.bank := by
  unfold State.retrainUrged
  split <;> exact ⟨rfl, rfl⟩

theorem State.sayUntil_linkHeld (s : State) (tcode : Nat) (body : List Byte) : LinkHeld true s (s.sayUntil tcode body) :=
  (s.emit_linkHeld _).trans (State.lnk_linkHeld _ rfl)

theorem State.retrainSaid_linkHeld (s : State) (cause : Nat) : LinkHeld true s (s.retrainSaid cause) := by
  unfold State.retrainSaid
  split
  · exact s.lnk_linkHeld rfl
  · exact s.sayUntil_linkHeld 8 _

theorem State.retrainLanes_linkHeld (s : State) (usable : List Nat) : LinkHeld true s (s.retrainLanes usable) :=
  (s.setLanes_linkHeld _ 2).trans (State.setLanes_linkHeld _ _ 1)

theorem State.retrainUrged_noted (s : State) (cause : Nat) : ((s.retrainNoted cause).retrainUrged cause).lnk.cause = cause
    ∧ ((s.retrainNoted cause).retrainUrged cause).dlv.bank = s.dlv.bank := by
  obtain ⟨noted, unsent⟩ := s.retrainNoted_shows cause
  obtain ⟨urged, bank⟩ := (s.retrainNoted cause).retrainUrged_keeps cause
  exact ⟨(congrArg Lnk.cause urged).trans noted, bank.trans (congrArg Dlv.bank unsent)⟩

/-- What ends as a Retrain or an entry to Down begins. -/
theorem State.worksEnded_linkHeld (s : State) : LinkHeld false s s.abandonSweep.cancelShift.cancelRepair :=
  (s.abandonSweep_linkHeld.weaken.trans (State.cancelShift_linkHeld _)).trans (State.cancelRepair_linkHeld _).weaken

theorem State.badExcluded_linkHeld (s : State) : LinkHeld true s s.badExcluded := State.exclude_linkHeld _ _

theorem State.excludedCounted_linkHeld (s : State) : LinkHeld true s (s.badExcluded.count CNT_RETRAIN) :=
  s.badExcluded_linkHeld.trans (State.count_linkHeld _ (c := CNT_RETRAIN) (by decide) 1)

theorem State.retrainCounted_linkHeld (s : State) : LinkHeld false s (s.abandonSweep.cancelShift.cancelRepair.badExcluded.count CNT_RETRAIN) :=
  (State.worksEnded_linkHeld s).trans (State.excludedCounted_linkHeld s.abandonSweep.cancelShift.cancelRepair).weaken

theorem State.retrainReady_cause (s : State) (cause : Nat) : (s.retrainReady cause).lnk.cause = cause := by
  unfold State.retrainReady
  exact (State.retrainUrged_noted _ cause).1

theorem State.retrainReady_bank (s : State) (cause : Nat) : (s.retrainReady cause).dlv.bank = s.dlv.bank := by
  unfold State.retrainReady
  exact (State.retrainUrged_noted _ cause).2.trans s.retrainCounted_linkHeld.bank

theorem State.bank_of_carried {s t : State} (h : t.carried = s.carried) : t.dlv.bank = s.dlv.bank := congrArg (fun c => c.2.2.1) h
theorem State.cause_of_carried {s t : State} (h : t.carried = s.carried) : t.lnk.cause = s.lnk.cause := congrArg (fun c => c.2.2.2) h

/-- What follows the state of a Retrain as it starts. -/
theorem State.retrainStart_after (s : State) (cause : Nat) : LinkHeld true ((s.retrainReady cause).setLink 6 cause) (s.retrainStart cause) := by
  rw [State.retrainStart_eq]
  generalize (s.retrainReady cause).usableLanes = usable
  generalize (s.retrainReady cause).setLink 6 cause = u
  exact (((u.retrainLanes_linkHeld usable).trans (State.retrainSaid_linkHeld _ cause)).trans (State.refree_linkHeld _)).trans (State.parentLost_linkHeld _)

/-- A Retrain stands with its cause, and the Bank is kept (R129). -/
theorem State.retrainStart_starts (s : State) (cause : Nat) :
    (s.retrainStart cause).link = 6 ∧ (s.retrainStart cause).lnk.cause = cause ∧ (s.retrainStart cause).dlv.bank = s.dlv.bank := by
  have enters := (s.retrainReady cause).setLink_enters (st := 6) cause (by decide)
  have after := s.retrainStart_after cause
  have carried : (s.retrainStart cause).carried = (s.retrainReady cause).carried := after.carried.trans enters.carried
  exact ⟨after.link.trans enters.link, (State.cause_of_carried carried).trans (s.retrainReady_cause cause),
    (State.bank_of_carried carried).trans (s.retrainReady_bank cause)⟩

/-! ### The ack timer, R88 -/

/-- The ticks to the end of the ack timer have passed, and it is counted. -/
def State.acksLate (s : State) : State := (s.advanceTo (s.dlv.ackAt + max 1 (s.getF DLV_ACKTO_ACKTO))).count CNT_ACK_TO

/-- A replay begins after the last entry acknowledged, with the ack timer anew (R85, R88). -/
def State.rewound (s : State) (timer : Bool) : State :=
  { s with dlv := { s.dlv with replay := some (BitVec.ofNat 16 (s.getF DLV_BANK_ACKED + 1)), fresh := true, timer := timer, ackAt := s.now } }

theorem State.rewind_begins {s : State} (some_ : s.dlv.bank ≠ []) (few : s.dlv.noProgress ≠ max 1 (s.getF DLV_ACKTO_REPLAY_LIMIT)) (timer : Bool) :
    s.rewind timer = s.rewound timer := by
  unfold State.rewind
  rw [if_neg (by rwa [List.isEmpty_iff]), if_neg few]
  rfl

theorem State.rewind_retrains {s : State} (some_ : s.dlv.bank ≠ []) (spent : s.dlv.noProgress = max 1 (s.getF DLV_ACKTO_REPLAY_LIMIT)) (timer : Bool) :
    s.rewind timer = s.retrainNow 1 := by
  unfold State.rewind
  rw [if_neg (by rwa [List.isEmpty_iff]), if_pos spent]

/-- What the ticks to the end of the ack timer leave. -/
structure AcksLate (s u : State) : Prop where
  dlv : u.dlv = s.dlv
  pending : u.pending = s.pending
  place : u.place = s.place
  now : u.now = max s.now (s.dlv.ackAt + max 1 (s.getF DLV_ACKTO_ACKTO))
  words : PlainKept PassingWords s u
  counted : counted CNT_ACK_TO 1 s u

theorem State.acksLate_late {s : State} (clock : s.clockRuns = true) : AcksLate s s.acksLate := by
  unfold State.acksLate
  generalize due : s.dlv.ackAt + max 1 (s.getF DLV_ACKTO_ACKTO) = d
  have words : PlainKept PassingWords s (s.advanceTo d) := s.elapse_plainKept _
  refine ⟨by rw [State.count_dlv, State.advanceTo, State.elapse_dlv], by rw [State.count_pending, State.advanceTo, State.elapse_pending],
    by rw [State.count_place, State.advanceTo, State.elapse_place], by rw [State.count_now, State.advanceTo_now clock, due],
    words.trans (State.count_plainKept _ _ (by decide) 1), ?_⟩
  refine counted_narrow (u := s.advanceTo d) rfl (State.cnt_of_rd32 rfl ?_) rfl
  exact s.rd_elapse_uncounted _ (by decide) (by decide)

theorem exec_ackTimeout {s : State} (up : s.linkRuns = true ∨ s.link = 6) (some_ : s.dlv.bank ≠ []) :
    exec .ackTimeout s = done s (s.acksLate.rewind true) := by
  have due : ((s.linkRuns || s.link == 6) && !s.dlv.bank.isEmpty) = true := by
    have filled : s.dlv.bank.isEmpty = false := by
      rw [← Bool.not_eq_true, List.isEmpty_iff]
      exact some_
    rw [filled, Bool.not_false, Bool.and_true, Bool.or_eq_true, beq_iff_eq]
    exact up
  show execAckTimeout s = _
  unfold execAckTimeout
  rw [if_pos due]
  rfl

theorem ackTimeout_rewinds {s : State} (clock : s.clockRuns = true) (up : s.linkRuns = true ∨ s.link = 6) (some_ : s.dlv.bank ≠ [])
    (few : s.dlv.noProgress ≠ max 1 (s.getF DLV_ACKTO_REPLAY_LIMIT)) : ∃ t, exec .ackTimeout s = .next t ∧ counted CNT_ACK_TO 1 s t
      ∧ t.dlv = { s.dlv with
          replay := some (BitVec.ofNat 16 (s.getF DLV_BANK_ACKED + 1))
          fresh := true
          timer := true
          ackAt := t.now }
      ∧ t.now = max s.now (s.dlv.ackAt + max 1 (s.getF DLV_ACKTO_ACKTO)) ∧ PlainKept PassingWords s t := by
  have late := s.acksLate_late clock
  have limit := late.words.getF DLV_ACKTO_REPLAY_LIMIT (.inl (by decide)) (by decide)
  have acked := late.words.getF DLV_BANK_ACKED (.inl (by decide)) (by decide)
  have rewinds : s.acksLate.rewind true = s.acksLate.rewound true := State.rewind_begins (by rw [late.dlv]; exact some_) (by rw [late.dlv, limit]; exact few) true
  have rd (u : State) (off : Nat) : (u.rewound true).rd off = u.rd off := rfl
  have dlv (u : State) : (u.rewound true).dlv = { u.dlv with
      replay := some (BitVec.ofNat 16 (u.getF DLV_BANK_ACKED + 1)), fresh := true, timer := true, ackAt := (u.rewound true).now } := rfl
  have rest (u : State) : (u.rewound true).pending = u.pending ∧ (u.rewound true).place = u.place ∧ (u.rewound true).now = u.now := ⟨rfl, rfl, rfl⟩
  obtain ⟨pending, place, now⟩ := rest s.acksLate
  rw [exec_ackTimeout up some_, rewinds]
  refine ⟨_, done_eq_next (pending.trans late.pending) (place.trans late.place), ?_, ?_, now.trans late.now,
    fun off plain out => (rd _ off).trans (late.words off plain out)⟩
  · unfold counted
    rw [State.cnt_of_rd32 (s := s.acksLate) rfl (rd _ _)]
    exact late.counted
  · rw [dlv, late.dlv, acked]

theorem ackTimeout_retrains {s : State} (clock : s.clockRuns = true) (runs : s.linkRuns = true) (some_ : s.dlv.bank ≠ [])
    (spent : s.dlv.noProgress = max 1 (s.getF DLV_ACKTO_REPLAY_LIMIT)) :
    ∃ t, exec .ackTimeout s = .next t ∧ t.link = 6 ∧ t.lnk.cause = 1 ∧ t.dlv.bank = s.dlv.bank := by
  have late := s.acksLate_late clock
  have limit := late.words.getF DLV_ACKTO_REPLAY_LIMIT (.inl (by decide)) (by decide)
  have link : s.acksLate.link = s.link := late.words.getF LINK_STATUS_STATE (.inl (by decide)) (by decide)
  have retrains : s.acksLate.rewind true = s.acksLate.retrainStart 1 := by
    rw [State.rewind_retrains (by rw [late.dlv]; exact some_) (by rw [late.dlv, limit]; exact spent)]
    refine if_pos ?_
    rw [link]
    exact runs
  obtain ⟨up, cause, bank⟩ := s.acksLate.retrainStart_starts 1
  obtain ⟨t, next⟩ := done_next s (s.acksLate.retrainStart 1)
  refine ⟨t, ?_, ?_, ?_, ?_⟩
  · rw [exec_ackTimeout (.inl runs) some_, retrains, next]
  · exact (State.getF_of_rd LINK_STATUS_STATE (rd_of_done next _)).trans up
  · rw [lnk_of_done next, cause]
  · rw [dlv_of_done next, bank, late.dlv]

end Sys2Proof.Machine
end

section
/-! SUPPORT. What is done to each channel in turn: credits set, folded and compared, and the bucket of a capped one (R100, R101, R104, R105, R243). -/

namespace Sys2Proof.Machine

/-! ### Channel by channel -/

/-- What a step for each of a list's channels leaves of its own channel, the list leaves of all, where no step touches another's. -/
theorem foldl_each {S β : Type} {f : S → Nat → S} (holds : S → Prop) (g : S → Nat → β) (v : Nat → β) {l : List Nat}
    (keeps : ∀ s, ∀ c ∈ l, holds s → holds (f s c)) (own : ∀ s, ∀ c ∈ l, holds s → g (f s c) c = v c)
    (other : ∀ s, ∀ c ∈ l, ∀ d ∈ l, d ≠ c → holds s → g (f s c) d = g s d) :
    ∀ s, holds s → holds (l.foldl f s) ∧ ∀ d ∈ l, g (l.foldl f s) d = v d := by
  have general : ∀ k : List Nat, k ⊆ l → ∀ s, holds s → holds (k.foldl f s) ∧ (∀ d ∈ l, d ∉ k → g (k.foldl f s) d = g s d)
      ∧ ∀ d ∈ k, g (k.foldl f s) d = v d := by
    intro k
    induction k with
    | nil => exact fun _ s hs => ⟨hs, fun _ _ _ => rfl, fun _ hd => absurd hd List.not_mem_nil⟩
    | cons c k ih =>
      intro sub s hs
      have hc : c ∈ l := sub List.mem_cons_self
      obtain ⟨stays, apart, each⟩ := ih (fun x hx => sub (List.mem_cons_of_mem _ hx)) (f s c) (keeps s c hc hs)
      refine ⟨stays, fun d hd out => ?_, fun d hd => ?_⟩
      · rw [List.mem_cons, not_or] at out
        exact (apart d hd out.2).trans (other s c hc d hd out.1 hs)
      · by_cases later : d ∈ k
        · exact each d later
        · obtain rfl : d = c := (List.mem_cons.1 hd).resolve_right later
          exact (apart d hc later).trans (own s d hc hs)
  exact fun s hs => ⟨(general l (List.Subset.refl l) s hs).1, (general l (List.Subset.refl l) s hs).2.2⟩

/-- `t` differs from `s` in registers alone. -/
def RegsAlone (s t : State) : Prop := t = { s with regs := t.regs }

theorem RegsAlone.refl (s : State) : RegsAlone s s := rfl

theorem RegsAlone.trans {s t u : State} (h : RegsAlone s t) (k : RegsAlone t u) : RegsAlone s u := by
  unfold RegsAlone at *
  rw [k, h]

theorem State.setF_regsAlone (s : State) (f : Fld) (n : Nat) : RegsAlone s (s.setF f n) := rfl

theorem State.setFs_regsAlone (s : State) (l : List (Fld × Nat)) : RegsAlone s (s.setFs l) := by
  induction l generalizing s with
  | nil => exact RegsAlone.refl s
  | cons p l ih => exact (s.setF_regsAlone p.1 p.2).trans (ih _)

theorem RegsAlone.foldl {α : Type} {f : State → α → State} {l : List α} (h : ∀ s, ∀ x ∈ l, RegsAlone s (f s x)) : ∀ s, RegsAlone s (l.foldl f s) := by
  induction l with
  | nil => exact fun s => RegsAlone.refl s
  | cons x l ih => exact fun s => (h s x List.mem_cons_self).trans (ih (fun s y hy => h s y (List.mem_cons_of_mem _ hy)) (f s x))

theorem RegsAlone.dlv {s t : State} (h : RegsAlone s t) : t.dlv = s.dlv := by rw [h]
theorem RegsAlone.now {s t : State} (h : RegsAlone s t) : t.now = s.now := by rw [h]
theorem RegsAlone.pending {s t : State} (h : RegsAlone s t) : t.pending = s.pending := by rw [h]
theorem RegsAlone.place {s t : State} (h : RegsAlone s t) : t.place = s.place := by rw [h]

/-! ### CREDIT-INIT is sent again, R101 -/

theorem State.foldOwed_words (s : State) : WordsKept ((List.range 6).map DLV_RXBUF) s s.foldOwed := fun off out =>
  State.rd_foldl _ off _ (fun u c hc => u.rd_setF_ne (DLV_RXBUF_OWED c) 0 fun same => out (List.mem_map.2 ⟨c, hc, same.symm⟩)) s

theorem State.foldOwed_zero (s : State) : ∀ c < 6, s.foldOwed.getF (DLV_RXBUF_OWED c) = 0 := by
  have each := foldl_each (f := fun s c => State.setF s (DLV_RXBUF_OWED c) 0) (l := List.range 6) (fun _ => True) (fun s c => s.getF (DLV_RXBUF_OWED c))
    (fun _ => 0) (fun _ _ _ _ => trivial) (fun s c _ _ => (State.getF_setF s _ (of_decide_eq_true rfl) 0).trans (Nat.zero_mod _))
    (fun s c _ d _ other _ => s.getF_setF_apart 0 (by simp only [DLV_RXBUF_OWED]; omega)) s trivial
  exact fun c hc => each.2 c (List.mem_range.2 hc)

theorem State.foldOwed_regsAlone (s : State) : RegsAlone s s.foldOwed := RegsAlone.foldl (fun u c _ => u.setF_regsAlone (DLV_RXBUF_OWED c) 0) s

/-- The next CREDIT-INIT is awaited from now on (R101). -/
def State.initNow (s : State) : State := { s with dlv := { s.dlv with initAt := s.dlv.flits } }

theorem State.queueLc_creditBody (s : State) (b : List Byte) (ok : Bool) : (s.queueLc b).creditBody 0x41 ok = s.creditBody 0x41 ok := rfl
theorem State.queueLc_rd (s : State) (b : List Byte) (off : Nat) : (s.queueLc b).rd off = s.rd off := rfl
theorem State.queueLc_rest (s : State) (b : List Byte) : (s.queueLc b).pending = s.pending ∧ (s.queueLc b).place = s.place
    ∧ (s.queueLc b).dlv = { s.dlv with lc := s.dlv.lc ++ [⟨b, s.now⟩] } := ⟨rfl, rfl, rfl⟩

/-- CREDIT_INIT_REPEAT, when it is due, queues a fresh snapshot (R101). -/
theorem creditInitRepeat_queues {s : State} (runs : s.linkRuns = true) (open_ : s.dlv.exch = true) (due : s.dlv.initAt + 32 ≤ s.dlv.flits) :
    ∃ t, exec .creditInitRepeat s = .next t ∧ (∀ c < 6, t.getF (DLV_RXBUF_OWED c) = 0)
      ∧ t.dlv = { s.dlv with
          lc := s.dlv.lc ++ [⟨t.creditBody 0x41 (s.getB DLV_STATUS_CREDIT_OK), s.now⟩]
          initAt := s.dlv.flits }
      ∧ WordsKept ((List.range 6).map DLV_RXBUF) s t := by
  have due' : s.initDue = true := by
    unfold State.initDue
    rw [runs, open_, decide_eq_true due]
    rfl
  have queues : exec .creditInitRepeat s
      = done s (s.initNow.foldOwed.queueLc (s.initNow.foldOwed.creditBody 0x41 (s.getB DLV_STATUS_CREDIT_OK))) := by
    show execCreditInitRepeat s = _
    unfold execCreditInitRepeat
    rw [if_pos due']
    rfl
  have alone := s.initNow.foldOwed_regsAlone
  obtain ⟨pending, place, dlv⟩ := s.initNow.foldOwed.queueLc_rest (s.initNow.foldOwed.creditBody 0x41 (s.getB DLV_STATUS_CREDIT_OK))
  rw [queues]
  refine ⟨_, done_eq_next (pending.trans alone.pending) (place.trans alone.place),
    fun c hc => (State.getF_of_rd _ (State.queueLc_rd _ _ _)).trans (s.initNow.foldOwed_zero c hc), ?_,
    fun off out => (State.queueLc_rd _ _ off).trans (s.initNow.foldOwed_words off out)⟩
  rw [State.queueLc_creditBody, dlv, alone.dlv, alone.now]
  rfl

/-! ### CREDIT-INIT comes, R101 -/

theorem State.inFlight_none {s : State} (bank : s.dlv.bank = []) (cur : s.dlv.cur = []) (c aseq : Nat) : s.inFlight c aseq = 0 := by
  unfold State.inFlight
  simp only [bank, cur, List.drop_nil, ite_self, List.map_nil, List.sum_nil, Nat.add_zero]

/-- A channel's window is set; which channels are armed may change (R103). -/
theorem State.setWindow_window (s : State) (c : Nat) {n : Nat} (fits : n < 2 ^ 16) : (s.setWindow c n).window c = n := by
  have set : (s.setF (DLV_WIN_WINDOW c) n).getF (DLV_WIN_WINDOW c) = n :=
    (State.getF_setF s _ (of_decide_eq_true rfl) n).trans (Nat.mod_eq_of_lt fits)
  unfold State.setWindow State.window
  extract_lets u
  split
  · exact (u.getF_setF_apart _ (by simp only [DLV_WIN_WINDOW, DLV_WATCH_ARMED]; omega)).trans set
  · exact set

theorem State.setWindow_words (s : State) (c n : Nat) : WordsKept [DLV_WATCH, DLV_WIN c] s (s.setWindow c n) := by
  intro off out
  simp only [List.mem_cons, List.not_mem_nil, or_false, not_or] at out
  have win : (s.setF (DLV_WIN_WINDOW c) n).rd off = s.rd off := s.rd_setF_ne _ n out.2
  unfold State.setWindow
  extract_lets u
  split
  · exact (u.rd_setF_ne DLV_WATCH_ARMED _ out.1).trans win
  · exact win

theorem State.setWindow_regsAlone (s : State) (c n : Nat) : RegsAlone s (s.setWindow c n) := by
  unfold State.setWindow
  extract_lets u
  have set : RegsAlone s u := s.setF_regsAlone _ _
  split
  · exact set.trans (u.setF_regsAlone _ _)
  · exact set

end Sys2Proof.Machine
end

section
/-! SUPPORT. CREDIT-INIT and TALLY as they come, and the bucket of a capped channel (R101, R104, R105, R243). -/

namespace Sys2Proof.Machine

/-! ### CREDIT-INIT comes, R101 -/

/-- What a CREDIT-INIT shows of a channel with nothing on its way (R101 step 3). -/
def State.roomShown (s : State) (m : CreditMsg) (c : Nat) : State :=
  (s.setFs [(DLV_WIN_ROOM0 c, (m.room.getD c 0).toNat), (DLV_PCAP_PCAP c, max (s.getF (DLV_PCAP_PCAP c)) (m.room.getD c 0).toNat)]).setWindow c
    (m.room.getD c 0).toNat

/-- A channel whose room is less than its floor is not armed (R103). -/
def State.floorSeen (s : State) (c room : Nat) : State :=
  if room < s.getF (DLV_FLOOR_FLOOR c) then s.setF DLV_WATCH_ARMED (putBit (s.getF DLV_WATCH_ARMED) c false) else s

theorem State.initChannel_inside {s : State} (inside : s.guestEdge = false) (bank : s.dlv.bank = []) (cur : s.dlv.cur = []) (m : CreditMsg) (c : Nat) :
    s.initChannel m c = (s.roomShown m c).floorSeen c (m.room.getD c 0).toNat := by
  have none_ (l : List (Fld × Nat)) : (s.setFs l).inFlight c m.aseq.toNat = 0 :=
    State.inFlight_none (by rw [State.setFs_dlv, bank]) (by rw [State.setFs_dlv, cur]) c _
  unfold State.initChannel
  simp only [inside, Bool.false_and, Bool.false_eq_true, if_false, none_, Nat.sub_zero]
  rfl

theorem State.roomShown_words (s : State) (m : CreditMsg) (c : Nat) : WordsKept [DLV_WATCH, DLV_WIN c, DLV_PCAP c] s (s.roomShown m c) := by
  intro off out
  simp only [List.mem_cons, List.not_mem_nil, or_false, not_or] at out
  obtain ⟨watch, win, cap⟩ := out
  unfold State.roomShown
  have figures : ∀ p ∈ [(DLV_WIN_ROOM0 c, (m.room.getD c 0).toNat), (DLV_PCAP_PCAP c, max (s.getF (DLV_PCAP_PCAP c)) (m.room.getD c 0).toNat)],
      p.1.off ∈ [DLV_WIN c, DLV_PCAP c] := by
    simp only [List.mem_cons, List.not_mem_nil, or_false]
    rintro p (rfl | rfl)
    · exact .inl rfl
    · exact .inr rfl
  obtain ⟨_, words, _⟩ := onlyRegs_setFs s _ figures
  refine (State.setWindow_words _ c _ off ?_).trans (words off ?_)
  · simp only [List.mem_cons, List.not_mem_nil, or_false, not_or]
    exact ⟨watch, win⟩
  · simp only [List.mem_cons, List.not_mem_nil, or_false, not_or]
    exact ⟨win, cap⟩

theorem State.roomShown_window (s : State) (m : CreditMsg) (c : Nat) : (s.roomShown m c).window c = (m.room.getD c 0).toNat :=
  State.setWindow_window _ c (m.room.getD c 0).isLt

theorem State.roomShown_regsAlone (s : State) (m : CreditMsg) (c : Nat) : RegsAlone s (s.roomShown m c) :=
  (s.setFs_regsAlone _).trans (State.setWindow_regsAlone _ c _)

theorem State.floorSeen_words (s : State) (c room : Nat) : WordsKept [DLV_WATCH] s (s.floorSeen c room) := by
  intro off out
  unfold State.floorSeen
  split
  · exact s.rd_setF_ne DLV_WATCH_ARMED _ fun same => out (List.mem_singleton.2 same)
  · rfl

theorem State.floorSeen_regsAlone (s : State) (c room : Nat) : RegsAlone s (s.floorSeen c room) := by
  unfold State.floorSeen
  split
  · exact s.setF_regsAlone _ _
  · exact RegsAlone.refl s

theorem win_ne_watch (c : Nat) : DLV_WIN c ∉ [DLV_WATCH] := by
  simp only [DLV_WIN, DLV_WATCH, List.mem_singleton]
  omega

/-- Every channel's window is its room, and registers alone change. -/
theorem State.initChannels {s : State} (inside : s.guestEdge = false) (bank : s.dlv.bank = []) (cur : s.dlv.cur = []) (m : CreditMsg) :
    RegsAlone s ((List.range 6).foldl (fun s c => s.initChannel m c) s)
    ∧ ∀ c ∈ List.range 6, ((List.range 6).foldl (fun s c => s.initChannel m c) s).window c = (m.room.getD c 0).toNat := by
  have one (u : State) (c : Nat) (h : RegsAlone s u) : u.initChannel m c = (u.roomShown m c).floorSeen c (m.room.getD c 0).toNat := by
    refine State.initChannel_inside ?_ (by rw [h.dlv, bank]) (by rw [h.dlv, cur]) m c
    unfold State.guestEdge at inside ⊢
    rw [h.place, inside]
  refine foldl_each (RegsAlone s) State.window (fun c => (m.room.getD c 0).toNat) (fun u c _ h => ?_) (fun u c _ h => ?_) (fun u c hc d hd other h => ?_)
    s (RegsAlone.refl s)
  · rw [one u c h]
    exact (h.trans (u.roomShown_regsAlone m c)).trans (State.floorSeen_regsAlone _ c _)
  · rw [one u c h]
    exact (State.getF_of_rd (DLV_WIN_WINDOW c) (State.floorSeen_words _ c _ _ (win_ne_watch c))).trans (u.roomShown_window m c)
  · rw [one u c h]
    refine State.getF_of_rd (DLV_WIN_WINDOW d) ((State.floorSeen_words _ c _ _ (win_ne_watch d)).trans (u.roomShown_words m c _ ?_))
    have := List.mem_range.1 hc
    have := List.mem_range.1 hd
    simp only [DLV_WATCH, DLV_WIN, DLV_PCAP, List.mem_cons, List.not_mem_nil, or_false, not_or]
    omega

/-- What a CREDIT-INIT with figures not yet applied sets (R101 step 3). -/
def State.initTaken (s : State) (m : CreditMsg) : State :=
  ((List.range 6).foldl (fun s c => s.initChannel m c) s).setFs [(DLV_STATUS_CREDIT_OK, 1), (DLV_STATUS_RXEPOCH, m.epoch.toNat)]

/-- The peer's sequence figure is noted. -/
def State.initNoted (s : State) (m : CreditMsg) : State := { s with dlv := { s.dlv with peerRseq := m.rseq, rseqPassed := false, roomSeen := true } }

/-- The peer has this end's figures. -/
def State.gotNoted (s : State) : State := { s with dlv := { s.dlv with peerGot := true } }

theorem State.initNoted_rd (s : State) (m : CreditMsg) (off : Nat) : (s.initNoted m).rd off = s.rd off := rfl
theorem State.initNoted_exch (s : State) (m : CreditMsg) : (s.initNoted m).dlv.exch = s.dlv.exch := rfl
theorem State.gotNoted_rd (s : State) (off : Nat) : s.gotNoted.rd off = s.rd off := rfl
theorem State.gotNoted_dlv (s : State) : s.gotNoted.dlv.exch = s.dlv.exch ∧ s.gotNoted.dlv.peerGot = true := ⟨rfl, rfl⟩

theorem State.onInit_first {s u : State} {m : CreditMsg} (runs : s.linkRuns = true) (first : s.getB DLV_STATUS_CREDIT_OK = false) (got : m.got = true)
    (takes : s.initTaken m = u) (open_ : (u.initNoted m).gotNoted.dlv.exch = true) : s.onInit m = (u.initNoted m).gotNoted.exchEnd := by
  have run : ¬(!s.linkRuns) = true := by rw [runs]; exact Bool.false_ne_true
  unfold State.onInit
  rw [if_neg run]
  extract_lets new _ set _ taken _ noted
  have isSet : set = u := takes
  clear_value set
  have isNew : ¬(!new) = true := by
    have : new = true := by
      show (!s.getB DLV_STATUS_CREDIT_OK || _) = true
      rw [first]
      rfl
    rw [this]
    exact Bool.false_ne_true
  have isTaken : taken = set.initNoted m := if_neg isNew
  clear_value taken
  have isNoted : noted = taken.gotNoted := if_pos got
  clear_value noted
  rw [isNoted, isTaken, isSet]
  exact if_pos open_

/-- The end of the exchange, once it has what it needs. -/
structure ExchEnds (s t : State) : Prop where
  exch : t.dlv.exch = false
  loopOn : t.dlv.loopOn = true
  shown : t.getB DLV_STATUS_INITDONE = true
  ok : t.getB DLV_STATUS_CREDIT_OK = s.getB DLV_STATUS_CREDIT_OK
  epoch : t.getF DLV_STATUS_RXEPOCH = s.getF DLV_STATUS_RXEPOCH
  window : ∀ c < 6, t.window c = s.window c

/-- The delivery records as the exchange ends (R92). -/
def State.exchClosed (s : State) : State :=
  { s with dlv := { s.dlv with exch := false, tally := 0, sinceExch := 0, exchSvc := s.inService, loopOn := true, probes := [], probeSent := 0, echoes := 0 } }

theorem State.exchClosed_rd (s : State) (off : Nat) : s.exchClosed.rd off = s.rd off := rfl
theorem State.exchClosed_dlv (s : State) : s.exchClosed.dlv.exch = false ∧ s.exchClosed.dlv.loopOn = true := ⟨rfl, rfl⟩

theorem State.countIf_rd (s : State) (b : Bool) {c : Cnt} (hc : 0x5000 ≤ c.off ∧ c.off < 0x57FC) (n : Nat) {off : Nat} (h : Plain off) :
    (s.countIf b c n).rd off = s.rd off := by
  unfold State.countIf
  split
  · exact s.rd_count c n hc h
  · rfl

theorem State.exchEnd_ends {s : State} (open_ : s.dlv.exch = true) (ok : s.getB DLV_STATUS_CREDIT_OK = true) (got : s.dlv.peerGot = true) :
    ExchEnds s s.exchEnd := by
  have ends : ¬(!(s.dlv.exch && s.getB DLV_STATUS_CREDIT_OK && s.dlv.peerGot)) = true := by
    rw [open_, ok, got]
    exact Bool.false_ne_true
  have closes : s.exchEnd = ((s.countIf (s.sameCycle (s.dlv.upAt + 65536)) CNT_NEAR_MISS 1).setB DLV_STATUS_INITDONE true).exchClosed := by
    unfold State.exchEnd
    rw [if_neg ends]
    rfl
  have plain : ∀ off, Plain off → (s.countIf (s.sameCycle (s.dlv.upAt + 65536)) CNT_NEAR_MISS 1).rd off = s.rd off := fun off h =>
    s.countIf_rd _ (c := CNT_NEAR_MISS) (by decide) 1 h
  rw [closes]
  generalize s.countIf (s.sameCycle (s.dlv.upAt + 65536)) CNT_NEAR_MISS 1 = u at plain
  obtain ⟨exch, loopOn⟩ := (u.setB DLV_STATUS_INITDONE true).exchClosed_dlv
  refine ⟨exch, loopOn, ?_, ?_, ?_, fun c hc => ?_⟩
  · exact (State.getB_of_rd _ (State.exchClosed_rd _ _)).trans (u.getB_setB _ (by decide) rfl true)
  · exact (State.getB_of_rd _ (State.exchClosed_rd _ _)).trans
      ((u.getB_setB_beside true (by decide) (.inl (by decide))).trans (State.getB_of_rd _ (plain _ (.inl (by decide)))))
  · exact (State.getF_of_rd _ (State.exchClosed_rd _ _)).trans
      ((u.getF_setF_ne _ _ (by decide) _ (.inr (.inr (by decide)))).trans (State.getF_of_rd _ (plain _ (.inl (by decide)))))
  · have low : Plain (DLV_WIN c) := by
      unfold Plain DLV_WIN
      omega
    refine (State.getF_of_rd (DLV_WIN_WINDOW c) (State.exchClosed_rd _ _)).trans ((u.getF_setF_apart _ ?_).trans (State.getF_of_rd _ (plain _ low)))
    simp only [DLV_WIN_WINDOW, DLV_STATUS_INITDONE]
    omega

theorem State.linkRuns_hear (s : State) : s.hear.linkRuns = s.linkRuns := rfl
theorem State.hear_rest (s : State) : s.hear.pending = s.pending ∧ s.hear.place = s.place := ⟨rfl, rfl⟩
theorem State.hear_dlv (s : State) : s.hear.dlv.bank = s.dlv.bank ∧ s.hear.dlv.cur = s.dlv.cur ∧ s.hear.dlv.exch = s.dlv.exch := ⟨rfl, rfl, rfl⟩
theorem State.hear_guestEdge (s : State) : s.hear.guestEdge = s.guestEdge := rfl

/-- What a CREDIT-INIT with figures not yet applied shows (R101). -/
theorem State.initTaken_shows {s : State} (inside : s.guestEdge = false) (bank : s.dlv.bank = []) (cur : s.dlv.cur = []) (m : CreditMsg) :
    RegsAlone s (s.initTaken m) ∧ (∀ c < 6, (s.initTaken m).window c = (m.room.getD c 0).toNat)
    ∧ (s.initTaken m).getB DLV_STATUS_CREDIT_OK = true ∧ (s.initTaken m).getF DLV_STATUS_RXEPOCH = m.epoch.toNat := by
  obtain ⟨alone, windows⟩ := State.initChannels inside bank cur m
  unfold State.initTaken
  generalize (List.range 6).foldl (fun s c => s.initChannel m c) s = u at alone windows
  refine ⟨alone.trans (u.setFs_regsAlone _), fun c hc => ?_, ?_, ?_⟩
  · refine (State.getF_of_rd (DLV_WIN_WINDOW c) ((onlyRegs_setFs u (l := [0x1004]) _ ?_).2.1 _ ?_)).trans (windows c (List.mem_range.2 hc))
    · simp only [List.mem_cons, List.not_mem_nil, or_false]
      rintro p (rfl | rfl) <;> rfl
    · simp only [DLV_WIN_WINDOW, List.mem_singleton]
      omega
  · rw [State.setFs_two]
    exact (State.getB_setF_beside _ _ (of_decide_eq_true rfl) (.inl (of_decide_eq_true rfl))).trans (u.getB_setB DLV_STATUS_CREDIT_OK (of_decide_eq_true rfl) rfl true)
  · rw [State.setFs_two]
    exact (State.getF_setF _ _ (of_decide_eq_true rfl) _).trans (Nat.mod_eq_of_lt m.epoch.isLt)

theorem creditInitReceive_ends {s : State} {m : CreditMsg} (runs : s.linkRuns = true) (open_ : s.dlv.exch = true)
    (first : s.getB DLV_STATUS_CREDIT_OK = false) (got : m.got = true) (bank : s.dlv.bank = []) (cur : s.dlv.cur = []) (inside : s.guestEdge = false) :
    ∃ t, exec (.creditInitReceive m) s = .next t ∧ (∀ c < 6, t.window c = (m.room.getD c 0).toNat)
      ∧ t.getB DLV_STATUS_CREDIT_OK = true ∧ t.getB DLV_STATUS_INITDONE = true ∧ t.getF DLV_STATUS_RXEPOCH = m.epoch.toNat
      ∧ t.dlv.exch = false ∧ t.dlv.loopOn = true := by
  obtain ⟨hBank, hCur, hExch⟩ := s.hear_dlv
  obtain ⟨alone, windows, ok, epoch⟩ := State.initTaken_shows ((s.hear_guestEdge).trans inside) (hBank.trans bank) (hCur.trans cur) m
  generalize takes : s.hear.initTaken m = u at alone windows ok epoch
  have init := State.onInit_first (s.linkRuns_hear.trans runs) ((State.getB_of_rd _ (s.hear_rd _)).trans first) got takes
  have exch : u.dlv.exch = true := (congrArg Dlv.exch alone.dlv).trans (hExch.trans open_)
  obtain ⟨gotExch, peer⟩ := (u.initNoted m).gotNoted_dlv
  have closing := gotExch.trans ((u.initNoted_exch m).trans exch)
  have rd (off : Nat) : (u.initNoted m).gotNoted.rd off = u.rd off := ((u.initNoted m).gotNoted_rd off).trans (u.initNoted_rd m off)
  generalize (u.initNoted m).gotNoted = v at closing rd init peer
  have ends := State.exchEnd_ends closing ((State.getB_of_rd _ (rd _)).trans ok) peer
  obtain ⟨t, next⟩ := done_next s (s.hear.onInit m)
  have shows' : exec (.creditInitReceive m) s = .next t := next
  rw [init closing] at next
  have word (f : Fld) : t.getF f = v.exchEnd.getF f := State.getF_of_rd f (rd_of_done next _)
  have flag (f : Fld) : t.getB f = v.exchEnd.getB f := State.getB_of_rd f (rd_of_done next _)
  have records : t.dlv = v.exchEnd.dlv := dlv_of_done next
  refine ⟨t, shows', fun c hc => ?_, ?_, (flag _).trans ends.shown, ?_, (congrArg Dlv.exch records).trans ends.exch, (congrArg Dlv.loopOn records).trans ends.loopOn⟩
  · exact (word _).trans ((ends.window c hc).trans ((State.getF_of_rd _ (rd _)).trans (windows c hc)))
  · exact (flag _).trans (ends.ok.trans ((State.getB_of_rd _ (rd _)).trans ok))
  · exact (word _).trans (ends.epoch.trans ((State.getF_of_rd _ (rd _)).trans epoch))

/-! ### TALLY, R104 and R105 -/

theorem tallySend_queues {s : State} (sends : s.tallies = true) (due : 4096 ≤ s.dlv.tally) :
    exec .tallySend s = .next { s with
      dlv := { s.dlv with
        tally := 0
        lc := s.dlv.lc ++ [⟨s.creditBody 0x42 false, s.now⟩] } } := by
  show execTallySend s = _
  unfold execTallySend
  rw [if_pos (by rw [sends, decide_eq_true due]; rfl)]
  rfl

theorem State.hear_cnt (s : State) (c : Cnt) : s.hear.cnt c = s.cnt c := rfl

theorem tallyReceive_skips {s : State} {m : CreditMsg} (runs : s.linkRuns = true)
    (other : m.epoch.toNat ≠ s.getF DLV_STATUS_RXEPOCH ∨ s.getF DLV_SEQ_RXSEQ ≠ m.rseq.toNat) :
    ∃ t, exec (.tallyReceive m) s = .next t ∧ counted CNT_TALLY_SKIP 1 s t ∧ OnlyRegs [CNT_TALLY_SKIP.off] s.hear t := by
  have onTally (u : State) (run : u.linkRuns = true) (o : m.epoch.toNat ≠ u.getF DLV_STATUS_RXEPOCH ∨ u.getF DLV_SEQ_RXSEQ ≠ m.rseq.toNat) :
      u.onTally m = u.count CNT_TALLY_SKIP := by
    have run' : ¬(!u.linkRuns) = true := by rw [run]; exact Bool.false_ne_true
    unfold State.onTally
    rw [if_neg run', if_pos]
    simp only [Bool.or_eq_true, bne_iff_ne]
    exact o.elim (fun e => .inl (.inl e)) .inr
  have runs' := onTally s.hear (s.linkRuns_hear.trans runs)
    (other.imp (fun ne => by rwa [State.getF_of_rd _ (s.hear_rd _)]) fun ne => by rwa [State.getF_of_rd _ (s.hear_rd _)])
  obtain ⟨pending, place⟩ := s.hear_rest
  refine ⟨s.hear.count CNT_TALLY_SKIP, ?_, counted_narrow rfl (s.hear_cnt _) rfl, onlyRegs_count s.hear _ 1 rfl⟩
  show done s (s.hear.onTally m) = _
  rw [runs']
  exact done_eq_next ((State.count_pending _ _ _).trans pending) ((State.count_place _ _ _).trans place)

/-- A channel's true window as a TALLY gives it (R105). -/
def State.trueWindow (s : State) (m : CreditMsg) (c : Nat) : Int :=
  (m.room.getD c 0).toNat - (m.owed.getD c 0).toNat - (s.inFlight c m.aseq.toNat : Int)

/-- A channel's window is set to `w`, and counted where it differs (R105). -/
def State.corrected (s : State) (c : Nat) (w : Int) : State :=
  if w.toNat = s.window c then s
  else ((s.setWindow c w.toNat).count CNT_TALLY_FIX).setFs [(DLV_TALLY_LASTFIX, unsigned 16 (clampS 16 (w - s.window c))), (DLV_TALLY_LASTCH, c)]

theorem State.tallyChannel_fits {s : State} {m : CreditMsg} {c : Nat} (low : 0 ≤ s.trueWindow m c) (high : s.trueWindow m c ≤ s.getF (DLV_PCAP_PCAP c)) :
    s.tallyChannel m c = (false, s.corrected c (s.trueWindow m c)) := by
  have fits : ¬(decide (s.trueWindow m c < 0) || decide ((s.getF (DLV_PCAP_PCAP c) : Int) < s.trueWindow m c)) = true := by
    rw [Bool.or_eq_true, decide_eq_true_eq, decide_eq_true_eq]
    omega
  refine (if_neg fits).trans ?_
  unfold State.corrected
  exact (apply_ite (Prod.mk false) _ _ _).symm

/-- The words that a correction of a channel changes. -/
def fixWords (c : Nat) : List Nat := [DLV_WATCH, DLV_TALLY, CNT_TALLY_FIX.off, DLV_WIN c]

theorem onlyRegs_setWindow (s : State) (c n : Nat) : OnlyRegs (fixWords c) s (s.setWindow c n) := by
  have set : OnlyRegs (fixWords c) s (s.setF (DLV_WIN_WINDOW c) n) := onlyRegs_setF s (.tail _ (.tail _ (.tail _ (.head _)))) n
  unfold State.setWindow
  extract_lets u
  split
  · exact set.trans (onlyRegs_setF u (.head _) _)
  · exact set

theorem State.corrected_onlyRegs (s : State) (c : Nat) (w : Int) : OnlyRegs (fixWords c) s (s.corrected c w) := by
  unfold State.corrected
  split
  · exact OnlyRegs.refl _ s
  · refine ((onlyRegs_setWindow s c _).trans ((onlyRegs_count _ CNT_TALLY_FIX 1 rfl).mono fun x hx => ?_)).trans (onlyRegs_setFs _ _ fun p hp => ?_)
    · rw [List.mem_singleton.1 hx]
      exact .tail _ (.tail _ (.head _))
    · simp only [List.mem_cons, List.not_mem_nil, or_false] at hp
      rcases hp with rfl | rfl <;> exact .tail _ (.head _)

theorem State.corrected_shows (s : State) {c : Nat} {w : Int} (hc : c < 6) (low : 0 ≤ w) (high : w < 2 ^ 16) :
    ((s.corrected c w).window c : Int) = w
    ∧ (s.corrected c w).cnt CNT_TALLY_FIX = min (2 ^ 32 - 1) (s.cnt CNT_TALLY_FIX + if decide ((s.window c : Int) ≠ w) then 1 else 0) := by
  unfold State.corrected
  by_cases same : w.toNat = s.window c
  · have eq : (s.window c : Int) = w := by omega
    have most : s.cnt CNT_TALLY_FIX ≤ 2 ^ 32 - 1 := by
      have := s.rd_lt CNT_TALLY_FIX.off
      show s.rd CNT_TALLY_FIX.off ≤ _
      omega
    rw [if_pos same, eq]
    refine ⟨rfl, ?_⟩
    simp only [ne_eq, not_true_eq_false, decide_false, Bool.false_eq_true, if_false, Nat.add_zero]
    omega
  · have ne : decide ((s.window c : Int) ≠ w) = true := decide_eq_true (by omega)
    have last : ∀ p ∈ [(DLV_TALLY_LASTFIX, unsigned 16 (clampS 16 (w - s.window c))), (DLV_TALLY_LASTCH, c)], p.1.off ∈ [DLV_TALLY] := by
      simp only [List.mem_cons, List.not_mem_nil, or_false]
      rintro p (rfl | rfl) <;> rfl
    have fits : w.toNat < 2 ^ 16 := by omega
    have set := s.setWindow_window c fits
    have before : (s.setWindow c w.toNat).cnt CNT_TALLY_FIX = s.cnt CNT_TALLY_FIX := State.cnt_of_rd32 rfl (s.setWindow_words c _ _ (by
      simp only [CNT_TALLY_FIX, DLV_WATCH, DLV_WIN, List.mem_cons, List.not_mem_nil, or_false, not_or]
      omega))
    generalize s.setWindow c w.toNat = u at set before
    obtain ⟨_, words, _⟩ := onlyRegs_setFs (u.count CNT_TALLY_FIX) _ last
    have plain : Plain (DLV_WIN c) := by
      unfold Plain DLV_WIN
      omega
    have apart : (DLV_WIN c) ∉ [DLV_TALLY] := by
      simp only [DLV_WIN, DLV_TALLY, List.mem_singleton]
      omega
    rw [if_neg same, if_pos ne]
    constructor
    · refine (congrArg Int.ofNat ((State.getF_of_rd (DLV_WIN_WINDOW c) (words _ apart)).trans
        ((State.getF_of_rd (DLV_WIN_WINDOW c) (u.rd_count CNT_TALLY_FIX 1 (by decide) plain)).trans set))).trans ?_
      exact Int.toNat_of_nonneg low
    · exact (State.cnt_of_rd32 rfl (words _ (by decide))).trans ((u.cnt_count CNT_TALLY_FIX 1 rfl).trans (by rw [before]))

end Sys2Proof.Machine
end

section
/-! SUPPORT. A whole TALLY, the bucket of a capped channel, and the credit obligation (R88, R89, R100, R101, R104, R105, R243). -/

namespace Sys2Proof
open Machine

theorem OnlyRegs.dlv {l : List Nat} {s t : State} (h : OnlyRegs l s t) : t.dlv = s.dlv := by rw [h.1]
theorem OnlyRegs.pending {l : List Nat} {s t : State} (h : OnlyRegs l s t) : t.pending = s.pending := by rw [h.1]
theorem OnlyRegs.place {l : List Nat} {s t : State} (h : OnlyRegs l s t) : t.place = s.place := by rw [h.1]

end Sys2Proof

namespace Sys2Proof.Machine

/-! ### A TALLY that fits, R105 -/

/-- The words that a TALLY may change. -/
def tallyWords : List Nat := CNT_TALLY_FIX.off :: ([DLV_WATCH, DLV_TALLY] ++ (List.range 6).map DLV_WIN)

theorem fixWords_sub {c : Nat} (hc : c < 6) : fixWords c ⊆ tallyWords := by
  intro off h
  unfold fixWords at h
  unfold tallyWords
  simp only [List.mem_cons, List.not_mem_nil, or_false] at h
  simp only [List.mem_cons, List.mem_append, List.not_mem_nil, or_false]
  rcases h with rfl | rfl | rfl | rfl
  · exact .inr (.inl (.inl rfl))
  · exact .inr (.inl (.inr rfl))
  · exact .inl rfl
  · exact .inr (.inr (List.mem_map.2 ⟨c, List.mem_range.2 hc, rfl⟩))

theorem State.inFlight_of {s t : State} (dlv : t.dlv = s.dlv) (acked : t.getF DLV_BANK_ACKED = s.getF DLV_BANK_ACKED) (c aseq : Nat) :
    t.inFlight c aseq = s.inFlight c aseq := by
  unfold State.inFlight
  rw [dlv, acked]

/-- The words that a true window is computed and bounded by do not change with a TALLY. -/
theorem tallyWords_out {off : Nat} (low : off < 0x5000) (h : off = 0x100C ∨ 0x10E0 ≤ off) : off ∉ tallyWords := by
  unfold tallyWords
  simp only [List.mem_cons, List.mem_append, List.mem_map, List.mem_range, List.not_mem_nil, or_false, DLV_WIN, DLV_WATCH, DLV_TALLY, CNT_TALLY_FIX]
  rintro (rfl | (rfl | rfl) | ⟨c, hc, rfl⟩) <;> omega

theorem State.trueWindow_of {s t : State} (h : OnlyRegs tallyWords s t) (m : CreditMsg) (c : Nat) : t.trueWindow m c = s.trueWindow m c := by
  unfold State.trueWindow
  rw [State.inFlight_of h.dlv (State.getF_of_rd DLV_BANK_ACKED (h.2.1 _ (tallyWords_out (by decide) (.inl rfl))))]

theorem State.pcap_of {s t : State} (h : OnlyRegs tallyWords s t) {c : Nat} (hc : c < 6) : t.getF (DLV_PCAP_PCAP c) = s.getF (DLV_PCAP_PCAP c) := by
  refine State.getF_of_rd _ (h.2.1 _ (tallyWords_out ?_ (.inr ?_)))
  · show 0x10E0 + 0x4 * c < _
    omega
  · show _ ≤ 0x10E0 + 0x4 * c
    omega

/-- The channels of a TALLY in turn: whether one is impossible, and the state (R105). -/
def tallyTurn (m : CreditMsg) (a : Bool × State) (c : Nat) : Bool × State := (a.1 || (a.2.tallyChannel m c).1, (a.2.tallyChannel m c).2)

/-- What a TALLY whose true windows are all possible leaves after the channels of `l`. -/
structure Tallied (s : State) (m : CreditMsg) (l : List Nat) (u : State) (r : Bool × State) : Prop where
  possible : r.1 = false
  regs : OnlyRegs tallyWords s r.2
  set : ∀ c ∈ l, (r.2.window c : Int) = s.trueWindow m c
  others : ∀ c < 6, c ∉ l → r.2.window c = u.window c
  count : r.2.cnt CNT_TALLY_FIX
    = min (2 ^ 32 - 1) (u.cnt CNT_TALLY_FIX + l.countP (fun c => decide ((s.window c : Int) ≠ s.trueWindow m c)))

theorem tallies_fit {s : State} {m : CreditMsg} (fits : ∀ c < 6, 0 ≤ s.trueWindow m c ∧ s.trueWindow m c ≤ s.getF (DLV_PCAP_PCAP c)) :
    ∀ l : List Nat, l.Nodup → (∀ c ∈ l, c < 6) → ∀ u, OnlyRegs tallyWords s u → (∀ c ∈ l, u.window c = s.window c) →
      Tallied s m l u (l.foldl (tallyTurn m) (false, u)) := by
  intro l
  induction l with
  | nil =>
    intro _ _ u held _
    have most := u.rd_lt CNT_TALLY_FIX.off
    have shown : u.cnt CNT_TALLY_FIX = u.rd CNT_TALLY_FIX.off := rfl
    refine ⟨rfl, held, fun c hc => absurd hc List.not_mem_nil, fun _ _ _ => rfl, ?_⟩
    rw [List.foldl_nil, List.countP_nil, shown]
    omega
  | cons c l ih =>
    intro nodup sub u held untouched
    obtain ⟨fresh, rest⟩ := List.nodup_cons.1 nodup
    have hc : c < 6 := sub c List.mem_cons_self
    obtain ⟨low, high⟩ := fits c hc
    have top := s.getF_lt (DLV_PCAP_PCAP c)
    have width : (DLV_PCAP_PCAP c).w = 16 := rfl
    rw [width] at top
    have turn : tallyTurn m (false, u) c = (false, u.corrected c (s.trueWindow m c)) := by
      unfold tallyTurn
      rw [State.tallyChannel_fits (by rwa [State.trueWindow_of held]) (by rwa [State.trueWindow_of held, State.pcap_of held hc]), State.trueWindow_of held]
      rfl
    have only := u.corrected_onlyRegs c (s.trueWindow m c)
    obtain ⟨window, count⟩ := u.corrected_shows (w := s.trueWindow m c) hc low (by omega)
    have apart : ∀ d < 6, d ≠ c → (u.corrected c (s.trueWindow m c)).window d = u.window d := fun d hd ne => by
      refine State.getF_of_rd (DLV_WIN_WINDOW d) (only.2.1 _ ?_)
      simp only [fixWords, DLV_WIN_WINDOW, DLV_WATCH, DLV_TALLY, CNT_TALLY_FIX, DLV_WIN, List.mem_cons, List.not_mem_nil, or_false, not_or]
      omega
    have next := ih rest (fun d hd => sub d (List.mem_cons_of_mem _ hd)) _ (held.trans (only.mono (fixWords_sub hc))) fun d hd => by
      rw [apart d (sub d (List.mem_cons_of_mem _ hd)) (fun e => fresh (e ▸ hd)), untouched d (List.mem_cons_of_mem _ hd)]
    rw [List.foldl_cons, turn]
    refine ⟨next.possible, next.regs, fun d hd => ?_, fun d hd out => ?_, ?_⟩
    · rcases List.mem_cons.1 hd with rfl | hd
      · rw [next.others d hc fresh, window]
      · exact next.set d hd
    · rw [List.mem_cons, not_or] at out
      rw [next.others d hd out.2, apart d hd out.1]
    · rw [next.count, count, List.countP_cons, untouched c List.mem_cons_self]
      omega

theorem State.onTally_fits {s : State} {m : CreditMsg} (runs : s.linkRuns = true) (epoch : m.epoch.toNat = s.getF DLV_STATUS_RXEPOCH)
    (ok : s.getB DLV_STATUS_CREDIT_OK = true) (seq : s.getF DLV_SEQ_RXSEQ = m.rseq.toNat)
    (possible : ((List.range 6).foldl (tallyTurn m) (false, s)).1 = false) : s.onTally m = ((List.range 6).foldl (tallyTurn m) (false, s)).2 := by
  have run : ¬(!s.linkRuns) = true := by rw [runs]; exact Bool.false_ne_true
  have fits : ¬(m.epoch.toNat != s.getF DLV_STATUS_RXEPOCH || !s.getB DLV_STATUS_CREDIT_OK || s.getF DLV_SEQ_RXSEQ != m.rseq.toNat) = true := by
    rw [epoch, ok, seq, bne_self_eq_false, bne_self_eq_false]
    exact Bool.false_ne_true
  unfold State.onTally
  rw [if_neg run, if_neg fits]
  refine if_pos ?_
  show (!((List.range 6).foldl (tallyTurn m) (false, s)).1) = true
  rw [possible]
  rfl

theorem State.hear_trueWindow (s : State) (m : CreditMsg) (c : Nat) : s.hear.trueWindow m c = s.trueWindow m c := rfl
theorem State.hear_window (s : State) (c : Nat) : s.hear.window c = s.window c := rfl

theorem tallyReceive_corrects {s : State} {m : CreditMsg} (runs : s.linkRuns = true) (epoch : m.epoch.toNat = s.getF DLV_STATUS_RXEPOCH)
    (ok : s.getB DLV_STATUS_CREDIT_OK = true) (seq : s.getF DLV_SEQ_RXSEQ = m.rseq.toNat)
    (fits : ∀ c < 6, 0 ≤ s.trueWindow m c ∧ s.trueWindow m c ≤ s.getF (DLV_PCAP_PCAP c)) :
    ∃ t, exec (.tallyReceive m) s = .next t ∧ (∀ c < 6, (t.window c : Int) = s.trueWindow m c)
      ∧ counted CNT_TALLY_FIX ((List.range 6).countP (fun c => decide ((s.window c : Int) ≠ s.trueWindow m c))) s t ∧ t.dlv = s.hear.dlv
      ∧ PlainKept ([DLV_WATCH, DLV_TALLY] ++ (List.range 6).map DLV_WIN) s t := by
  have hearF (f : Fld) : s.hear.getF f = s.getF f := State.getF_of_rd f (s.hear_rd _)
  have tallied : Tallied s.hear m (List.range 6) s.hear ((List.range 6).foldl (tallyTurn m) (false, s.hear)) :=
    tallies_fit (fun c hc => by rw [s.hear_trueWindow, hearF]; exact fits c hc) _ List.nodup_range (fun c => List.mem_range.1) s.hear
      (OnlyRegs.refl _ _) fun _ _ => rfl
  have takes := State.onTally_fits (m := m) (s.linkRuns_hear.trans runs) (epoch.trans (hearF _).symm) ((State.getB_of_rd _ (s.hear_rd _)).trans ok)
    ((hearF _).trans seq) tallied.possible
  obtain ⟨pending, place⟩ := s.hear_rest
  generalize (List.range 6).foldl (tallyTurn m) (false, s.hear) = r at tallied takes
  refine ⟨r.2, ?_, fun c hc => (tallied.set c (List.mem_range.2 hc)).trans (s.hear_trueWindow m c), ?_, tallied.regs.dlv, fun off plain out => ?_⟩
  · show done s (s.hear.onTally m) = _
    rw [takes]
    exact done_eq_next (tallied.regs.pending.trans pending) (tallied.regs.place.trans place)
  · have count := tallied.count
    simp only [State.hear_trueWindow, State.hear_window, State.hear_cnt] at count
    exact count
  · refine (tallied.regs.2.1 off ?_).trans (s.hear_rd off)
    have : off ≠ CNT_TALLY_FIX.off := by
      rintro rfl
      exact absurd plain (not_or.2 ⟨by decide, by decide⟩)
    exact fun h => (List.mem_cons.1 h).elim this out

/-! ### Rate caps, R243 -/

theorem rate_out {c : Nat} (hc : c < 6) : PlainWord (FW_RATE c) ∧ FW_RATE c ∉ PassingWords := by
  constructor
  · unfold PlainWord FW_RATE
    omega
  · unfold PassingWords FW_RATE
    simp only [List.mem_map, List.mem_range, not_exists, not_and, LANE_PAT]
    omega

/-- The bucket of a channel as it is filled (R243). -/
structure Refilled (s t : State) (c : Nat) : Prop where
  bucket : t.dlv.buckets = s.dlv.buckets.set c (min (if s.getF (FW_RATE_BURST c) = 0 then s.getF (FW_RATE_RATE c) else s.getF (FW_RATE_BURST c))
    (s.dlv.buckets.getD c 0 + ((s.dlv.bucketAt.getD c (0, 0)).2 + s.getF (FW_RATE_RATE c) * (s.now - (s.dlv.bucketAt.getD c (0, 0)).1)) / 1024))
  at_ : t.dlv.bucketAt = s.dlv.bucketAt.set c
    (s.now, ((s.dlv.bucketAt.getD c (0, 0)).2 + s.getF (FW_RATE_RATE c) * (s.now - (s.dlv.bucketAt.getD c (0, 0)).1)) % 1024)
  dlv : t.dlv = { s.dlv with buckets := t.dlv.buckets, bucketAt := t.dlv.bucketAt }
  now : t.now = s.now
  rd : ∀ off, t.rd off = s.rd off
  pending : t.pending = s.pending
  place : t.place = s.place

theorem State.refillBucket_refilled (s : State) (c : Nat) : Refilled s (s.refillBucket c) c := ⟨rfl, rfl, rfl, rfl, fun _ => rfl, rfl, rfl⟩

theorem getD_set_same {α : Type} {l : List α} {i : Nat} (h : i < l.length) (a d : α) : (l.set i a).getD i d = a := by
  rw [List.getD_eq_getElem?_getD, List.getElem?_set_self h, Option.getD_some]

theorem getD_set_apart {α : Type} (l : List α) {i j : Nat} (h : j ≠ i) (a d : α) : (l.set i a).getD j d = l.getD j d := by
  rw [List.getD_eq_getElem?_getD, List.getElem?_set_ne h.symm, List.getD_eq_getElem?_getD]

theorem rateBucketRefill_fills {s : State} (clock : s.clockRuns = true) (c : Fin 6) (edge : s.guestEdge = true) (capped : s.getF (FW_RATE_RATE c) ≠ 0)
    (buckets : s.dlv.buckets.length = 6) (times : s.dlv.bucketAt.length = 6) :
    let r := s.getF (FW_RATE_RATE c)
    let q := s.dlv.bucketAt.getD c (0, 0)
    ∃ t, exec (.rateBucketRefill c) s = .next t ∧ t.now = max s.now (q.1 + (1024 - q.2 + r - 1) / r)
      ∧ (let n := q.2 + r * (t.now - q.1)
         t.dlv.buckets.getD c 0 = min (if s.getF (FW_RATE_BURST c) = 0 then r else s.getF (FW_RATE_BURST c)) (s.dlv.buckets.getD c 0 + n / 1024)
         ∧ t.dlv.bucketAt.getD c (0, 0) = (t.now, n % 1024))
      ∧ (∀ k : Nat, k ≠ c → t.dlv.buckets.getD k 0 = s.dlv.buckets.getD k 0 ∧ t.dlv.bucketAt.getD k (0, 0) = s.dlv.bucketAt.getD k (0, 0))
      ∧ t.dlv = { s.dlv with
          buckets := t.dlv.buckets
          bucketAt := t.dlv.bucketAt }
      ∧ PlainKept PassingWords s t := by
  intro r q
  have fills : exec (.rateBucketRefill c) s = done s ((s.advanceTo (s.refillAt c)).refillBucket c) := by
    show execRateBucketRefill c s = _
    unfold execRateBucketRefill
    refine congrArg (done s) (if_neg ?_)
    rw [edge]
    simpa using capped
  have due : s.refillAt c = q.1 + (1024 - q.2 + r - 1) / r := rfl
  have now : (s.advanceTo (s.refillAt c)).now = max s.now (q.1 + (1024 - q.2 + r - 1) / r) := by rw [State.advanceTo_now clock, due]
  have dlv : (s.advanceTo (s.refillAt c)).dlv = s.dlv := s.elapse_dlv _
  have words : PlainKept PassingWords s (s.advanceTo (s.refillAt c)) := s.elapse_plainKept _
  have pending : (s.advanceTo (s.refillAt c)).pending = s.pending := s.elapse_pending _
  have place : (s.advanceTo (s.refillAt c)).place = s.place := s.elapse_place _
  generalize s.advanceTo (s.refillAt c) = v at fills now dlv words pending place
  obtain ⟨plain, still⟩ := rate_out c.isLt
  have rate : v.getF (FW_RATE_RATE c) = r := words.getF _ plain still
  have burst : v.getF (FW_RATE_BURST c) = s.getF (FW_RATE_BURST c) := words.getF _ plain still
  have filled := v.refillBucket_refilled c
  generalize v.refillBucket c = t at fills filled
  have bucket := filled.bucket
  have at_ := filled.at_
  rw [dlv, rate, burst] at bucket
  rw [dlv, rate] at at_
  refine ⟨t, fills.trans (done_eq_next (filled.pending.trans pending) (filled.place.trans place)), filled.now.trans now, ⟨?_, ?_⟩, fun k other => ⟨?_, ?_⟩, ?_,
    fun off p out => (filled.rd off).trans (words off p out)⟩
  · rw [bucket, getD_set_same (by omega), filled.now]
  · rw [at_, getD_set_same (by omega), filled.now]
  · rw [bucket, getD_set_apart _ other]
  · rw [at_, getD_set_apart _ other]
  · rw [← dlv]
    exact filled.dlv

end Sys2Proof.Machine

namespace Sys2Proof
open Machine

/-- Settles O40: each row of the credit exchange, of TALLY, of the ack timer and of the rate caps in turn. -/
theorem creditsAreExchangedAndKept : Obligations.CreditsAreExchangedAndKept := by
  unfold Obligations.CreditsAreExchangedAndKept
  intro s clock
  refine ⟨fun up some_ few => ackTimeout_rewinds clock up some_ few, fun runs => ⟨?_, ?_, ?_, ?_, fun m => ⟨?_, ?_⟩⟩, ?_⟩
  · exact fun some_ spent => ackTimeout_retrains clock runs some_ spent
  · exact fun open_ due => creditInitRepeat_queues runs open_ due
  · exact fun m open_ first got _ bank cur inside => creditInitReceive_ends runs open_ first got bank cur inside
  · exact fun sends due => tallySend_queues sends due
  · exact fun other => tallyReceive_skips runs other
  · exact fun epoch ok seq fits => tallyReceive_corrects runs epoch ok seq fits
  · exact fun c edge capped buckets times => rateBucketRefill_fills clock c edge capped buckets times

end Sys2Proof
end

section
/-! SUPPORT. An entry to Down step by step: what it shows of the link and of reliable delivery (R106, R109, R131). -/

namespace Sys2Proof.Machine

/-! ### The steps of an entry to Down, R106, R131, R180 and R358 -/

/-- ABORT is said where it can be, and the state that fails is noted with its reason. -/
def State.failShown (s : State) (reason : Nat) : State :=
  (if s.canAbort then s.hush.say 9 (beBytes 1 reason) else s.hush).setFs [(LINK_FAIL_FSTATE, s.link), (LINK_FAIL_REASON, reason)]

/-- A link that trained has failed to. -/
def State.trainFailed (s : State) (old : Nat) : State := if 1 ≤ old ∧ old ≤ 3 then s.count CNT_TRAIN_FAIL else s

/-- A Hold ends. -/
def State.holdOver (s : State) (old : Nat) : State := if old = 7 then s.holdEnds false else s

/-- No sweep is in order. -/
def State.agesStopped (s : State) : State := { s with age := { s.age with order := [] } }.setFs [(AGE_STATUS_ACTIVE, 0), (AGE_STATUS_LEFT, 0)]

/-- The receiving direction has no map, and nothing waits for a QUI run. -/
def State.receiveCleared (s : State) : State := { s with lnk := { s.lnk with rxMap := [], rxMode := 3, wait := [] } }

/-- The link has no map and no mode. -/
def State.mapCleared (s : State) : State := (s.setMap []).setF LINK_STATUS_MODE 3

/-- Every lane stands by. -/
def State.lanesIdle (s : State) : State := (s.setLanes s.lanes 1).refree

/-- The positions of a running schedule are void, and its buffer empty. -/
def State.scheduleDropped (s : State) : State := if s.run then (s.voidPositions true).emptyBuffer else s

/-- A parent link is lost. -/
def State.followingLost (s : State) (old : Nat) : State := if 4 ≤ old then s.parentLost else s

/-- No peer is known. -/
def State.twinUnshown (s : State) : State :=
  s.setFs [(ID_TWIN_TWINLESS, 0), (ID_TWIN_PEERPOD_VALID, 0), (ID_TWIN_PEERPOD, 0), (ID_TWIN_PEERPORT, 0)]

/-- The commands that need the link end. -/
def State.commandsEnd (s : State) : State := ((s.runEnds 0x10 0x0D []).runEnds 0x16 0x0D []).runEnds 0x13 0 [0, 0, 0, 0]

/-- What precedes the reset of delivery. -/
def State.failReady (s : State) (reason : Nat) : State :=
  (((s.failShown reason).trainFailed s.link).holdOver s.link).abandonSweep.cancelShift.cancelRepair.agesStopped

/-- Delivery, map and lanes are as without a link. -/
def State.linkCleared (s : State) : State := s.dropDelivery.receiveCleared.mapCleared.lanesIdle

theorem State.enterDown_steps (s : State) (reason : Nat) : s.enterDown reason =
    (((((s.failReady reason).linkCleared.setLink 8 reason).scheduleDropped.followingLost s.link).failLinkTags).twinUnshown).commandsEnd := by
  unfold State.enterDown
  extract_lets old said shown trained held ended _ ages dropped _ cleared mapped idle down sched lost failed twin
  have isShown : shown = s.failShown reason := rfl
  clear_value shown
  have isTrained : trained = shown.trainFailed old := rfl
  clear_value trained
  have isHeld : held = trained.holdOver old := rfl
  clear_value held
  have isAges : ages = ended.agesStopped := rfl
  clear_value ages
  have isEnded : ended = held.abandonSweep.cancelShift.cancelRepair := rfl
  clear_value ended
  have isDropped : dropped = ages.dropDelivery := rfl
  clear_value dropped
  have isCleared : cleared = dropped.receiveCleared := rfl
  clear_value cleared
  have isMapped : mapped = cleared.mapCleared := rfl
  clear_value mapped
  have isIdle : idle = mapped.lanesIdle := rfl
  clear_value idle
  have isDown : down = idle.setLink 8 reason := rfl
  clear_value down
  have isSched : sched = down.scheduleDropped := rfl
  clear_value sched
  have isLost : lost = sched.followingLost old := rfl
  clear_value lost
  have isFailed : failed = lost.failLinkTags := rfl
  clear_value failed
  have isTwin : twin = failed.twinUnshown := rfl
  clear_value twin
  subst isTwin isFailed isLost isSched isDown isIdle isMapped isCleared isDropped isAges isEnded isHeld isTrained isShown
  rfl

/-! ### What an entry to Down shows -/

/-- The words that an entry to Down shows, and the Bank; with `map` the empty map too (R106, R131). -/
structure DownShown (map : Bool) (old reason : Nat) (t : State) : Prop where
  fstate : t.getF LINK_FAIL_FSTATE = old
  reason : t.getF LINK_FAIL_REASON = reason
  bank : t.dlv.bank = []
  txseq : t.getF DLV_SEQ_TXSEQ = 0xFFFF
  rxseq : t.getF DLV_SEQ_RXSEQ = 0xFFFF
  acked : t.getF DLV_BANK_ACKED = 0xFFFF
  windows : ∀ k < 6, t.window k = 0 ∧ t.getF (DLV_RXBUF_OWED k) = 0
  unmapped : map = true → t.mapList = []

theorem downWord_window {map : Bool} {k : Nat} (hk : k < 6) : downWord map (DLV_WIN k) = true ∧ downWord map (DLV_RXBUF k) = true := by
  rw [downWord_iff, downWord_iff]
  unfold DLV_WIN DLV_RXBUF
  omega

theorem DownShown.mono {map : Bool} {old reason : Nat} {s t : State} (h : DownShown map old reason s)
    (rd : ∀ off, downWord map off = true → t.rd off = s.rd off) (bank : t.dlv.bank = s.dlv.bank) : DownShown map old reason t where
  fstate := (State.getF_of_rd _ (rd _ (downWord_iff.2 (.inl rfl)))).trans h.fstate
  reason := (State.getF_of_rd _ (rd _ (downWord_iff.2 (.inl rfl)))).trans h.reason
  bank := bank.trans h.bank
  txseq := (State.getF_of_rd _ (rd _ (downWord_iff.2 (.inr (.inr (by decide)))))).trans h.txseq
  rxseq := (State.getF_of_rd _ (rd _ (downWord_iff.2 (.inr (.inr (by decide)))))).trans h.rxseq
  acked := (State.getF_of_rd _ (rd _ (downWord_iff.2 (.inr (.inr (by decide)))))).trans h.acked
  windows := fun k hk =>
    ⟨(State.getF_of_rd (DLV_WIN_WINDOW k) (rd _ (downWord_window hk).1)).trans (h.windows k hk).1,
      (State.getF_of_rd (DLV_RXBUF_OWED k) (rd _ (downWord_window hk).2)).trans (h.windows k hk).2⟩
  unmapped := fun on => (State.mapList_of_rd fun off within => rd off (downWord_iff.2 (.inr (.inl ⟨on, by
    simp only [List.mem_cons, List.not_mem_nil, or_false] at within
    omega⟩)))).trans (h.unmapped on)

theorem DownShown.held {map : Bool} {old reason : Nat} {s t : State} (h : DownShown map old reason s) (k : LinkHeld map s t) : DownShown map old reason t :=
  h.mono k.rd k.bank

/-! ### The failure is noted -/

theorem State.hush_linkHeld (s : State) : LinkHeld true s s.hush := s.lnk_linkHeld rfl

theorem State.failShown_shows (s : State) {reason : Nat} (fits : reason < 256) : (s.failShown reason).getF LINK_FAIL_FSTATE = s.link
    ∧ (s.failShown reason).getF LINK_FAIL_REASON = reason ∧ (s.failShown reason).carried = s.carried := by
  have said : (if s.canAbort then s.hush.say 9 (beBytes 1 reason) else s.hush).carried = s.carried := by
    split
    · exact ((s.hush_linkHeld).trans (State.emit_linkHeld _ _)).carried
    · exact s.hush_linkHeld.carried
  have small : s.link < 2 ^ 4 := s.getF_lt LINK_STATUS_STATE
  unfold State.failShown
  generalize (if s.canAbort then s.hush.say 9 (beBytes 1 reason) else s.hush) = u at said
  rw [State.setFs_two]
  refine ⟨?_, ?_, (State.setF_carried _ _ _).trans ((u.setF_carried _ _).trans said)⟩
  · exact (State.getF_setF_ne _ _ _ (of_decide_eq_true rfl) _ (.inr (.inr (of_decide_eq_true rfl)))).trans
      ((u.getF_setF _ (of_decide_eq_true rfl) _).trans (Nat.mod_eq_of_lt small))
  · exact (State.getF_setF _ _ (of_decide_eq_true rfl) _).trans (Nat.mod_eq_of_lt fits)

theorem State.trainFailed_linkHeld (s : State) (old : Nat) : LinkHeld true s (s.trainFailed old) := by
  unfold State.trainFailed
  split
  · exact s.count_linkHeld (by decide) 1
  · exact LinkHeld.refl true s

theorem State.holdOver_linkHeld (s : State) (old : Nat) : LinkHeld true s (s.holdOver old) := by
  have late (u : State) (n : Nat) : LinkHeld true u { u with dlv := { u.dlv with ackAt := n } } := LinkHeld.of_regs rfl rfl
  unfold State.holdOver
  split
  · refine (late s _).trans (State.setFs_linkHeld _ fun p hp => ?_)
    simp only [List.mem_cons, List.not_mem_nil, or_false] at hp
    rcases hp with rfl | rfl | rfl <;> exact Aloof.high (of_decide_eq_true rfl)
  · exact LinkHeld.refl true s

theorem State.agesStopped_linkHeld (s : State) : LinkHeld true s s.agesStopped := by
  refine (s.age_linkHeld _).trans (State.setFs_linkHeld _ fun p hp => ?_)
  simp only [List.mem_cons, List.not_mem_nil, or_false] at hp
  rcases hp with rfl | rfl <;> exact Aloof.high (by decide)

theorem State.failEnded_linkHeld (s : State) (old : Nat) :
    LinkHeld false s ((s.trainFailed old).holdOver old).abandonSweep.cancelShift.cancelRepair.agesStopped :=
  ((((s.trainFailed_linkHeld old).trans (State.holdOver_linkHeld _ old)).weaken).trans (State.worksEnded_linkHeld _)).trans (State.agesStopped_linkHeld _).weaken

theorem State.failReady_shows (s : State) {reason : Nat} (fits : reason < 256) : (s.failReady reason).getF LINK_FAIL_FSTATE = s.link
    ∧ (s.failReady reason).getF LINK_FAIL_REASON = reason ∧ (s.failReady reason).carried = s.carried := by
  obtain ⟨fstate, shown, carried⟩ := s.failShown_shows fits
  have ended := (s.failShown reason).failEnded_linkHeld s.link
  exact ⟨(ended.getF LINK_FAIL_FSTATE (by decide)).trans fstate, (ended.getF LINK_FAIL_REASON (by decide)).trans shown, ended.carried.trans carried⟩

/-! ### Delivery is reset, R106 -/

/-- The sequence numbers are those of an empty link, and no exchange has been made. -/
def State.seqReset (s : State) : State :=
  s.setFs [(DLV_SEQ_TXSEQ, 0xFFFF), (DLV_SEQ_RXSEQ, 0xFFFF), (DLV_BANK_ACKED, 0xFFFF), (DLV_STATUS_RWAIT, 0), (DLV_STATUS_INITDONE, 0), (DLV_STATUS_CREDIT_OK, 0)]

/-- The room of a message that has come in part is free. -/
def State.partDropped (s : State) : State :=
  match s.dlv.part with
  | [] => s
  | p :: _ => if s.dlv.skip then s else
    s.setF (DLV_RXBUF_HELD (headOf p).chan) (s.getF (DLV_RXBUF_HELD (headOf p).chan) - s.dlv.part.length)

/-- No channel has a window, and none is owed. -/
def State.creditsClosed (s : State) : State :=
  (List.range 6).foldl (fun s c => (s.setF (DLV_WIN_WINDOW c) 0).setF (DLV_RXBUF_OWED c) 0) s

/-- The records of delivery are empty. -/
def State.recordsDropped (s : State) : State :=
  { s with dlv := { s.dlv with bank := [], replay := none, fresh := false, nakDue := false, due := 0, part := [], skip := false, cur := [], urgent := [], lc := [],
                               exch := false, peerGot := false, probes := [], loopOn := false, firstAck := false, idleOnly := false } }

theorem State.dropDelivery_steps (s : State) : s.dropDelivery = s.seqReset.partDropped.creditsClosed.recordsDropped := by
  unfold State.dropDelivery
  extract_lets reset part closed
  have isReset : reset = s.seqReset := rfl
  clear_value reset
  have isPart : part = reset.partDropped := rfl
  clear_value part
  have isClosed : closed = part.creditsClosed := rfl
  clear_value closed
  subst isClosed isPart isReset
  rfl

theorem State.getF_setFs_beside {g : Fld} {l : List (Fld × Nat)}
    (h : ∀ p ∈ l, p.1.lo + p.1.w ≤ 32 ∧ (g.off ≠ p.1.off ∨ g.lo + g.w ≤ p.1.lo ∨ p.1.lo + p.1.w ≤ g.lo)) (s : State) : (s.setFs l).getF g = s.getF g := by
  induction l generalizing s with
  | nil => rfl
  | cons p l ih =>
    obtain ⟨fits, apart⟩ := h p List.mem_cons_self
    exact (ih (fun q hq => h q (List.mem_cons_of_mem _ hq)) (s.setF p.1 p.2)).trans (s.getF_setF_ne p.1 g fits p.2 apart)

theorem State.setFs_cons (s : State) (p : Fld × Nat) (l : List (Fld × Nat)) : s.setFs (p :: l) = (s.setF p.1 p.2).setFs l := rfl

theorem State.setFs_carried (s : State) (l : List (Fld × Nat)) : (s.setFs l).carried = s.carried := by
  induction l generalizing s with
  | nil => rfl
  | cons p l ih => rw [State.setFs_cons, ih, State.setF_carried]

theorem State.seqReset_shows (s : State) : s.seqReset.getF DLV_SEQ_TXSEQ = 0xFFFF ∧ s.seqReset.getF DLV_SEQ_RXSEQ = 0xFFFF
    ∧ s.seqReset.getF DLV_BANK_ACKED = 0xFFFF := by
  unfold State.seqReset
  refine ⟨?_, ?_, ?_⟩
  · rw [State.setFs_cons]
    exact (State.getF_setFs_beside (by decide) _).trans (State.getF_setF _ _ (by decide) _)
  · rw [State.setFs_cons, State.setFs_cons]
    exact (State.getF_setFs_beside (by decide) _).trans (State.getF_setF _ _ (by decide) _)
  · rw [State.setFs_cons, State.setFs_cons, State.setFs_cons]
    exact (State.getF_setFs_beside (by decide) _).trans (State.getF_setF _ _ (by decide) _)

/-- The words below those of the channels, and what is carried. -/
structure ChannelsAlone (s t : State) : Prop where
  rd : ∀ off < 0x1080, t.rd off = s.rd off
  carried : t.carried = s.carried

theorem ChannelsAlone.trans {s t u : State} (h : ChannelsAlone s t) (k : ChannelsAlone t u) : ChannelsAlone s u :=
  ⟨fun off low => (k.rd off low).trans (h.rd off low), k.carried.trans h.carried⟩

theorem State.setF_channelsAlone (s : State) {f : Fld} (high : 0x1080 ≤ f.off) (n : Nat) : ChannelsAlone s (s.setF f n) :=
  ⟨fun off low => s.rd_setF_ne f n (by omega), s.setF_carried f n⟩

theorem State.partDropped_channelsAlone (s : State) : ChannelsAlone s s.partDropped := by
  unfold State.partDropped
  split
  · exact ⟨fun _ _ => rfl, rfl⟩
  · split
    · exact ⟨fun _ _ => rfl, rfl⟩
    · exact s.setF_channelsAlone (by simp only [DLV_RXBUF_HELD]; omega) _

theorem State.creditsClosed_channelsAlone (s : State) : ChannelsAlone s s.creditsClosed := by
  have one (u : State) (c : Nat) : ChannelsAlone u ((u.setF (DLV_WIN_WINDOW c) 0).setF (DLV_RXBUF_OWED c) 0) :=
    (u.setF_channelsAlone (by simp only [DLV_WIN_WINDOW]; omega) 0).trans (State.setF_channelsAlone _ (by simp only [DLV_RXBUF_OWED]; omega) 0)
  exact ⟨fun off low => State.rd_foldl _ off _ (fun u c _ => (one u c).rd off low) s,
    State.foldl_keeps State.carried (fun u c _ e => (congrArg State.carried e).trans (one u c).carried) _ s⟩

theorem State.creditsClosed_zero (s : State) : ∀ c < 6, s.creditsClosed.window c = 0 ∧ s.creditsClosed.getF (DLV_RXBUF_OWED c) = 0 := by
  have each := foldl_each (f := fun s c => (State.setF s (DLV_WIN_WINDOW c) 0).setF (DLV_RXBUF_OWED c) 0) (l := List.range 6) (fun _ => True)
    (fun s c => (s.window c, s.getF (DLV_RXBUF_OWED c))) (fun _ => (0, 0)) (fun _ _ _ _ => trivial)
    (fun s c hc _ => ?own) (fun s c hc d hd other _ => ?other) s trivial
  case own =>
    have low := List.mem_range.1 hc
    exact Prod.ext ((State.getF_setF_apart _ 0 (by simp only [DLV_WIN_WINDOW, DLV_RXBUF_OWED]; omega)).trans (State.getF_setF _ _ (of_decide_eq_true rfl) 0))
      (State.getF_setF _ _ (of_decide_eq_true rfl) 0)
  case other =>
    have := List.mem_range.1 hc
    have := List.mem_range.1 hd
    exact Prod.ext
      ((State.getF_setF_apart _ 0 (by simp only [DLV_WIN_WINDOW, DLV_RXBUF_OWED]; omega)).trans (s.getF_setF_apart 0 (by simp only [DLV_WIN_WINDOW]; omega)))
      ((State.getF_setF_apart _ 0 (by simp only [DLV_RXBUF_OWED]; omega)).trans (s.getF_setF_apart 0 (by simp only [DLV_WIN_WINDOW, DLV_RXBUF_OWED]; omega)))
  exact fun c hc => Prod.mk.inj (each.2 c (List.mem_range.2 hc))

theorem State.recordsDropped_rd (s : State) (off : Nat) : s.recordsDropped.rd off = s.rd off := rfl
theorem State.recordsDropped_rest (s : State) : s.recordsDropped.dlv.bank = [] ∧ s.recordsDropped.mov.tags = s.mov.tags
    ∧ s.recordsDropped.trn.writes = s.trn.writes := ⟨rfl, rfl, rfl⟩

theorem State.seqReset_fail (s : State) : s.seqReset.rd LINK_FAIL = s.rd LINK_FAIL :=
  (onlyRegs_setFs s (l := [DLV_SEQ, 0x100C, 0x1004]) _ (by decide)).2.1 _ (by decide)

/-- Tags and window writes that wait as `s` has them. -/
def SameRequests (s t : State) : Prop := t.mov.tags = s.mov.tags ∧ t.trn.writes = s.trn.writes

theorem SameRequests.trans {s t u : State} (h : SameRequests s t) (k : SameRequests t u) : SameRequests s u := ⟨k.1.trans h.1, k.2.trans h.2⟩

theorem sameRequests_of_carried {s t : State} (h : t.carried = s.carried) : SameRequests s t :=
  ⟨congrArg Prod.fst h, congrArg (fun c => c.2.1) h⟩

theorem State.seqReset_carried (s : State) : s.seqReset.carried = s.carried := s.setFs_carried _

theorem State.dropDelivery_shows {s : State} {old reason : Nat} (fstate : s.getF LINK_FAIL_FSTATE = old) (shown : s.getF LINK_FAIL_REASON = reason) :
    DownShown false old reason s.dropDelivery ∧ SameRequests s s.dropDelivery := by
  obtain ⟨txseq, rxseq, acked⟩ := s.seqReset_shows
  have closed := s.seqReset.partDropped_channelsAlone.trans (State.creditsClosed_channelsAlone _)
  have zero := s.seqReset.partDropped.creditsClosed_zero
  have requests := (sameRequests_of_carried s.seqReset_carried).trans (sameRequests_of_carried closed.carried)
  have fail := s.seqReset_fail
  rw [State.dropDelivery_steps]
  generalize s.seqReset.partDropped.creditsClosed = u at closed zero requests
  generalize s.seqReset = v at closed txseq rxseq acked fail
  have word (f : Fld) (low : f.off < 0x1080) : u.recordsDropped.getF f = v.getF f :=
    State.getF_of_rd f ((u.recordsDropped_rd _).trans (closed.rd _ low))
  obtain ⟨bank, tags, writes⟩ := u.recordsDropped_rest
  refine ⟨⟨?_, ?_, bank, (word _ (by decide)).trans txseq, (word _ (by decide)).trans rxseq, (word _ (by decide)).trans acked,
    fun k hk => ?_, fun on => absurd on Bool.false_ne_true⟩, requests.trans ⟨tags, writes⟩⟩
  · exact (word _ (by decide)).trans ((State.getF_of_rd LINK_FAIL_FSTATE fail).trans fstate)
  · exact (word _ (by decide)).trans ((State.getF_of_rd LINK_FAIL_REASON fail).trans shown)
  · exact ⟨(State.getF_of_rd (DLV_WIN_WINDOW k) (u.recordsDropped_rd _)).trans (zero k hk).1,
      (State.getF_of_rd (DLV_RXBUF_OWED k) (u.recordsDropped_rd _)).trans (zero k hk).2⟩

end Sys2Proof.Machine
end

section
/-! SUPPORT. An entry to Down as a whole, and the commands that bring one (R92, R106, R109, R112, R113, R116, R122, R131, R180, R266). -/

namespace Sys2Proof.Machine

/-! ### The map, R121 -/

theorem State.mapPositions_empty (s : State) :
    ∀ p ∈ List.range 16, ((List.range 16).foldl (fun s p => s.setF (LINK_MAP_POS p) (([] : List Nat).getD p 31)) s).getF (LINK_MAP_POS p) = 31 := by
  have fits (p : Nat) : (LINK_MAP_POS p).lo + (LINK_MAP_POS p).w ≤ 32 := by
    simp only [LINK_MAP_POS]
    omega
  refine (foldl_each (f := fun s p => State.setF s (LINK_MAP_POS p) (([] : List Nat).getD p 31)) (l := List.range 16) (fun _ => True)
    (fun s p => s.getF (LINK_MAP_POS p)) (fun _ => 31) (fun _ _ _ _ => trivial) (fun u p _ _ => u.getF_setF _ (fits p) 31)
    (fun u p _ q _ other _ => u.getF_setF_ne _ _ (fits p) _ ?_) s trivial).2
  simp only [LINK_MAP_POS]
  omega

theorem State.setMap_empty (s : State) : (s.setMap []).mapList = [] := by
  have empty := s.mapPositions_empty
  unfold State.setMap
  generalize (List.range 16).foldl (fun s p => s.setF (LINK_MAP_POS p) (([] : List Nat).getD p 31)) s = u at empty
  have kept : (u.lanes.foldl (fun s l => s.setF (LANE_STATUS_POS l) (if ([] : List Nat).contains l then ([] : List Nat).idxOf l else 31)) u).mapList = u.mapList :=
    State.mapList_of_rd fun off within => State.rd_foldl _ off _ (fun v l _ => v.rd_setF_ne _ _ (by
      simp only [List.mem_cons, List.not_mem_nil, or_false] at within
      simp only [LANE_STATUS_POS]
      omega)) u
  refine kept.trans ?_
  unfold State.mapList
  rw [List.map_congr_left empty]
  rfl

theorem State.mapCleared_linkHeld (s : State) : LinkHeld false s s.mapCleared :=
  (s.setMap_linkHeld []).trans (Aloof.setF (f := LINK_STATUS_MODE) ⟨by decide, fun _ => by decide⟩ _ 3).weaken

theorem State.mapCleared_empty (s : State) : s.mapCleared.mapList = [] := by
  refine (State.mapList_of_rd fun off within => State.rd_setF_ne _ LINK_STATUS_MODE 3 ?_).trans s.setMap_empty
  simp only [List.mem_cons, List.not_mem_nil, or_false] at within
  simp only [LINK_STATUS_MODE]
  omega

theorem State.lanesIdle_linkHeld (s : State) : LinkHeld true s s.lanesIdle := (s.setLanes_linkHeld _ 1).trans (State.refree_linkHeld _)

theorem State.receiveCleared_linkHeld (s : State) : LinkHeld true s s.receiveCleared := s.lnk_linkHeld rfl

theorem State.linkCleared_shows {s : State} {old reason : Nat} (fstate : s.getF LINK_FAIL_FSTATE = old) (shown : s.getF LINK_FAIL_REASON = reason) :
    DownShown true old reason s.linkCleared ∧ SameRequests s s.linkCleared := by
  obtain ⟨dropped, requests⟩ := State.dropDelivery_shows fstate shown
  unfold State.linkCleared
  generalize s.dropDelivery = u at dropped requests
  have mapping := u.receiveCleared_linkHeld.weaken.trans (State.mapCleared_linkHeld _)
  have unmapped := u.receiveCleared.mapCleared_empty
  generalize u.receiveCleared.mapCleared = v at mapping unmapped
  have shown : DownShown true old reason v := { dropped.held mapping with unmapped := fun _ => unmapped }
  exact ⟨shown.held v.lanesIdle_linkHeld, (requests.trans (sameRequests_of_carried mapping.carried)).trans (sameRequests_of_carried v.lanesIdle_linkHeld.carried)⟩

/-! ### A running schedule, R267 and R358 -/

/-- What keeps every word below 0x1100. -/
theorem LinkHeld.of_low {s t : State} (rd : ∀ off < 0x1100, t.rd off = s.rd off) (carried : t.carried = s.carried) : LinkHeld true s t := by
  refine ⟨fun off w => rd off ?_, State.getF_of_rd _ (rd _ (by decide)), carried⟩
  by_contra high
  rw [downWord_high (by omega)] at w
  exact Bool.false_ne_true w

theorem State.setCtx_linkHeld (s : State) (c : Nat) (x : Ctx) : LinkHeld true s (s.setCtx c x) := LinkHeld.of_regs rfl rfl
theorem State.hold_linkHeld (s : State) (x : Nat) (e : XEnt) : LinkHeld true s (s.hold x e) := LinkHeld.of_regs rfl rfl

theorem State.ctxFlag_linkHeld (s : State) (c f : Nat) : LinkHeld true s (s.ctxFlag c f) := by
  have raised (b : Bool) (u : State) (code : Nat) : LinkHeld true u (if b then u.raise code else u) := by
    split
    · exact u.raise_linkHeld code
    · exact LinkHeld.refl true u
  have status : Aloof (FOLD_CTX_STATUS_FLAGS c) := Aloof.high (by simp only [FOLD_CTX_STATUS_FLAGS]; omega)
  have flags : Aloof FOLD_FLAGS_FLAGS := Aloof.high (by decide)
  unfold State.ctxFlag
  extract_lets old one two new three
  exact (((status.setF s _).trans (flags.setF one _)).trans (raised _ two 0x0501)).trans (raised _ three 0x0502)

theorem State.feedPoison_linkHeld (s : State) (c n : Nat) : LinkHeld true s (s.feedPoison c n) :=
  (s.setCtx_linkHeld c _).trans (State.ctxFlag_linkHeld _ c fLOST)

theorem State.noteRound_linkHeld (s : State) (c n : Nat) : LinkHeld true s (s.noteRound c n) := by
  unfold State.noteRound
  extract_lets x
  split
  · exact LinkHeld.refl true s
  · exact s.setCtx_linkHeld c _

theorem State.feedVoid_linkHeld (s : State) (n id len : Nat) : LinkHeld true s (s.feedVoid n id len) := by
  have poison (u : State) (c : Nat) : u.intoFold c n (List.replicate len none) = (u.feedPoison c len).noteRound c n := by
    have void : (List.replicate len (none : Option Byte)).all Option.isNone = true := by
      simp only [List.all_replicate, Option.isNone_none, ite_self]
    unfold State.intoFold
    rw [if_pos void, List.length_replicate]
  unfold State.feedVoid State.toFold
  split
  · split
    · rw [poison]
      exact (s.feedPoison_linkHeld _ _).trans (State.noteRound_linkHeld _ _ _)
    · exact s.hold_linkHeld 3 _
  · exact LinkHeld.refl true s

/-- The flits of the stream buffer are given up. -/
def State.bufferDropped (s : State) : State :=
  { s.count CNT_HOLD_VOID s.trn.sbuf.length with trn := { s.trn with sbuf := [], released := s.trn.released + s.trn.sbuf.length } }

theorem State.bufferDropped_linkHeld (s : State) : LinkHeld true s s.bufferDropped := by
  have emptied (u : State) (k : Trn) (writes : k.writes = u.trn.writes) : LinkHeld true u { u with trn := k } :=
    LinkHeld.of_regs rfl (by unfold State.carried; rw [writes])
  exact (s.count_linkHeld (c := CNT_HOLD_VOID) (by decide) _).trans (emptied _ _ (by rw [State.count_trn]))

theorem State.emptyBuffer_linkHeld (s : State) : LinkHeld true s s.emptyBuffer :=
  s.bufferDropped_linkHeld.trans (LinkHeld.foldl (fun u e _ => u.feedVoid_linkHeld e.round e.stream e.data.length) _)

theorem State.voidPositions_linkHeld (s : State) (down : Bool) : LinkHeld true s (s.voidPositions down) := by
  have ends : LinkHeld true s (s.putW ISL_VOID_END (2 ^ 64 - 1)) :=
    LinkHeld.of_low (fun off low => s.putW_plainKept ISL_VOID_END _ off (.inl (by omega)) (by
      simp only [ISL_VOID_END, List.mem_cons, List.not_mem_nil, or_false]
      omega)) rfl
  have void (u : State) : LinkHeld true u { u with trn := { u.trn with void := true, voidEnd := if down then 2 ^ 64 else 2 ^ 64 - 1, judged := 0 } } :=
    LinkHeld.of_regs rfl rfl
  exact ends.trans (void _)

theorem State.scheduleDropped_linkHeld (s : State) : LinkHeld true s s.scheduleDropped := by
  unfold State.scheduleDropped
  split
  · exact (s.voidPositions_linkHeld true).trans (State.emptyBuffer_linkHeld _)
  · exact LinkHeld.refl true s

theorem State.followingLost_linkHeld (s : State) (old : Nat) : LinkHeld true s (s.followingLost old) := by
  unfold State.followingLost
  split
  · exact s.parentLost_linkHeld
  · exact LinkHeld.refl true s

/-! ### The tags of the link, R177 and R180 -/

/-- A tag is free again, and nothing waits for it. -/
def State.tagDropped (s : State) (t : Tag) : State := { s with mov := { s.mov with tags := s.mov.tags.filter (fun x => x.tag != t.tag) } }

/-- The tags of `l` are free; all but the tags stays. -/
structure TagsFreed (l : List Tag) (s t : State) : Prop where
  rd : ∀ off, t.rd off = s.rd off
  dlv : t.dlv = s.dlv
  trn : t.trn = s.trn
  sub : ∀ x ∈ t.mov.tags, x ∈ s.mov.tags
  freed : ∀ x ∈ t.mov.tags, ∀ y ∈ l, x.tag ≠ y.tag

theorem State.tagDropped_freed (s : State) (t : Tag) : TagsFreed [t] s (s.tagDropped t) where
  rd := fun _ => rfl
  dlv := rfl
  trn := rfl
  sub := fun _ h => (List.mem_filter.1 h).1
  freed := fun _ h y hy => by
    rw [List.mem_singleton.1 hy]
    exact bne_iff_ne.1 (List.mem_filter.1 h).2

theorem TagsFreed.trans {l m : List Tag} {s t u : State} (h : TagsFreed l s t) (k : TagsFreed m t u) : TagsFreed (l ++ m) s u where
  rd := fun off => (k.rd off).trans (h.rd off)
  dlv := k.dlv.trans h.dlv
  trn := k.trn.trans h.trn
  sub := fun x hx => h.sub x (k.sub x hx)
  freed := fun x hx y hy => (List.mem_append.1 hy).elim (h.freed x (k.sub x hx) y) (k.freed x hx y)

theorem State.dropTag_unwaited {s : State} (none_ : s.trn.writes = []) (t : Tag) : s.dropTag t = s.tagDropped t := by
  have unwaited (u : State) (h : u.trn.writes = []) : u.pumpWrites 1 = u := by
    unfold State.pumpWrites
    rw [h]
  exact unwaited (s.tagDropped t) ((congrArg Trn.writes (s.tagDropped_freed t).trn).trans none_)

theorem tagsFreed_foldl {f : State → Tag → State} {l : List Tag} (h : ∀ s, ∀ t ∈ l, s.trn.writes = [] → f s t = s.tagDropped t) :
    ∀ s, s.trn.writes = [] → TagsFreed l s (l.foldl f s) := by
  induction l with
  | nil => exact fun s _ => ⟨fun _ => rfl, rfl, rfl, fun _ hx => hx, fun _ _ y hy => absurd hy List.not_mem_nil⟩
  | cons t l ih =>
    intro s none_
    have first := s.tagDropped_freed t
    have rest := ih (fun u y hy => h u y (List.mem_cons_of_mem _ hy)) (s.tagDropped t) ((congrArg Trn.writes first.trn).trans none_)
    rw [List.foldl_cons, h s t List.mem_cons_self none_]
    exact first.trans rest

/-- With no request of the link but dead ones, and no write that waits, the link's tags are free after it has failed. -/
theorem State.failLinkTags_frees {s : State} (dead : ∀ x ∈ s.mov.tags, x.link = true → x.dead = true) (none_ : s.trn.writes = []) :
    ∃ l, TagsFreed l s s.failLinkTags ∧ ∀ x ∈ s.failLinkTags.mov.tags, x.link = false := by
  have fails (u : State) (t : Tag) (h : t ∈ s.mov.tags.filter (·.link)) (w : u.trn.writes = []) : u.failTag t 5 false = u.tagDropped t := by
    obtain ⟨has, link⟩ := List.mem_filter.1 h
    unfold State.failTag
    rw [if_neg Bool.false_ne_true, if_pos (dead t has link), State.dropTag_unwaited w]
  have linked := tagsFreed_foldl fails s none_
  unfold State.failLinkTags
  generalize (s.mov.tags.filter (·.link)).foldl (fun s t => s.failTag t 5 false) s = u at linked
  have late := tagsFreed_foldl (l := u.mov.tags.filter (·.timedOut)) (fun v t _ w => State.dropTag_unwaited w t) u
    ((congrArg Trn.writes linked.trn).trans none_)
  refine ⟨_, linked.trans late, fun x hx => ?_⟩
  have stands := late.sub x hx
  by_contra link
  rw [Bool.not_eq_false] at link
  exact linked.freed x stands x (List.mem_filter.2 ⟨linked.sub x stands, link⟩) rfl

/-! ### Down is entered -/

theorem State.twinUnshown_linkHeld (s : State) : LinkHeld true s s.twinUnshown := by
  refine s.setFs_linkHeld fun p hp => ?_
  simp only [List.mem_cons, List.not_mem_nil, or_false] at hp
  rcases hp with rfl | rfl | rfl | rfl <;> exact ⟨of_decide_eq_true rfl, fun e => absurd e (by decide)⟩

theorem State.commandsEnd_linkHeld (s : State) : LinkHeld true s s.commandsEnd :=
  ((s.runEnds_linkHeld _ _ _).trans (State.runEnds_linkHeld _ _ _ _)).trans (State.runEnds_linkHeld _ _ _ _)

/-- What the link's requests are when it goes Down, for a Down that leaves none to fail. -/
structure NothingAwaited (s : State) : Prop where
  dead : ∀ x ∈ s.mov.tags, x.link = true → x.dead = true
  writes : s.trn.writes = []

theorem NothingAwaited.mono {s t : State} (h : NothingAwaited s) (same : SameRequests s t) : NothingAwaited t :=
  ⟨by rw [same.1]; exact h.dead, same.2.trans h.writes⟩

/-- The link is Down, shows it, and holds no tag. -/
structure IsDown (old reason : Nat) (t : State) : Prop where
  link : t.link = 8
  shown : DownShown true old reason t
  tags : ∀ x ∈ t.mov.tags, x.link = false

theorem IsDown.held {old reason : Nat} {s t : State} (h : IsDown old reason s) (k : LinkHeld true s t) : IsDown old reason t :=
  ⟨k.link.trans h.link, h.shown.held k, by rw [k.tags]; exact h.tags⟩

theorem State.failReady_cleared {s : State} {reason : Nat} (fits : reason < 256) (none_ : NothingAwaited s) :
    DownShown true s.link reason (s.failReady reason).linkCleared ∧ NothingAwaited (s.failReady reason).linkCleared := by
  obtain ⟨fstate, shown, carried⟩ := s.failReady_shows fits
  obtain ⟨cleared, requests⟩ := State.linkCleared_shows fstate shown
  exact ⟨cleared, none_.mono ((sameRequests_of_carried carried).trans requests)⟩

theorem State.enterDown_isDown {s : State} {reason : Nat} (fits : reason < 256) (none_ : NothingAwaited s) : IsDown s.link reason (s.enterDown reason) := by
  obtain ⟨cleared, awaited⟩ := State.failReady_cleared fits none_
  rw [State.enterDown_steps]
  generalize (s.failReady reason).linkCleared = u at cleared awaited
  have enters := u.setLink_enters (st := 8) reason (by decide)
  generalize u.setLink 8 reason = v at enters
  have after := v.scheduleDropped_linkHeld.trans (State.followingLost_linkHeld _ s.link)
  generalize v.scheduleDropped.followingLost s.link = w at after
  have carried : w.carried = u.carried := after.carried.trans enters.carried
  have quiet := awaited.mono (sameRequests_of_carried carried)
  obtain ⟨l, freed, tags⟩ := State.failLinkTags_frees quiet.dead quiet.writes
  have shown : DownShown true s.link reason w := cleared.mono (fun off h => (after.rd off h).trans (enters.rd off h)) (State.bank_of_carried carried)
  have link : w.link = 8 := after.link.trans enters.link
  generalize w.failLinkTags = x at freed tags
  have down : IsDown s.link reason x :=
    ⟨(State.getF_of_rd LINK_STATUS_STATE (freed.rd _)).trans link, shown.mono (fun off _ => freed.rd off) (congrArg Dlv.bank freed.dlv), tags⟩
  exact down.held (x.twinUnshown_linkHeld.trans (State.commandsEnd_linkHeld _))

end Sys2Proof.Machine
end

section
/-! SUPPORT. A link goes Down: the start or the instance ends with it, one FAIL event is the last, and the commands that bring it (R92, R106, R109, R112,
R113, R116, R122, R131, R266, R297, R301, R344). -/

namespace Sys2Proof.Machine

/-! ### The end of a start and of an instance, R297 and R301 -/

theorem State.queueRecord_linkHeld (s : State) (rtype : Nat) (p : List Byte) : LinkHeld true s (s.queueRecord rtype p) := by
  have full : Aloof AGE_LQ_FULL := Aloof.high (by decide)
  have taken : LinkHeld true s s.takeIseq := s.age_linkHeld _
  unfold State.queueRecord
  extract_lets r fits u
  split
  · exact taken.trans (u.age_linkHeld _)
  · exact taken.trans (((State.count_linkHeld u (c := CNT_LQ_LOST) (by decide) 1).trans (full.setB _ true)).trans (State.raise_linkHeld _ _))

theorem State.endStart_linkHeld (s : State) (result run : Nat) : LinkHeld true s (s.endStart result run) := by
  have shown : Aloof START_STATUS_RESULT := Aloof.high (by decide)
  unfold State.endStart
  split
  · exact LinkHeld.refl true s
  · exact ((s.queueRecord_linkHeld 1 _).trans (shown.setF _ result)).trans (State.strt_linkHeld _ _)

theorem State.powerDown_linkHeld (s : State) : LinkHeld true s s.powerDown := (s.setLanes_linkHeld _ 5).trans (State.setLane_linkHeld _ 18 0)

/-- No word of a lane is `EVT_LAST`. -/
theorem State.setLane_last (s : State) (l st : Nat) : (s.setLane l st).rd EVT_LAST = s.rd EVT_LAST := by
  rcases s.setLane_cases l st with same | ⟨low, enters⟩
  · rw [same]
  · rw [enters]
    refine ((State.laneEntered_laneStep _ l _ st).rd _ ?_).trans (s.rd_setF_ne _ st ?_)
    · simp only [laneWords, EVT_LAST, LANE_STATUS, LANE_TXEQ, LANE_RXEQ, LANE_SNR, LANE_PAT, LANE_PRBS_ERR, List.mem_cons, List.not_mem_nil, or_false, not_or]
      omega
    · simp only [LANE_STATUS_STATE, EVT_LAST]
      omega

theorem State.powerDown_last (s : State) : s.powerDown.rd EVT_LAST = s.rd EVT_LAST :=
  (State.setLane_last _ 18 0).trans (State.rd_foldl _ EVT_LAST _ (fun u l _ => u.setLane_last l 5) s)

/-- The event of a code of class FAIL is the last (R344, R345). -/
theorem State.raise_fails (s : State) {c : Nat} (small : c < 2 ^ 30) (fail : evClass c = 2) : (s.raise c).getF EVT_LAST_CLASS = 2 := by
  have last := s.raise_last c small
  rw [fail] at last
  show bitsOf ((s.raise c).rd EVT_LAST) 30 2 = 2
  rw [last]
  unfold bitsOf
  omega

/-- The outcome of a stage that fails, and its code (R297). -/
def State.stageFailed (s : State) (code : Nat) : State := (s.stageOut s.stage 2).setF START_STATUS_FCODE code

theorem State.stageFailed_linkHeld (s : State) (code : Nat) : LinkHeld true s (s.stageFailed code) := by
  have out : Aloof (START_OUT_OUT s.stage) := Aloof.high (of_decide_eq_true rfl)
  have shown : Aloof START_STATUS_FCODE := Aloof.high (by decide)
  exact (out.setF s 2).trans (shown.setF _ code)

/-- A start that fails for the third time retires the instance (R301). -/
def State.instanceRetired (s : State) (reason usable : Nat) : State := (((s.endStart 4 3).recInstret reason usable).setB START_STATUS_RETIRED true).raise 0x0803

theorem State.instanceRetired_linkHeld (s : State) (reason usable : Nat) : LinkHeld true s (s.instanceRetired reason usable) := by
  have shown : Aloof START_STATUS_RETIRED := Aloof.high (by decide)
  exact (((s.endStart_linkHeld 4 3).trans (State.queueRecord_linkHeld _ 5 _)).trans (shown.setB _ true)).trans (State.raise_linkHeld _ _)

theorem State.startFail_cases (s : State) (code : Nat) :
    (∃ reason usable, s.startFail code = ((s.stageFailed code).instanceRetired reason usable).powerDown)
    ∨ ∃ run, s.startFail code = ((s.stageFailed code).endStart 1 run).raise 0x0801 := by
  unfold State.startFail
  extract_lets st same third u v
  have isFailed : u = s.stageFailed code := rfl
  split
  · exact .inl ⟨_, _, by rw [← isFailed]; rfl⟩
  · exact .inr ⟨_, by rw [← isFailed]⟩

/-- A FAIL event is the last, and nothing of what a Down shows has changed. -/
structure FailRaised (s t : State) : Prop where
  held : LinkHeld true s t
  last : t.getF EVT_LAST_CLASS = 2

theorem State.startFail_raised (s : State) (code : Nat) : FailRaised s (s.startFail code) := by
  have failed := s.stageFailed_linkHeld code
  rcases s.startFail_cases code with ⟨reason, usable, retires⟩ | ⟨run, ends⟩
  · rw [retires]
    generalize s.stageFailed code = u at failed
    refine ⟨(failed.trans (u.instanceRetired_linkHeld reason usable)).trans (State.powerDown_linkHeld _), ?_⟩
    exact (State.getF_of_rd EVT_LAST_CLASS (State.powerDown_last _)).trans (State.raise_fails _ (by decide) (by decide))
  · rw [ends]
    exact ⟨(failed.trans (State.endStart_linkHeld _ 1 run)).trans (State.raise_linkHeld _ _), State.raise_fails _ (by decide) (by decide)⟩

/-! ### A link goes Down, R131 -/

theorem State.linkDown_isDown {s : State} {reason : Nat} (up : s.link < 8) (fits : reason < 256) (none_ : NothingAwaited s) (retire : Bool) :
    IsDown s.link reason (s.linkDown reason retire) ∧ (s.linkDown reason retire).getF EVT_LAST_CLASS = 2 := by
  have down := State.enterDown_isDown fits none_
  have notDown : ¬s.link = 8 := by omega
  have raised : FailRaised (s.enterDown reason) (s.linkDown reason retire) := by
    unfold State.linkDown
    rw [if_neg notDown]
    generalize s.enterDown reason = t
    show FailRaised t (if t.starting then t.startFail reason else if retire then (t.recInstret reason s.usableLanes.length).raise 0x0803 else t.raise 0x0103)
    split
    · exact t.startFail_raised reason
    · split
      · exact ⟨(t.queueRecord_linkHeld 5 _).trans (State.raise_linkHeld _ _), State.raise_fails _ (by decide) (by decide)⟩
      · exact ⟨t.raise_linkHeld _, State.raise_fails _ (by decide) (by decide)⟩
  exact ⟨down.held raised.held, raised.last⟩

/-- A command's answer that shows Down with its reason, and a FAIL event as the last (R131). -/
def AnswersDown (s : State) (c : Instr) (r : Nat) : Prop :=
  ∃ t, exec c s = .next t ∧ IsDown s.link r t ∧ t.getF EVT_LAST_CLASS = 2

/-- A command that takes the link Down after steps which leave its state and its requests. -/
theorem answersDown {s u : State} {c : Instr} {r : Nat} {retire : Bool} (downs : exec c s = done s (u.linkDown r retire)) (link : u.link = s.link)
    (same : SameRequests s u) (up : s.link < 8) (fits : r < 256) (none_ : NothingAwaited s) : AnswersDown s c r := by
  obtain ⟨down, last⟩ := State.linkDown_isDown (by rw [link]; exact up) fits (none_.mono same) retire
  rw [link] at down
  obtain ⟨t, next⟩ := done_next s (u.linkDown r retire)
  have rd := rd_of_done next
  have mov : t.mov = (u.linkDown r retire).mov := by
    obtain rfl := Host.Outcome.next.inj next
    rfl
  have shown := down.shown.mono (fun off _ => rd off) (congrArg Dlv.bank (dlv_of_done next))
  refine ⟨t, downs.trans next, ⟨(State.getF_of_rd LINK_STATUS_STATE (rd _)).trans down.link, shown, ?_⟩, (State.getF_of_rd EVT_LAST_CLASS (rd _)).trans last⟩
  rw [mov]
  exact down.tags

theorem SameRequests.refl (s : State) : SameRequests s s := ⟨rfl, rfl⟩

theorem State.advanceTo_requests (s : State) (n : Nat) : SameRequests s (s.advanceTo n) :=
  ⟨congrArg Mov.tags (s.elapse_mov _), congrArg Trn.writes (s.elapse_trn _)⟩

theorem State.advanceTo_link (s : State) (n : Nat) : (s.advanceTo n).link = s.link := s.elapse_link _

/-! ### The commands -/

section Commands

variable {s : State} (up : s.link < 8) (none_ : NothingAwaited s)
include up none_

theorem linkCtrlDown_downs (reaches : s.reaches LINK_CTRL = true) : AnswersDown s .linkCtrlDown 0x0C :=
  answersDown (u := s) (retire := false) (congrArg (done s) (if_pos reaches)) rfl (SameRequests.refl s) up (by decide) none_

theorem abortMessage_downs (b : Byte) : AnswersDown s (.abortMessage b) b.toNat :=
  answersDown (u := s) (retire := b.toNat == 2 && s.inService) rfl rfl (SameRequests.refl s) up b.isLt none_

theorem holdExpiry_downs (hold : s.link = 7) : AnswersDown s .holdExpiry 0x0B := by
  have inHold : ¬(s.link != 7) = true := by rw [hold]; decide
  have counted (v : State) : LinkHeld true v (v.count CNT_HOLD_EXPIRE) := v.count_linkHeld (by decide) 1
  have held := counted (s.advanceTo (s.isl.holdAt + 1024 * max 1 (s.getF ISL_HOLD_HOLDTIME)))
  exact answersDown (retire := false) (congrArg (done s) (if_neg inHold)) (held.link.trans (s.advanceTo_link _))
    ((s.advanceTo_requests _).trans (sameRequests_of_carried held.carried)) up (by decide) none_

theorem equaliseTimeout_downs (equalise : s.link = 2) : AnswersDown s .equaliseTimeout 4 := by
  have inEqualise : ¬(s.link != 2) = true := by rw [equalise]; decide
  exact answersDown (retire := false) (congrArg (done s) (if_neg inEqualise)) (s.advanceTo_link _) (s.advanceTo_requests _) up (by decide) none_

theorem negotiateTimeout_downs (negotiate : s.link = 3) (free : s.lnk.held18 = false) : AnswersDown s .negotiateTimeout 9 := by
  have inNegotiate : ¬(s.link != 3 || s.lnk.held18) = true := by rw [negotiate, free]; decide
  exact answersDown (retire := false) (congrArg (done s) (if_neg inNegotiate)) (s.advanceTo_link _) (s.advanceTo_requests _) up (by decide) none_

theorem miscableHoldExpiry_downs (negotiate : s.link = 3) (held : s.lnk.held18 = true) : AnswersDown s .miscableHoldExpiry 8 := by
  have isHeld : (s.link == 3 && s.lnk.held18) = true := by rw [negotiate, held]; decide
  exact answersDown (retire := false) (congrArg (done s) (if_pos isHeld)) (s.advanceTo_link _) (s.advanceTo_requests _) up (by decide) none_

theorem loopExchangeTimeout_downs (runs : s.linkRuns = true) (open_ : s.dlv.loopOn = true) (sent : s.dlv.probeSent = 1024) (none' : s.dlv.echoes = 0) :
    AnswersDown s .loopExchangeTimeout 9 := by
  have measures : ¬(!(s.linkRuns && s.dlv.loopOn && s.dlv.probeSent == 1024)) = true := by rw [runs, open_, sent]; decide
  have echoes : (s.advanceTo (s.dlv.probeAt + 2 ^ 20)).dlv.echoes = 0 := (congrArg Dlv.echoes (s.elapse_dlv _)).trans none'
  exact answersDown (retire := false) (congrArg (done s) ((if_neg measures).trans (if_pos echoes))) (s.advanceTo_link _) (s.advanceTo_requests _) up (by decide) none_

theorem trainingRepeat_downs (spent : ∃ m ∈ s.lnk.msgs, m.tcode ≠ 1 ∧ 64 ≤ m.sends) : AnswersDown s .trainingRepeat 9 := by
  obtain ⟨m, has, other, sends⟩ := spent
  have any : s.lnk.msgs.any (fun m => m.tcode != 1 && decide (64 ≤ m.sends)) = true :=
    List.any_eq_true.2 ⟨m, has, by rw [bne_iff_ne.2 other, decide_eq_true sends]; rfl⟩
  exact answersDown (u := s) (retire := false) (congrArg (done s) (if_pos any)) rfl (SameRequests.refl s) up (by decide) none_

end Commands

/-! ### Detect, R113 -/

theorem State.noteSeen_keeps (s : State) (seen off : Nat) : (s.noteSeen seen off).link = s.link ∧ (s.noteSeen seen off).carried = s.carried
    ∧ (s.noteSeen seen off).lnk = s.lnk := by
  have lock : LinkHeld true s (s.setF ISL_STATUS_LANE_LOCK ((seen ||| off) &&& maskOf s.lanes)) := (Aloof.high (by decide)).setF s _
  have fail (u : State) : (u.setF LINK_FAIL_REASON 3).link = u.link ∧ (u.setF LINK_FAIL_REASON 3).carried = u.carried ∧ (u.setF LINK_FAIL_REASON 3).lnk = u.lnk :=
    ⟨u.getF_setF_apart 3 (by decide), u.setF_carried _ _, u.setF_lnk _ _⟩
  unfold State.noteSeen
  extract_lets all u
  have same : u.lnk = s.lnk := s.setF_lnk _ _
  split
  · exact ⟨lock.link, lock.carried, same⟩
  · obtain ⟨link, carried, lnk⟩ := fail u
    exact ⟨link.trans lock.link, carried.trans lock.carried, lnk.trans same⟩

theorem detectTimeout_downs {s : State} (up : s.link < 8) (none_ : NothingAwaited s) (seen off : BitVec 24) (sb : Bool) (detect : s.link = 1)
    (alone : s.lnk.exchanged = false) (starts : s.starting = true) (lanes : seen.toNat &&& maskOf s.lanes ≠ 0) : AnswersDown s (.detectTimeout seen off sb) 9 := by
  have waits : ¬(s.link != 1 || s.detected || !s.starting) = true := by
    unfold State.detected
    rw [detect, alone, starts, Bool.and_false, Bool.false_and]
    decide
  obtain ⟨link, carried, lnk⟩ := (s.advanceTo (s.lnk.since + 2 ^ 25)).noteSeen_keeps (seen.toNat &&& maskOf s.lanes) off.toNat
  have unmet : (!((s.advanceTo (s.lnk.since + 2 ^ 25)).noteSeen (seen.toNat &&& maskOf s.lanes) off.toNat).lnk.exchanged) = true := by
    rw [lnk, State.advanceTo, State.elapse_lnk, alone]
    rfl
  have downs : exec (.detectTimeout seen off sb) s
      = done s (((s.advanceTo (s.lnk.since + 2 ^ 25)).noteSeen (seen.toNat &&& maskOf s.lanes) off.toNat).linkDown 9) := by
    refine congrArg (done s) ((if_neg waits).trans ?_)
    refine (if_neg ?_).trans ((if_neg lanes).trans (if_pos unmet))
    rw [decide_eq_false lanes]
    exact Bool.false_ne_true
  exact answersDown (retire := false) downs (link.trans (s.advanceTo_link _)) ((s.advanceTo_requests _).trans (sameRequests_of_carried carried)) up (by decide) none_

end Sys2Proof.Machine

namespace Sys2Proof
open Machine

/-- Settles O13: each command comes to `State.linkDown` with its reason, and an entry to Down shows what the obligation names. -/
theorem downIsEnteredOnItsReasons : Obligations.DownIsEnteredOnItsReasons := by
  unfold Obligations.DownIsEnteredOnItsReasons
  intro s c r up dead writes row
  have none_ : NothingAwaited s := ⟨dead, writes⟩
  have answers : AnswersDown s c r := by
    rcases row with ⟨rfl, reaches, rfl⟩ | ⟨b, rfl, rfl⟩ | ⟨rfl, hold, rfl⟩ | ⟨rfl, equalise, rfl⟩ | ⟨rfl, negotiate, free, rfl⟩
      | ⟨rfl, negotiate, held, rfl⟩ | ⟨rfl, runs, open_, sent, echoes, rfl⟩ | ⟨seen, off, sb, rfl, detect, alone, starts, lanes, rfl⟩ | ⟨rfl, spent, rfl⟩
    · exact linkCtrlDown_downs up none_ reaches
    · exact abortMessage_downs up none_ b
    · exact holdExpiry_downs up none_ hold
    · exact equaliseTimeout_downs up none_ equalise
    · exact negotiateTimeout_downs up none_ negotiate free
    · exact miscableHoldExpiry_downs up none_ negotiate held
    · refine loopExchangeTimeout_downs up none_ ?_ open_ sent echoes
      unfold State.linkRuns
      simpa using runs
    · exact detectTimeout_downs up none_ seen off sb detect alone starts lanes
    · exact trainingRepeat_downs up none_ spent
  obtain ⟨t, next, down, last⟩ := answers
  obtain ⟨fstate, reason, bank, txseq, rxseq, acked, windows, unmapped⟩ := down.shown
  exact ⟨t, next, down.link, fstate, reason, bank, txseq, rxseq, acked, windows, unmapped rfl, last, down.tags⟩

end Sys2Proof
end
